-- ==== Sys2Proof/Word.lean ====
section
/-!
DEFINITION. The words and the operand types of the commands: bytes, registers, 512-bit command words,
and the records a command carries (the fields of a received message, of a flit, of a measurement).
Index operands (tile, die, core, link, ...) are plain `Nat`s; `WellFormed.lean` says their ranges.
-/

namespace Sys2Proof

abbrev Byte := BitVec 8
/-- A management register (R4: every register is 64 bits wide). -/
abbrev Word := BitVec 64
/-- A core command (R90: 64 bytes, read as a little-endian 512-bit word). -/
abbrev CmdWord := BitVec 512

/-- `n` bytes of `v`, least significant first (R12: little-endian). -/
def le : Nat → Nat → List Byte
  | 0, _ => []
  | n + 1, v => BitVec.ofNat 8 v :: le n (v / 256)

/-- The number that little-endian bytes spell. -/
def unle : List Byte → Nat
  | [] => 0
  | b :: bs => b.toNat + 256 * unle bs

/-- Bits [lo+w-1:lo] of `v`, as a number. -/
def bitsOf (v lo w : Nat) : Nat := (v >>> lo) % 2 ^ w

/-- A core, by compute die and core number (R79). -/
structure CoreId where
  die  : Nat
  core : Nat
  deriving DecidableEq, Repr

/-- An engine of a core: 0-3 matrix, 4 vector, 5-6 DMA, 7 sync (Table 3-1). -/
structure EngId where
  die  : Nat
  core : Nat
  eng  : Nat
  deriving DecidableEq, Repr

/-- The four edge ports of a tile (R15). -/
inductive Port | n | e | s | w
  deriving DecidableEq, Repr

/-- The two paths of a beacon (R155). -/
inductive Path | net | ring
  deriving DecidableEq, Repr

/-- The flash as the keeper finds it (R419): whether it answers with a usable SFDP table, its size,
and the bytes the board wrote. -/
structure Flash where
  sfdp  : Bool
  size  : Nat
  image : List Byte
  deriving DecidableEq, Repr

/-- A tile's discovery report (R34 step 7), from a tile position: the variant that the tile knows, and the serials that the tile, its
compute die and its optical engine give. The ID and the edge set that it reports are those that the position holds. -/
structure TileReport where
  tile    : Nat
  variant : Nat
  serials : List Nat
  deriving DecidableEq, Repr

/-- The uncorrectable words found by the reads of one step (R83, R205, R210): byte addresses in core
store, physical addresses, and whether a cell failed the network's check (code 0x0A); and the single-bit errors those
reads corrected: how many in core store, and at which physical addresses. -/
structure EccHits where
  core      : List Nat := []
  mem       : List Nat := []
  net       : Bool := false
  coreFixed : Nat := 0
  memFixed  : List Nat := []
  deriving DecidableEq, Repr

/-- A beacon as received (Table 5-1). -/
structure BeaconMsg where
  tickLo  : Nat
  epoch   : Nat
  holder  : Nat
  path    : Path
  copySeq : Nat
  crc     : Nat
  deriving DecidableEq, Repr

/-- The resources of a context (R119): cores by die, residues by channel, positions by link, span objects and barriers, memory regions
(address and length). -/
structure CopyRes where
  cores     : List (Nat × Nat) := []
  residues  : List (Nat × Nat) := []
  positions : List (Nat × Nat) := []
  objects   : List Nat := []
  regions   : List (Nat × Nat) := []
  deriving DecidableEq, Repr

/-- One context of a copy record (R159): its SEQ_CTX registers, its resources and its save-area address. A cycle record tells only
the start, the cycle count, and the slip and overrun counts. -/
structure CopyCtx where
  ctx     : Nat
  start   : Nat := 0
  cycles  : Nat := 0
  slip    : Nat := 0
  slipped : Nat := 0
  ovFlows : Nat := 0
  ovMax   : Nat := 0
  state   : Nat := 0
  reason  : Nat := 0
  preTk   : Nat := 0
  preNo   : Nat := 0
  saveVa  : Nat := 0
  res     : CopyRes := {}
  deriving DecidableEq, Repr

/-- The kinds of copy record (R159). -/
inductive CopyKind | cycle | context | snapshot
  deriving DecidableEq, Repr

/-- A copy record (R159): a cycle or context record holds one context; a snapshot all 64 and the plan-set epoch. Like every message of a
sequencer it carries its lease epoch (R164). -/
structure CopyMsg where
  seq       : Nat
  kind      : CopyKind
  epoch     : Nat
  planEpoch : Nat := 0
  ctxs      : List CopyCtx := []
  deriving DecidableEq, Repr

/-- How a frame reached a host port (R358, R360): its PCP if it is tagged, its DSCP, its bytes, and the codewords of RS(544,514) that were
corrected and found uncorrectable since the frame before. -/
structure RxFrame where
  pcp           : Option Nat := none
  dscp          : Nat := 0
  bytes         : Nat := 0
  corrected     : Nat := 0
  uncorrectable : Nat := 0
  deriving DecidableEq, Repr

/-- The header fields, source and tag of a received ECP datagram (Table 13-2, R367). `size` is the
bytes of the datagram; `short` says the body is shorter than its type needs; `tail` is what the body holds past
the fields its type names (all of it when `short`); `bodyRsv` holds the body's reserved bytes, in order, as one
little-endian number. -/
structure EcpHdr where
  port    : Nat
  ip      : Nat
  udp     : Nat
  size    : Nat
  magic   : Nat
  version : Nat
  length  : Nat
  flags   : Nat
  seq     : Nat
  reqId   : Nat
  code    : Nat
  rsv     : Nat
  bodyRsv : Nat := 0
  short   : Bool
  tail    : List Byte
  tag     : List Byte
  rx      : RxFrame := {}
  deriving DecidableEq, Repr

/-- A serving request fragment (Table 8-6). -/
structure SrvFrag where
  tile   : Nat
  flags  : Nat
  mode   : Nat
  nStop  : Nat
  reqId  : Nat
  seed   : Nat
  temp   : Nat
  topP   : Nat
  topK   : Nat
  chunk  : Nat
  maxNew : Nat
  len    : Nat
  off    : Nat
  stops  : List Nat
  tokens : List Nat
  deriving DecidableEq, Repr

/-- A received flit's header (Table 12-1, Table 12-3 bytes 8 and 9) and the link it arrived on. -/
structure FlitHdr where
  link     : Nat
  seq      : Nat
  vc       : Nat
  kind     : Bool
  ack      : Nat
  creditVc : Nat
  freed    : Nat
  rsv      : Nat
  len      : Nat
  rsvBody  : Nat
  deriving DecidableEq, Repr

/-- A data flit's message header and data (Table 12-3). -/
structure DataMsg where
  tag    : Nat
  flow   : Nat
  dstPod : Nat
  dstPkg : Nat
  rsv    : Nat
  va     : Nat
  bytes  : List Byte
  deriving DecidableEq, Repr

/-- The transfer header of a WRITE_FIRST (Table 12-2). -/
structure XferHdr where
  planId : Nat
  total  : Nat
  srcPod : Nat
  srcPkg : Nat
  deriving DecidableEq, Repr

/-- The body of a TRAIN (Table 12-7). -/
structure TrainMsg where
  minors   : List Nat
  features : Nat
  pod      : Nat
  pkg      : Nat
  link     : Nat
  seen     : Bool
  ext      : Bool
  epoch    : Nat
  char     : Nat
  deriving DecidableEq, Repr

/-- An event record (Table 17-1). -/
structure EvRec where
  tick      : Nat
  code      : Nat
  unit      : Nat
  prec      : Nat
  forwarded : Bool := false
  subsumed  : Bool := false
  object    : Nat := 0
  waiter    : Nat := 0
  pkg       : Nat := 0x7F
  pod       : Nat := 0x3F
  repeats   : Nat := 0
  detail    : Nat := 0
  deriving DecidableEq, Repr

/-- A span operation carried by a SYNC_OP (Table 12-2). -/
structure PeerOp where
  op      : Nat
  span    : Nat
  value   : Nat
  timeout : Nat
  waiter  : Nat
  planId  : Nat
  crc     : Nat
  deriving DecidableEq, Repr

/-- What a receiver of an optical engine has of one wavelength at a marker: the wavelength, the 80 bits of the marker (Table 10-5), the line
symbols that came since the one before, the eye margin in 1/64 UI, the received power in 0.25 dBm (R291), and the means of the levels
over the period (R290). -/
structure OptMarker where
  link   : Nat
  lam    : Nat
  word   : Nat
  line   : List Nat
  margin : Nat
  power  : Nat
  means  : List Nat
  deriving DecidableEq, Repr

/-- What the receive side of a Ruino-D module samples on one physical lane at the end of a marker period (R261): the 32 bits of the
marker, whether the bits received since the previous marker hold an odd number of ones, and the eye margin in 1/64 UI. -/
structure LaneObs where
  lane   : Nat
  word   : Nat
  odd    : Bool
  margin : Nat
  deriving DecidableEq, Repr

/-- What a side meets in a training stage beyond what the part itself decides (R257, R264, R272): whether the stage's own condition
held (lock in CLOCK and STEP, messages in AGREE, deskew in ALIGN), the sideband lanes found bad in CLOCK, the drivers that the
internal loopback of TEST finds bad, whether a digest arrived altered, and the FIFO depth that ALIGN needs. -/
structure StageObs where
  ok      : Bool
  sideBad : List Nat
  loopBad : List Nat
  garbled : Bool
  depth   : Nat
  deriving DecidableEq, Repr

/-- The two passes of a calibration run's items (Table 11-3): bias, modulator ring bias, the four levels,
pre, post, drop ring bias. -/
structure CalRun where
  pass1 : List Int
  pass2 : List Int
  deriving DecidableEq, Repr

/-- A RoCEv2 request packet (R373, R374). -/
structure RocePkt where
  qpn    : Nat
  psn    : Nat
  icrcOk : Bool
  ce     : Bool
  rkey   : Nat
  va     : Nat
  len    : Nat
  first  : Bool
  last   : Bool
  imm    : Bool
  data   : List Byte
  rx     : RxFrame := {}
  deriving DecidableEq, Repr

/-- A status frame of the metering island as the keeper receives it (R409, Tables 15-4 to 15-8). -/
structure MetFrame where
  valid    : Bool
  sealed   : Bool
  fault    : Bool
  low      : Bool
  used     : Nat
  recordNo : Nat
  total    : Nat
  second   : Nat
  energy   : Nat
  mv       : Nat
  ma       : Nat
  w        : Nat
  refused  : Nat
  deriving DecidableEq, Repr

end Sys2Proof
end

