-- ==== Sys2Proof/Syntax.lean ====
section
/-!
DEFINITION. The commands of the block: one constructor per row of spec/opcode_table.json, in the table's
order, each with the operands its rule gives it. A command that is a message received carries the message's
fields; one that is an event of a unit names the unit; one that reports a measurement carries it.
-/

namespace Sys2Proof

/-- The commands (spec/opcode_table.json). The doc of each names its mnemonic there and its rule. -/
inductive Instr where
  -- Management space and metering mirror (R7, R412)
  /-- REGISTER_WRITE (R7). -/
  | registerWrite (addr width : Nat) (v : Word)
  /-- MIRROR_WRITE (R412). -/
  | mirrorWrite (off : Nat) (v : Word)
  -- Power-up, boot and discovery (R466, R430, R34)
  /-- POWER_ON_RESET (R466). -/
  | powerOnReset
  /-- PKG_RST_N_RELEASE (R430). -/
  | pkgRstNRelease (fl : Flash)
  /-- BOOT_STAGE_END (R430). -/
  | bootStageEnd
  /-- STAGE_BOUND (R430). -/
  | stageBound
  /-- LINK_PHASE_END (R431). -/
  | linkPhaseEnd
  /-- ADVERTISEMENT (R34). -/
  | advertisement (tile : Nat) (port : Port) (id cols : Nat)
  /-- REPORT (R34). -/
  | report (r : TileReport)
  /-- TILE_ABSENT (R36). -/
  | tileAbsent (tile : Nat)
  /-- PKG_RST_N_FALL (R467). -/
  | pkgRstNFall
  /-- INPUT_FALLS_BELOW_36V (R466). -/
  | inputFallsBelow36V (mv : Nat)
  /-- REFERENCE_CLOCK_LOSS (R465). -/
  | referenceClockLoss
  -- Resets, losses and the keeper vote (R451 to R458)
  /-- PACKAGE_WARM_RESET (R452). -/
  | packageWarmReset (fl : Flash)
  /-- TILE_RESET (R457). -/
  | tileReset (unit : Nat)
  /-- COMPUTE_DIE_RESET (R455). -/
  | computeDieReset (unit : Nat)
  /-- OPTICAL_ENGINE_RESET (R452). -/
  | opticalEngineReset (unit : Nat)
  /-- CORE_RESET (R484). -/
  | coreReset (unit core : Nat)
  /-- DIE_CLOCK_LOSS (R455). -/
  | dieClockLoss (unit : Nat)
  /-- CLOCK_RETURN (R455). -/
  | clockReturn (unit : Nat)
  /-- SELF_TEST_END (R455). -/
  | selfTestEnd (unit : Nat) (pass : Bool) (serial : Nat)
  /-- HEALTH_POLL (R456). -/
  | healthPoll (answered : List Nat)
  /-- ALL_MODULES_DOWN (R456). -/
  | allModulesDown (tile : Nat)
  /-- TICK_LINE_LOSS (R32). -/
  | tickLineLoss (tile : Nat)
  /-- VOTE_DISSENT (R458). -/
  | voteDissent (channel output : Nat)
  /-- RESYNCHRONISATION_END (R458). -/
  | resynchronisationEnd (agree : Bool)
  -- The event log (R446 to R449)
  /-- EVENT_RECORD_ARRIVAL (R446). -/
  | eventRecordArrival (n : Nat)
  /-- LOG_APPEND (R446). -/
  | logAppend
  /-- EVENT_NOTE_TIMER (R449). -/
  | eventNoteTimer
  /-- SUPPRESSION_WINDOW_CLOSE (R448). -/
  | suppressionWindowClose (code unit : Nat)
  -- The issue unit and the control ops (R88, R110)
  /-- COMMAND_FETCH (R88). -/
  | commandFetch (c : CoreId) (ecc : EccHits)
  /-- NOP (R110). -/
  | nop (e : EngId)
  /-- END (R110). -/
  | endStream (e : EngId)
  /-- FLAG_CLEAR (R110). -/
  | flagClear (e : EngId)
  /-- LEAVE_RELEASE (R110). -/
  | leaveRelease (e : EngId)
  /-- TICK_MARK (R110). -/
  | tickMark (e : EngId)
  -- The matrix engines (R93)
  /-- MATMUL (R93). -/
  | matmul (e : EngId) (ecc : EccHits)
  -- The vector engine (R104)
  /-- ADD (R104). -/
  | add (c : CoreId) (ecc : EccHits)
  /-- SUB (R104). -/
  | sub (c : CoreId) (ecc : EccHits)
  /-- MUL (R104). -/
  | mul (c : CoreId) (ecc : EccHits)
  /-- FMA (R69). -/
  | fma (c : CoreId) (ecc : EccHits)
  /-- DIV (R104). -/
  | div (c : CoreId) (ecc : EccHits)
  /-- MAX (R104). -/
  | max (c : CoreId) (ecc : EccHits)
  /-- MIN (R104). -/
  | min (c : CoreId) (ecc : EccHits)
  /-- EXP (R104). -/
  | exp (c : CoreId) (ecc : EccHits)
  /-- LOG (R104). -/
  | log (c : CoreId) (ecc : EccHits)
  /-- RSQRT (R104). -/
  | rsqrt (c : CoreId) (ecc : EccHits)
  /-- SQRT (R104). -/
  | sqrt (c : CoreId) (ecc : EccHits)
  /-- TANH (R104). -/
  | tanh (c : CoreId) (ecc : EccHits)
  /-- SIGMOID (R104). -/
  | sigmoid (c : CoreId) (ecc : EccHits)
  /-- SIN (R104). -/
  | sin (c : CoreId) (ecc : EccHits)
  /-- COS (R104). -/
  | cos (c : CoreId) (ecc : EccHits)
  /-- RECIP (R104). -/
  | recip (c : CoreId) (ecc : EccHits)
  /-- RSUM (R105). -/
  | rsum (c : CoreId) (ecc : EccHits)
  /-- RMAX (R104). -/
  | rmax (c : CoreId) (ecc : EccHits)
  /-- RMIN (R104). -/
  | rmin (c : CoreId) (ecc : EccHits)
  /-- SORT (R106). -/
  | sort (c : CoreId) (ecc : EccHits)
  /-- TOPK (R106). -/
  | topk (c : CoreId) (ecc : EccHits)
  /-- CONVERT (R71). -/
  | convert (c : CoreId) (ecc : EccHits)
  -- DMA and the sync unit (R108, R109)
  /-- MOVE (R223). -/
  | move (e : EngId) (ecc : EccHits)
  /-- SIGNAL (R178). -/
  | signal (c : CoreId)
  /-- WAIT (R178). -/
  | wait (c : CoreId)
  /-- WAIT_TAKE (R180). -/
  | waitTake (c : CoreId)
  /-- BARRIER_ARRIVE (R192). -/
  | barrierArrive (c : CoreId) (ecc : EccHits)
  -- Completion and the leave logic (R91, R185, R87, R98 to R102)
  /-- COMMAND_COMPLETE (R91). -/
  | commandComplete (e : EngId)
  /-- FENCE_DATA_COMPLETE (R185). -/
  | fenceDataComplete (e : EngId)
  /-- PORT_TIMEOUT (R87). -/
  | portTimeout (e : EngId)
  /-- LEAVE_GRANT (R388). -/
  | leaveGrant (die : Nat)
  /-- RAMP_STEP (R101). -/
  | rampStep (c : CoreId)
  /-- IDLE_RELEASE (R102). -/
  | idleRelease (c : CoreId) (cycles : Nat)
  /-- FALL_STEP (R102). -/
  | fallStep (c : CoreId)
  -- The hubs (R179)
  /-- SETTLE (R179). -/
  | settle (tile : Nat)
  /-- CORE_OBJECT_SETTLE (R179). -/
  | coreObjectSettle (c : CoreId)
  /-- WAITER_TIMEOUT (R188). -/
  | waiterTimeout (tile waiter obj : Nat)
  /-- WAITER_RETRY (R184). -/
  | waiterRetry (tile : Nat)
  /-- SYN_DBG_SEL_WRITE (R202). -/
  | synDbgSelWrite (tile : Nat) (v : Word)
  -- Plans and contexts (R121 to R147)
  /-- ADMIT (R121). -/
  | admitPlan (h : EcpHdr) (ctx imageVa saveVa root : Nat)
  /-- ADMISSION_EVALUATION (R122); `copyTk`: the tk that the copying of the streams takes (R123). -/
  | admissionEvaluation (ecc : EccHits) (copyTk : Nat)
  /-- CYCLE_START (R125). -/
  | cycleStart (ctx : Nat)
  /-- CYCLE_DONE (R127). -/
  | cycleDone (ctx : Nat)
  /-- STOP (R143). -/
  | stop (h : EcpHdr) (ctx forced : Nat)
  /-- SAVE_COMPLETE (R143). -/
  | saveComplete (ctx : Nat) (ecc : EccHits)
  /-- ABORT (R147). -/
  | abort (h : EcpHdr) (ctx : Nat)
  /-- EPOCH_SET (R124). -/
  | epochSet (h : EcpHdr) (epoch : Nat)
  -- The sequencer lease (R152 to R170)
  /-- BEACON_SEND (R155). -/
  | beaconSend (tile : Nat)
  /-- BEACON (R153). -/
  | beacon (dst : Option Nat) (b : BeaconMsg)
  /-- ACKNOWLEDGEMENT (R154). -/
  | acknowledgement (tile epoch expiry : Nat)
  /-- ACK_MISSING (R154). -/
  | ackMissing (tile : Nat)
  /-- OWN_EXPIRY (R154). -/
  | ownExpiry (tile : Nat)
  /-- BEACON_CHECK (R157). -/
  | beaconCheck (tile b : Nat)
  /-- LEASE_EXPIRY (R163). -/
  | leaseExpiry
  /-- TAKE (R163). -/
  | take (tile : Nat)
  /-- GRANT (R163). -/
  | grant
  /-- ARBITRATE (R168). -/
  | arbitrate (tile : Nat) (silent : Path)
  /-- EPOCH_ANNOUNCEMENT (R164). -/
  | epochAnnouncement (tile epoch : Nat)
  /-- AGENT_REPORT (R165). -/
  | agentReport (tile agent ctx start : Nat) (fin : Bool) (delivered : List (Nat × Nat))
  /-- COPY_RECORD (R160). -/
  | copyRecord (tile : Nat) (m : CopyMsg)
  /-- STANDBY_LOST (R160). -/
  | standbyLost (tile : Nat)
  /-- NO_LEASE_TIMEOUT (R170). -/
  | noLeaseTimeout (fl : Flash)
  /-- PLAN_CTL (R148). -/
  | planCtl (f : FlitHdr) (planId what : Nat)
  -- Memory, translation and DMA (R207 to R228)
  /-- MMU_CACHE_CFG_WRITE (R207). -/
  | mmuCacheCfgWrite (tile : Nat) (v : Word)
  /-- TLB_INV_START (R218). -/
  | tlbInvStart (tile : Nat) (v : Word)
  /-- TLB_INV (R218). -/
  | tlbInv (h : EcpHdr) (ctx all : Nat)
  /-- TLB_INV_COMPLETE (R218). -/
  | tlbInvComplete
  /-- TABLE_WALK (R216). -/
  | tableWalk (e : EngId) (ecc : EccHits)
  /-- RESUME (R228). -/
  | resume (e : EngId)
  /-- ABANDON (R228). -/
  | abandon (e : EngId)
  /-- DMA_RESUME (R228). -/
  | dmaResume (h : EcpHdr) (die core eng action : Nat)
  /-- HBM_TEMPERATURE_READ (R211). -/
  | hbmTemperatureRead (stack : Nat) (quarter : Int)
  /-- REFRESH (R211). -/
  | refresh (stack : Nat)
  /-- SCRUB (R210). -/
  | scrub (stack corrected : Nat) (bad : List Nat)
  -- Token serving (R236 to R253)
  /-- SRV_OPEN (R236). -/
  | srvOpen (h : EcpHdr) (ctx tile blockVa : Nat)
  /-- SRV_CLOSE (R253). -/
  | srvClose (h : EcpHdr) (tile : Nat)
  /-- SRV_REQ (R252). -/
  | srvReq (h : EcpHdr) (r : SrvFrag)
  /-- FRAGMENT_TIMEOUT (R252). -/
  | fragmentTimeout (tile reqId : Nat)
  /-- SRV_ACK (R248). -/
  | srvAck (h : EcpHdr) (tile reqId index : Nat)
  /-- SRV_RESEND (R248). -/
  | srvResend (h : EcpHdr) (tile reqId index : Nat)
  /-- SRV_CANCEL (R247). -/
  | srvCancel (h : EcpHdr) (tile reqId : Nat)
  /-- WINDOW_PROCEDURE (R241). -/
  | windowProcedure (tile : Nat)
  /-- SRV_TOK_TIMEOUT (R248). -/
  | srvTokTimeout (tile reqId : Nat)
  /-- RETENTION_END (R248). -/
  | retentionEnd (tile reqId : Nat)
  -- The Ruino-D modules (R261 to R273)
  /-- TRAINING_REQUEST (R263). -/
  | trainingRequest (unit m : Nat)
  /-- D2D_CTL_RETRAIN (R263). -/
  | d2dCtlRetrain (unit m : Nat)
  /-- FORWARDED_CLOCK_LOSS (R263). -/
  | forwardedClockLoss (unit m : Nat) (absent : List Nat)
  /-- TRAINING_STAGE_END (R264). -/
  | trainingStageEnd (unit m : Nat) (o : StageObs)
  /-- ALIGNMENT_MARKER (R261). -/
  | alignmentMarker (unit m : Nat) (obs : List LaneObs)
  /-- REPAIR (R270). -/
  | repair (unit m x y epoch : Nat)
  /-- REPAIR_BOUNDARY (R270). -/
  | repairBoundary (unit m : Nat)
  /-- ACK (R270). -/
  | ack (unit m epoch digest : Nat)
  /-- DEGRADE (R271). -/
  | degrade (unit m epoch : Nat)
  /-- BAND_SET_STEP (R273). -/
  | bandSetStep (unit m : Nat)
  -- The optical engine (R284 to R303)
  /-- TOE_CTL_ENABLE (R284). -/
  | toeCtlEnable (link : Nat) (on : Bool)
  /-- LIT_ENTRY (R284). -/
  | litEntry (link : Nat)
  /-- LIT_CHECK_ARMED (R285). -/
  | litCheckArmed (link : Nat)
  /-- LIT_CHECK (R285). -/
  | litCheck (link : Nat)
  /-- HOLD_END (R284). -/
  | holdEnd (link : Nat)
  /-- LOCK_TIMEOUT (R314). -/
  | lockTimeout (link lam : Nat) (tx : Bool)
  /-- OPTICAL_MARKER (R295). -/
  | opticalMarker (m : OptMarker)
  /-- TEST_END (R300). -/
  | testEnd (link : Nat)
  /-- MODE_STEP (R301). -/
  | modeStep (link : Nat)
  /-- AGREEMENT (R302). -/
  | agreement (link : Nat)
  /-- WAIT_END (R303). -/
  | waitEnd (link : Nat)
  /-- TOE_CTL_RESTART (R300). -/
  | toeCtlRestart (link : Nat)
  -- Wavelength control, calibration and sparing (R310 to R330)
  /-- INTEGRATION_WINDOW (R310). -/
  | integrationWindow (link lam : Nat) (tx : Bool) (deriv : Int) (drop3dB : Bool)
  /-- IDENTITY_CHECK (R317). -/
  | identityCheck (link lam : Nat) (tx : Bool) (amps : List Nat) (expected : Nat)
  /-- TEMPERATURE_UPDATE (R322); the reading in 0.25 °C. -/
  | temperatureUpdate (link : Nat) (quarter : Int)
  /-- CALIBRATION_RUN_END (R320). -/
  | calibrationRunEnd (link lam : Nat) (tx : Bool) (r : CalRun)
  /-- CALIBRATION_RETRY (R320). -/
  | calibrationRetry (link lam : Nat) (tx : Bool)
  /-- CAL_REPORT (R319). -/
  | calReport (f : FlitHdr) (lam item pass : Nat) (values : List Int)
  /-- HOURLY_MEAN (R327). -/
  | hourlyMean (link lam : Nat)
  /-- FEC_WINDOW (R327). -/
  | fecWindow (link lam : Nat)
  /-- SPARE_ASK (R327). -/
  | spareAsk (f : FlitHdr) (reason lam : Nat)
  /-- SPARE_CMD (R325). -/
  | spareCmd (f : FlitHdr) (action x y epoch m : Nat)
  /-- SPARE_ABORT (R326). -/
  | spareAbort (f : FlitHdr) (m : Nat)
  /-- SPARE_DONE (R325). -/
  | spareDone (f : FlitHdr) (epoch role : Nat)
  /-- SPARE_DONE_TIMEOUT (R325). -/
  | spareDoneTimeout (link : Nat)
  /-- REPLACEMENT_BOUNDARY (R326). -/
  | replacementBoundary (link : Nat) (tx : Bool)
  /-- EMERGENCY_REPLACEMENT (R329). -/
  | emergencyReplacement (link lam : Nat)
  -- The Ruino link layer (R335 to R353)
  /-- IDLE (R335). -/
  | idle (f : FlitHdr)
  /-- TRAIN (R346). -/
  | train (f : FlitHdr) (t : TrainMsg)
  /-- PING (R346). -/
  | ping (f : FlitHdr) (stamp : Nat)
  /-- PONG (R346). -/
  | pong (f : FlitHdr) (stamp : Nat)
  /-- WRITE (R342). -/
  | write (f : FlitHdr) (d : DataMsg)
  /-- WRITE_FIRST (R335). -/
  | writeFirst (f : FlitHdr) (d : DataMsg) (x : XferHdr)
  /-- DELIVERED (R335). -/
  | delivered (f : FlitHdr) (pod pkg tag : Nat)
  /-- REFUSE (R230). -/
  | refuse (f : FlitHdr) (pod pkg tag cause : Nat)
  /-- SYNC_OP (R335). -/
  | syncOp (f : FlitHdr) (o : PeerOp)
  /-- SYNC_RESULT (R335). -/
  | syncResult (f : FlitHdr) (waiter span outcome tick : Nat)
  /-- BARRIER_REL (R335). -/
  | barrierRel (f : FlitHdr) (span gen mask : Nat)
  /-- CHAR (R349). -/
  | char (f : FlitHdr) (value : Nat)
  /-- CHAR_PERIOD (R348). -/
  | charPeriod (link : Nat)
  /-- LINK_DOWN (R351). -/
  | linkDown (f : FlitHdr) (cause : Nat)
  /-- EVENT (R450). -/
  | event (f : FlitHdr) (r : EvRec)
  /-- REPLAY_TIMEOUT (R343). -/
  | replayTimeout (link : Nat)
  /-- ACK_DUE_TIMEOUT (R341). -/
  | ackDueTimeout (link : Nat)
  /-- LNK_CTL_DOWN (R351). -/
  | lnkCtlDown (link : Nat)
  /-- LNK_CTL_TRAIN (R345). -/
  | lnkCtlTrain (link : Nat)
  -- ECP: the claim, management and memory registrations (R364 to R376)
  /-- CLAIM_HELLO (R364). -/
  | claimHello (h : EcpHdr) (nonce : Nat) (mram : Bool)
  /-- CLAIM (R364). -/
  | claim (h : EcpHdr) (np pub notifyIp notifyPort rsv : Nat) (sig : List Byte)
  /-- RELEASE (R365). -/
  | release (h : EcpHdr)
  /-- QUERY (R371). -/
  | query (h : EcpHdr) (sel nonce : Nat) (mram : Bool)
  /-- REG_READ (R371). -/
  | regRead (h : EcpHdr) (addr count : Nat) (ecc : EccHits)
  /-- REG_WRITE (R371). -/
  | regWrite (h : EcpHdr) (addr : Nat) (v : Word)
  /-- EVENT_FILTER (R371). -/
  | eventFilter (h : EcpHdr) (mask : Nat)
  /-- WATCH (R196). -/
  | watch (h : EcpHdr) (ctx code thr span : Nat)
  /-- ECP_SIGNAL (R197). -/
  | ecpSignal (h : EcpHdr) (ctx span value : Nat)
  /-- MR_REG (R374). -/
  | mrReg (h : EcpHdr) (kind ctx region access pa length : Nat)
  /-- MR_DEREG (R374). -/
  | mrDereg (h : EcpHdr) (rkey : Nat)
  /-- QP_OPEN (R376). -/
  | qpOpen (h : EcpHdr) (ctx port peerQpn peerIp psn rkey span : Nat)
  /-- QP_CLOSE (R371). -/
  | qpClose (h : EcpHdr) (qpn : Nat)
  -- RoCEv2 and the Ethernet ports (R358 to R377)
  /-- RDMA_WRITE (R373). -/
  | rdmaWrite (port : Nat) (p : RocePkt)
  /-- RDMA_READ (R375). -/
  | rdmaRead (port : Nat) (p : RocePkt) (ecc : EccHits)
  /-- SEND (R376). -/
  | send (port : Nat) (p : RocePkt)
  /-- CONGESTION_NOTIFICATION (R377). -/
  | congestionNotification (port qpn : Nat)
  /-- RATE_INCREASE (R377). -/
  | rateIncrease (qpn : Nat)
  /-- PFC_FRAME (R360). -/
  | pfcFrame (port prio : Nat) (xoff : Bool)
  /-- PAUSE_FRAME (R358). -/
  | pauseFrame (port : Nat)
  /-- ARP_REQUEST (R359). -/
  | arpRequest (port ip : Nat)
  /-- NEIGHBOUR_SOLICITATION (R359). -/
  | neighbourSolicitation (port ip : Nat)
  /-- ECHO_REQUEST (R359). -/
  | echoRequest (port ip : Nat) (v6 : Bool)
  /-- ETHERNET_LINK_DOWN (R362). -/
  | ethernetLinkDown (port : Nat)
  /-- ETHERNET_LINK_UP (R362). -/
  | ethernetLinkUp (port : Nat)
  -- Supply, cap and operating points (R380 to R393)
  /-- INPUT_LOW (R380). -/
  | inputLow (mv : Nat)
  /-- SUPPLY_FAULT (R380). -/
  | supplyFault (code mv : Nat)
  /-- TILE_RAIL_FAULT (R380). -/
  | tileRailFault (tile : Nat)
  /-- POWER_SAMPLE (R382). -/
  | powerSample (watts mv : Nat)
  /-- PACKAGE_LIMIT_GUARD (R384). -/
  | packageLimitGuard
  /-- CONTROL_TICK (R383). -/
  | controlTick
  /-- PWR_MODE_WRITE (R386). -/
  | pwrModeWrite (v : Word)
  /-- RAIL_SETTLED (R391). -/
  | railSettled (die : Nat)
  /-- SETTLE_WINDOW_END (R391). -/
  | settleWindowEnd (die : Nat)
  /-- DROOP_TRIP (R392). -/
  | droopTrip (c : CoreId)
  /-- STRETCH_END (R392). -/
  | stretchEnd (c : CoreId) (cycles : Nat)
  /-- STEP_HOLD_END (R393). -/
  | stepHoldEnd (die : Nat)
  -- Sensors and thermal limits (R394 to R402)
  /-- SENSOR_READ (R394). -/
  | sensorRead (tile : Nat) (quarters : List Int)
  /-- SENSOR_FAULTY (R395). -/
  | sensorFaulty (tile index : Nat)
  /-- RATE_COMPUTATION (R396). -/
  | rateComputation (tile : Nat)
  /-- LASER_ZONE_DARKEN (R396). -/
  | laserZoneDarken (engine : Nat)
  /-- THERMAL_TRIP (R397). -/
  | thermalTrip (tile index : Nat)
  /-- RECONCILIATION (R402). -/
  | reconciliation (telemetryMj : Nat)
  -- The metering island (R407 to R416)
  /-- METERING_START (R408). -/
  | meteringStart
  /-- ISLAND_HOLD_UP (R408). -/
  | islandHoldUp (importMj exportMj : Nat)
  /-- MET_PULSE (R407). -/
  | metPulse
  /-- INTERVAL_END (R413). -/
  | intervalEnd
  /-- SELF_CHECK (R415). -/
  | selfCheck (volt shunt osc : Bool) (importMj exportMj mv ma : Nat)
  /-- STATUS_FRAME (R409). -/
  | statusFrame (m : MetFrame)
  /-- RECORD_FRAME (R409). -/
  | recordFrame (no : Nat) (bytes : List Byte)
  /-- MIRROR_STALE (R410). -/
  | mirrorStale
  /-- STATUS (R416). -/
  | status (crc arg : Nat)
  /-- RECORD (R416). -/
  | record (crc no : Nat)
  /-- PUBKEY (R416). -/
  | pubkey (crc arg : Nat)
  /-- CAL_CHECK (R416). -/
  | calCheck (crc : Nat) (prog : Bool) (load measured : Nat)
  /-- PULSE_TEST (R416). -/
  | pulseTest (crc : Nat) (prog : Bool) (count : Nat)
  /-- SEAL (R411). -/
  | seal (crc : Nat) (prog : Bool) (arg : Nat)
  -- The identity key and the management pins (R436, R470 to R472)
  /-- LOWER_TREE_BUILD (R436). -/
  | lowerTreeBuild
  /-- I3C_WRITE (R471). -/
  | i3cWrite (addr : Nat) (v : Word)
  /-- READ_REQUEST (R471). -/
  | readRequest (addr : Nat) (ecc : EccHits)
  /-- STATUS_READ (R471). -/
  | statusRead
  /-- SETDASA (R470). -/
  | setdasa (static dyn : Nat)
  /-- ENTDAA (R470). -/
  | entdaa (dyn : Nat)
  /-- GETSTATUS (R470). -/
  | getstatus
  /-- EXTEST (R472). -/
  | extest
  /-- SAMPLE_PRELOAD (R472). -/
  | samplePreload (pins : Nat)
  /-- IDCODE (R472). -/
  | idcode
  /-- MGMT (R472). -/
  | mgmt (cmd addr : Nat) (v : Word) (ecc : EccHits)
  /-- BYPASS (R472). -/
  | bypass
  /-- TRST_N (R472). -/
  | trstN
  -- Rows that close the table
  /-- FORWARDED_CLOCK_RETURN (R263). -/
  | forwardedClockReturn (unit m : Nat)
  /-- CRC_FAILED_FLIT (R342). -/
  | crcFailedFlit (link : Nat)
  /-- COPY_RECORD_ACKNOWLEDGEMENT (R160). -/
  | copyRecordAcknowledgement (tile seq : Nat)
  /-- OTHER_DATAGRAM (R359, R360): kind 0 a fragment, 1 neither ECP nor RoCEv2, 2 a frame for a buffer. -/
  | otherDatagram (port kind : Nat) (rx : RxFrame)
  deriving DecidableEq, Repr

end Sys2Proof
end

