-- ==== Sys2Proof/Decode.lean ====
section
/-!
DEFINITION. The commands that a word spells. No row of spec/opcode_table.json gives bits, so no word spells one.
-/

namespace Sys2Proof

/-- The command of an instruction word; the table gives no row bits. -/
def decodeTableWord (_nbits _w : Nat) : Option Instr := none

end Sys2Proof
end

