-- ==== Sys2Proof/Config.lean ====
section
/-!
DEFINITION. What the spec leaves open: the free values. Each is a constant without a body, so that nothing can be
proved of its value. The machine applies them to a counter of the state (`State.freeCtr`) or to the operands named.
-/

namespace Sys2Proof

/-- A byte whose contents the spec calls undefined (R86, R207, R231, Table 17-5): by the overlay's number and the
byte's address. -/
opaque Config.freeByte : Nat → Nat → Byte

/-- A value the spec leaves open where none is stated: by the counter of free values. -/
opaque Config.freeNat : Nat → Nat

/-- Which of the FP32 values within the bound of Table 3-9 a function gives for an operand (R104): functions 0 RECIP, 1 RSQRT, 2 EXP,
3 LOG, 4 TANH, 5 SIGMOID, 6 SIN, 7 COS. -/
opaque Config.ulpPick : Nat → Nat → Nat

/-- Whether tininess is judged after rounding: the spec says "tiny" and does not say at which point (R69, R77). -/
opaque Config.tinyAfterRounding : Bool

/-- An HSS/LMS signature of a message: by identity (0 keeper, 1 metering island), leaf number and message. -/
opaque Config.lmsSign : Nat → Nat → List Byte → List Byte

/-- A random byte string of the keeper's generator: by its counter and length. -/
opaque Config.randomByte : Nat → Nat → Byte

/-- The public key the identity seed or the metering island gives (R435, R414): 0 keeper, 1 metering island. -/
opaque Config.publicKey : Nat → List Byte → List Byte

/-- A ring's calibrated bias, which its integrator subtracts from the derivative (R310; its value is fixed at test and not stated). -/
opaque Config.ringBias : Nat → Int

/-- Bytes of the fuse map whose layout the spec does not give, by offset (R435). -/
opaque Config.fuseByte : Nat → Byte

/-- Whether the keeper output with this index is a lease decision (R169; the numbering of outputs is not given). -/
opaque Config.leaseOutput : Nat → Bool

/-- The body of a control message of the link layer, whose fields' places the spec does not give (Table 12-2): by type and fields, from
byte 8 of the flit on. -/
opaque Config.controlBody : Nat → List Nat → List Byte

end Sys2Proof
end

