-- ==== Sys2Proof/Machine/State.lean ====
section
/-!
DEFINITION. The state of the part, as plain data. Register fields live in `State.regs`, one entry per field that has been
written (`Machine/Regs.lean` names every field of every register); everything the chapters describe that is not a
register stands in the records below. Lists of pairs are maps by number, in rising order.
-/

namespace Sys2Proof.Machine

/-- A map by number: pairs in strictly rising order of the key. -/
abbrev SMap (α : Type) := List (Nat × α)

/-- A range of memory whose unlisted bytes are undefined: byte `a` of it reads `Config.freeByte seed a`. -/
structure Overlay where
  base : Nat
  len  : Nat
  seed : Nat
  deriving DecidableEq, Repr

/-- Byte memory: listed cells in strictly rising order, and the ranges that were left undefined. An unlisted
byte outside every overlay reads 0. The one memory holds every address space of the part at its own base (`Machine/Mem.lean`):
physical addresses (R204), core store (R82), accumulator buffers (R86). -/
structure Mem where
  cells : List Host.Cell := []
  undef : List Overlay := []
  deriving DecidableEq, Repr

/-! ### Events (chapter Events, Resets and Fault Handling) -/

/-- An open suppression window (R448). -/
structure SupWin where
  code   : Nat
  unit   : Nat
  opened : Nat
  count  : Nat := 0
  last   : Option EvRec := none
  deriving DecidableEq, Repr

/-- A record waiting for an EVENT_NOTE, with the tick of its append (R449). -/
structure NoteRec where
  ev : EvRec
  at_ : Nat
  deriving DecidableEq, Repr

/-- Events under way, held by the keeper, and logged (R446 to R450). -/
structure EvState where
  travel  : List EvRec := []
  held    : List EvRec := []
  log     : SMap EvRec := []
  lost    : Nat := 0
  wins    : List SupWin := []
  notes   : List NoteRec := []
  deriving DecidableEq, Repr

/-! ### Cores and engines (chapter Cores and Engines) -/

/-- Where the command at the head of an engine's queue stands (R81, R91, Table 3-14). -/
inductive Phase
  /-- No command, or one not yet checked. -/
  | idle
  /-- Waits on `pre_obj`. -/
  | preWait
  /-- Past check and pre-wait; not yet executing. -/
  | ready
  /-- A matrix command waiting for the leave grant. -/
  | leave
  /-- Executing: its effect is under way. -/
  | executing
  /-- A span operation not yet released. -/
  | span
  /-- Stalled at a matrix port. -/
  | port
  /-- Every output issued; not yet completed. -/
  | done
  /-- FENCE.DATA outstanding. -/
  | fence
  /-- Halted on error. -/
  | halted
  /-- Stopped by a stop, abort or reset. -/
  | stopped
  deriving DecidableEq, Repr

/-- A translation held by a DMA engine's TLB (R217), most recently used first in its list. -/
structure TlbEntry where
  ctx   : Nat
  va    : Nat
  size  : Nat
  pa    : Nat
  read  : Bool
  write : Bool
  deriving DecidableEq, Repr

/-- A walk under way: the VA and side (0 source, 1 destination) that missed (R216); `again` when an invalidation
discarded its result (Table 7-9). -/
structure WalkReq where
  va    : Nat
  side  : Nat
  deriving DecidableEq, Repr

/-- What an agent saves of one engine (R144, R229): the seq of the first command not completed and its stream position; the progress
record of a DMA engine, 32 bytes as a number. -/
structure SavedEng where
  eng      : Nat
  seq      : Nat
  pos      : Nat
  finished : Bool
  safeDone : Nat
  dma      : Nat := 0
  deriving DecidableEq, Repr

/-- An engine: its in-order queue, its stream position and what its head command is doing. -/
structure Eng where
  queue    : List CmdWord := []
  phase    : Phase := .idle
  /-- Stream base and count of this cycle (R88) and commands fetched in it. -/
  base     : Nat := 0
  count    : Nat := 0
  fetched  : Nat := 0
  /-- The stream is being fetched; cleared at END, at the count, or on a halt. -/
  fetching : Bool := false
  /-- The stream finished in this cycle (R89). -/
  finished : Bool := false
  /-- Completed commands with `safe_after` in this cycle (R142). -/
  safeDone : Nat := 0
  lastSeq  : Nat := 0
  status   : Nat := 0
  flags    : Nat := 0
  busy     : Nat := 0
  /-- Tick in which the pre-wait or stall began, or the last value moved. -/
  since    : Nat := 0
  /-- Matrix: values still to enter the port, and the flags of their rows; vector: values taken from the port so far. -/
  portBuf  : List Nat := []
  portFl   : List Nat := []
  /-- Port FIFO of a matrix engine: the values left of each output row in it (R87). -/
  fifo     : List (List Nat) := []
  /-- Values of one output row of the command at the port. -/
  rowLen   : Nat := 0
  /-- DMA: descriptor index, byte offset, and whether the descriptor's fetch checks passed. -/
  descIdx  : Nat := 0
  off      : Nat := 0
  descOk   : Bool := false
  parked   : Bool := false
  walk     : Option WalkReq := none
  tlb      : List TlbEntry := []
  /-- The issue unit halted the stream at a fetch that placed no command (R88). -/
  cut      : Bool := false
  /-- A stop has come: the engine stops once the command that it executes is done (R112). -/
  halting  : Bool := false
  /-- What a save keeps of the engine, from the moment it stopped. -/
  saved    : Option SavedEng := none
  deriving DecidableEq, Repr

/-- The leave logic of a core (Table 3-6). -/
inductive Leave | idle | req | ramp | full | down
  deriving DecidableEq, Repr

/-- A core: leave logic, assigned context, posted core-object signals, stop target. -/
structure CoreSt where
  leave    : Leave := .idle
  level    : Nat := 0
  /-- Tick of the grant or of the start of the fall. -/
  stepAt   : Nat := 0
  falling  : Bool := false
  reqAt    : Nat := 0
  downReq  : Option Nat := none
  /-- The down request cannot be withdrawn (LEAVE_RELEASE, revocation). -/
  downHard : Bool := false
  /-- A core reset holds the core until its ramp-down ends (R484). -/
  inReset  : Bool := false
  ctx      : Option Nat := none
  /-- Posted signals: engine, object, amount (R179). -/
  sigs     : List (Nat × Nat × Nat) := []
  /-- Round-robin position of the issue unit (R88). -/
  rr       : Nat := 0
  /-- Safe point target of a stop (R143). -/
  target   : Option Nat := none
  stretched : Bool := false
  deriving DecidableEq, Repr

/-! ### Synchronisation -/

/-- The kinds of span operation (Table 6-4). -/
inductive SpanKind | signal | wait | take | arrive | watch
  deriving DecidableEq, Repr

/-- A span operation at a hub: its object, amount or threshold, issuer and how its outcome is returned. -/
structure SpanOp where
  kind    : SpanKind
  obj     : Nat
  value   : Nat
  waiter  : Nat
  /-- Unit through which it came (Table 6-19). -/
  unit    : Nat
  ctx     : Nat
  /-- Registration tick (R179), and the timeout tick, counted from the first attempt (R184, R187). -/
  reg     : Nat
  expire  : Nat
  crc     : Nat := 0
  seq     : Nat := 0
  /-- Plan of a peer operation, and the waiter ID under which it came. -/
  plan    : Option Nat := none
  origin  : Nat := 0
  /-- The host request that it came with, which the settle answers (R183). -/
  hdr     : Option EcpHdr := none
  deriving DecidableEq, Repr

/-- A span counter or barrier slot (key: index, plus 4,096 for a barrier slot). -/
structure SpanObj where
  value     : Nat := 0
  overflow  : Bool := false
  underflow : Bool := false
  held      : Option Nat := none
  gen       : Nat := 0
  init      : Nat := 0
  desc      : Nat := 0
  crc       : Nat := 0
  /-- Generations released in the current cycle. -/
  released  : Nat := 0
  arrived   : List Nat := []
  lastUnit  : Nat := 0
  lastSig   : Nat := 0
  lastTick  : Nat := 0
  deriving DecidableEq, Repr

/-- An entry of a virtual map (R199). -/
structure VmapEntry where
  ctx    : Nat
  vid    : Nat
  target : Nat
  deriving DecidableEq, Repr

/-- A tile's sync hub. -/
structure Hub where
  objs    : SMap SpanObj := []
  waiters : List SpanOp := []
  inbox   : List SpanOp := []
  retry   : List SpanOp := []
  vmap    : List VmapEntry := []
  /-- A SYN_DBG_SEL write waits for the settle. -/
  snap    : Bool := false
  deriving DecidableEq, Repr

/-! ### Plans and contexts -/

structure StreamE where
  die    : Nat
  core   : Nat
  engine : Nat
  count  : Nat
  la     : Nat
  offset : Nat
  deriving DecidableEq, Repr

structure SlotE where
  channel : Nat
  flow    : Nat
  first   : Nat
  last    : Nat
  res     : Nat
  cells   : Nat
  deriving DecidableEq, Repr

structure FlowE where
  flow    : Nat
  optical : Bool
  bytes   : Nat
  doneTk  : Nat
  slack   : Nat
  deriving DecidableEq, Repr

structure SyncE where
  kind   : Nat
  object : Nat
  init   : Nat
  aux    : Nat
  desc   : Nat
  deriving DecidableEq, Repr

structure OptE where
  link  : Nat
  vc    : Nat
  flow  : Nat
  pos   : Nat
  first : Nat
  last  : Nat
  deriving DecidableEq, Repr

structure SaveE where
  point  : Nat
  die    : Nat
  core   : Nat
  engine : Nat
  la     : Nat
  length : Nat
  deriving DecidableEq, Repr

structure LinkE where
  link : Nat
  pod  : Nat
  pkg  : Nat
  deriving DecidableEq, Repr

/-- A region of a context (Table 7-5). -/
structure Region where
  va     : Nat
  length : Nat
  read   : Bool
  write  : Bool
  peer   : Bool
  host   : Bool
  deriving DecidableEq, Repr

/-- A plan image as the primary reads it (R114 to R117). -/
structure Plan where
  planId  : Nat := 0
  epoch   : Nat := 0
  period  : Nat := 1008
  cycles  : Nat := 0
  multi   : Bool := false
  streams : List StreamE := []
  cores   : List (Nat × Nat) := []
  slots   : List SlotE := []
  flows   : List FlowE := []
  sync    : List SyncE := []
  safe    : List Nat := []
  regions : List Region := []
  optical : List OptE := []
  save    : List SaveE := []
  links   : List LinkE := []
  deriving DecidableEq, Repr

/-- A range of memory as saved: its base, length and contents. -/
structure SavedMem where
  base : Nat
  len  : Nat
  mem  : Mem
  deriving DecidableEq, Repr

/-- What the agents saved of one core: the register fields of its objects and completion rings (place and value), its
engines, and the saved ranges of core store and accumulator buffers. -/
structure SavedCore where
  key    : Nat
  fields : List (Nat × Nat)
  engs   : List SavedEng
  ranges : List SavedMem
  deriving DecidableEq, Repr

/-- The flow tracker of one flow in the current cycle (R137). -/
structure FlowT where
  flow : Nat
  got  : Nat
  done : Option Nat
  deriving DecidableEq, Repr

/-- A hardware context. Its state, cycle count, start, slip, overrun and pre-emption counts are SEQ_CTX registers. -/
structure Ctx where
  plan     : Plan := {}
  imageVa  : Nat := 0
  saveVa   : Nat := 0
  flows    : List FlowT := []
  /-- A cycle is under way (R125); the stop is a forced one; the offset of its safe point (R143). -/
  started  : Bool := false
  forced   : Bool := false
  target   : Nat := 0
  /-- The tick at which the cycle was done while no sequencer acted (Table 5-5). -/
  doneAt   : Option Nat := none
  stopOff  : Nat := 0
  /-- The stop came within a cycle, which a resume continues (R146). -/
  mid      : Bool := false
  resumed  : Bool := false
  saved    : List SavedCore := []
  deriving DecidableEq, Repr

/-- A pending admission message (R121). -/
structure Admit where
  hdr     : EcpHdr
  ctx     : Nat
  imageVa : Nat
  saveVa  : Nat
  root    : Nat
  at_     : Nat
  deriving DecidableEq, Repr

/-! ### The lease -/

/-- A copy record sent and not acknowledged (R160), and the path that it took (R161). -/
structure CopyOut where
  msg  : CopyMsg
  at_  : Nat
  path : Path
  deriving DecidableEq, Repr

/-- A sequencer of the primary or standby tile. -/
structure SeqSt where
  ownExp    : Nat := 0
  lastAck   : Nat := 0
  ackRaised : Bool := false
  /-- Standby: beacon ticks sampled, by path (R157). -/
  got       : List (Nat × Path) := []
  silentNet  : Bool := false
  silentRing : Bool := false
  faultNet   : Bool := false
  faultRing  : Bool := false
  goodNet    : Nat := 0
  goodRing   : Nat := 0
  lostRaised : Bool := false
  /-- The standby's copy of the contexts (R159). -/
  copies    : SMap CopyCtx := []
  copyEpoch : Nat := 0
  /-- Records sent and unacknowledged; the primary's own view of ready. -/
  unacked   : List CopyOut := []
  readyView : Bool := false
  standbyLost : Bool := false
  nextSeq   : Nat := 0
  /-- First start tick it may issue after a grant (R165). -/
  notBefore : Nat := 0
  /-- Agent: the last start tick accepted for a context (R164). -/
  accepted  : SMap Nat := []
  deriving DecidableEq, Repr

/-- Messages of the lease that the part sends; the commands that receive them carry their values (chapter Sequencer Lease). -/
inductive LeaseMsg
  | beacon (b : BeaconMsg)
  | ack (tile epoch expiry : Nat)
  | deny (tile : Nat)
  | stay (tile : Nat) (path : Path)
  | announce (epoch : Nat)
  | take (tile : Nat)
  | arbitrate (tile : Nat) (silent : Path)
  | report (agent ctx start : Nat) (fin : Bool) (delivered : List (Nat × Nat)) (released : List Nat)
  | copy (m : CopyMsg) (path : Path)
  | copyAck (tile seq : Nat) (path : Path)
  deriving DecidableEq, Repr

/-- The keeper's side of the lease (R152, R163, R168). -/
structure LeaseSt where
  take      : Option (Nat × Nat) := none
  lastNet   : Option Nat := none
  lastRing  : Option Nat := none
  /-- Copy records travel on the base network (R161). -/
  diverted  : Bool := false
  sent      : List LeaseMsg := []
  deriving DecidableEq, Repr

/-! ### Memory and translation -/

/-- A set of a base-store cache (R208): the line in each of its 16 ways, plus 1 (0: none), and the bits of its pseudo-LRU tree. -/
structure CacheSet where
  ways : List Nat := List.replicate 16 0
  tree : Nat := 0
  deriving DecidableEq, Repr

/-- A held ECP TLB invalidation (R218). -/
structure TlbReq where
  hdr  : Option EcpHdr
  ctx  : Nat
  all  : Bool
  deriving DecidableEq, Repr

/-- An HBM controller: the row of Table 7-3 in force (0 to 3), the row the last reading asks for, refreshes and scrubs. -/
structure HbmSt where
  row     : Nat := 0
  want    : Nat := 0
  refresh : Nat := 0
  scrubs  : Nat := 0
  deriving DecidableEq, Repr

/-- How a frame leaves a host port (R359, R360, R377): the address it goes to on the link, the destination's own or the gateway's; the VID of
its tag; its PCP, where its class has one; its DSCP; its ECN bits. -/
structure Wire where
  hop  : Nat := 0
  vid  : Option Nat := none
  pcp  : Option Nat := none
  dscp : Nat := 0
  ecn  : Nat := 0
  deriving DecidableEq, Repr

/-- An ECP message the part sent: destination, header fields, body, and the key its tag is made with (R366). -/
structure EcpOut where
  port  : Nat
  ip    : Nat
  udp   : Nat
  type  : Nat
  flags : Nat
  seq   : Nat
  reqId : Nat
  code  : Nat
  body  : List Byte
  key   : Option (List Byte) := none
  wire  : Wire := {}
  deriving DecidableEq, Repr

/-! ### The registers -/

/-- The access codes of a register field (Table 0-6); RSV fields are not fields. -/
inductive Acc | ro | rw | w1c | wo | rc
  deriving DecidableEq, Repr

/-- Where a field's reset value comes from (R8): a number of the table, undefined, fuses, light list, MRAM. -/
inductive Src | num | undef | fuse | light | kept
  deriving DecidableEq, Repr

/-- A register field: offset of its register in its unit (of the first repetition), lowest bit, width, access, reset. -/
structure Fld where
  off : Nat
  lo  : Nat
  w   : Nat
  acc : Acc
  rst : Nat
  src : Src
  deriving DecidableEq, Repr

/-- The kinds of unit that hold registers (Table 0-5); `d2d` registers lie in keeper, tiles and optical engines. -/
inductive UnitKind | keeper | tile | die | toe | port | met | d2d
  deriving DecidableEq, Repr

/-- A register, or an array of them: offset of the first, the repetitions (count, stride), and its fields. -/
structure RegDesc where
  kind : UnitKind
  off  : Nat
  dims : List (Nat × Nat)
  flds : List Fld
  deriving DecidableEq, Repr

/-- A message the link layer is to send on a link (Table 12-2): its type, its fields in the table's order, its data. -/
structure LinkMsg where
  link : Nat
  type : Nat
  args : List Nat
  data : List Byte := []
  vc   : Nat := 3
  /-- Sequence number once sent (R340). -/
  seq  : Nat := 0
  /-- What its flit header carries (R338): 0 and the ack, or 1, the channel and the entries freed. -/
  hdr  : List Nat := []
  /-- The context whose positions a planned message uses; 64 for none. -/
  ctx  : Nat := 64
  deriving DecidableEq, Repr

/-- Bytes on their way through the part (R129 to R134). -/
structure Run where
  /-- The stations they have yet to cross, the one they wait at first: channel IDs, and bond ports above them. -/
  path  : List Nat
  /-- Where they land in the one memory; the tile whose memory that is; the bytes. -/
  a     : Nat
  tile  : Nat
  data  : List Byte
  /-- A data message for a link, which they become at the end of their path; they land nowhere. -/
  msg   : Option LinkMsg := none
  /-- The context and the flow of planned bytes; no flow: unplanned. -/
  ctx   : Nat := 64
  flow  : Option Nat := none
  /-- The DMA engine that issued them, the index and the LA of their descriptor, and whether their command is still the engine's. -/
  eng   : Option Nat := none
  idx   : Nat := 0
  dla   : Nat := 0
  live  : Bool := true
  /-- What lands is undefined (R224, Table 7-7). -/
  mess  : Bool := false
  /-- The link and the tag of the transfer that brought them (R335). -/
  from_ : Option (Nat × Nat) := none
  /-- The queue pair, the PSN and the receive class of the packet that brought them (R360, R376). -/
  host  : Option (Nat × Nat × Nat) := none
  deriving DecidableEq, Repr

/-- A transfer arriving over a link, known by its tag (R223, R335): bytes that arrived, and those at their completion point. -/
structure PeerXfer where
  tag    : Nat
  flow   : Nat
  plan   : Nat
  total  : Nat
  pod    : Nat
  pkg    : Nat
  got    : Nat := 0
  landed : Nat := 0
  /-- Passed its destination checks; a refused one is discarded as it arrives. -/
  good   : Bool
  /-- Forwarded to this link instead (R354). -/
  fwd    : Option Nat := none
  deriving DecidableEq, Repr

/-- A transfer this package sends, until DELIVERED comes (Table 6-6): its tag, its engine, its destination and link, its context,
its descriptor, and whether the command that issued it is still its engine's. -/
structure OutXfer where
  tag    : Nat
  eng    : Nat
  pod    : Nat
  pkg    : Nat
  link   : Nat
  ctx    : Nat
  idx    : Nat
  dla    : Nat
  live   : Bool := true
  deriving DecidableEq, Repr

/-- A span operation forwarded to another link: its waiter and span ID, and the link its result goes back to (R354). -/
structure FwdOp where
  waiter : Nat
  span   : Nat
  from_  : Nat
  deriving DecidableEq, Repr

/-- One end of a link (chapter Ruino Link Layer). Counters by virtual channel are lists of four. -/
structure Lnk where
  sent    : List Nat := [0, 0, 0, 0]
  freed   : List Nat := [0, 0, 0, 0]
  /-- Receive entries freed since training, and in use. -/
  rfreed  : List Nat := [0, 0, 0, 0]
  next    : Nat := 0
  oldest  : Nat := 0
  expect  : Nat := 0
  held    : List LinkMsg := []
  queue   : List LinkMsg := []
  /-- Unsequenced messages that wait for a position 15; what is left of a replay in progress (R339). -/
  uq      : List LinkMsg := []
  replay  : List LinkMsg := []
  /-- The flow that last used a position with several owners; an IDLE's next header carries the ack (R338). -/
  lastFlow : Nat := 0
  idleAck : Bool := false
  /-- The freed counts that have gone out. -/
  told    : List Nat := [0, 0, 0, 0]
  timer   : Option Nat := none
  tries   : Nat := 0
  accSince : Nat := 0
  ackFrom : Option Nat := none
  ackDue  : Bool := false
  turn    : Nat := 0
  /-- Training: TRAIN received, the peer's last TRAIN epoch, PINGs answered, shortest round trip. -/
  gotTrain : Bool := false
  /-- The peer's TRAIN with seen = 1 has been taken. -/
  agreed   : Bool := false
  pingAt   : Nat := 0
  epochLast : Nat := 0
  pings   : Nat := 0
  rtt     : Nat := 0
  xfers   : List PeerXfer := []
  out     : List OutXfer := []
  /-- Span operations that came over other links and were sent on over this one. -/
  fwds    : List FwdOp := []
  /-- The tick of the next CHAR; a value received in this tick is yet to be compared (Table 12-11). -/
  charAt  : Nat := 0
  charDue : Bool := false
  deriving DecidableEq, Repr

/-! ### Host ports -/

/-- A CLAIM_OFFER that is still usable (R364). -/
structure Offer where
  nh    : Nat
  np    : Nat
  priv  : List Byte
  bytes : List Byte
  at_   : Nat
  deriving DecidableEq, Repr

/-- A cached reply: the request's type, and the reply (R369). -/
structure CacheEnt where
  rtype : Nat
  out   : EcpOut
  deriving DecidableEq, Repr

/-- The claim, the sequence windows, the notify address and the reply cache (R363 to R370). -/
structure ClaimSt where
  claimed   : Bool := false
  key       : List Byte := []
  offer     : Option Offer := none
  /-- Tick of the last identity signature, for an offer or a report (R438). -/
  lastSign  : Option Nat := none
  /-- Highest accepted seq, and the window of the 64 below it and itself (bit i: seq hi − i accepted). -/
  seqHi     : Nat := 0
  seqMask   : Nat := 0
  txSeq     : Nat := 0
  notifyIp  : Nat := 0
  notifyUdp : Nat := 0
  notifyHpt : Nat := 0
  filter    : Nat := 0x0FFE
  noteCount : Nat := 0
  authEvent : List (Nat × Nat) := []
  cache     : List CacheEnt := []
  /-- Messages to the sequencer queued while no sequencer holds the lease (R166), and those dropped beyond 64. -/
  queued    : List Instr := []
  dropped   : Nat := 0
  deriving DecidableEq, Repr

/-- A memory registration (Table 13-6). -/
structure Mr where
  kind   : Nat
  ctx    : Nat
  region : Nat
  access : Nat
  pa     : Nat
  len    : Nat
  tag    : Nat
  deriving DecidableEq, Repr

/-- A request of a queue pair (R373): the packet's PSN, its bytes that have not landed, whether an ACK is due and a signal follows, and, of a
READ, the packet, the errors that its reads meet, and whether it is executed for the first time. -/
structure HostOp where
  psn  : Nat
  left : Nat
  ack  : Bool := false
  sig  : Bool := false
  read : Option (RocePkt × EccHits) := none
  deriving DecidableEq, Repr

/-- A queue pair (Table 13-7, R373 to R377); the rate is in b/s. -/
structure Qp where
  ctx     : Nat
  port    : Nat
  peerQpn : Nat
  peerIp  : Nat
  psn     : Nat
  rkey    : Nat
  signal  : Nat
  err     : Bool := false
  slot    : Nat := 0
  rate    : Nat := 400000000000
  cnpAt   : Option Nat := none
  rateAt  : Nat := 0
  /-- A WRITE in progress: its rkey, the next address and the bytes left. -/
  cur     : Option (Nat × Nat × Nat) := none
  unacked : Nat := 0
  /-- Ticks at which the READ responses under way end (R377). -/
  reads   : List Nat := []
  /-- Requests accepted and not yet complete, in order. -/
  ops     : List HostOp := []
  deriving DecidableEq, Repr

/-- A frame a host port sent: its kind (0 ARP reply, 1 neighbour advertisement, 2 echo reply, 3 RoCEv2 ACK, 4 NAK, 5 READ
response, 6 PFC), the address, queue pair or priority it answers, its code or PSN, and its data. -/
structure FrameOut where
  port : Nat
  kind : Nat
  dest : Nat
  code : Nat := 0
  data : List Byte := []
  wire : Wire := {}
  deriving DecidableEq, Repr

/-- A host port: priorities paused by the peer, what waits for them, and the classes that the part itself has paused (R360). -/
structure HptSt where
  xoff    : List Nat := []
  paused  : List Nat := []
  heldEcp : List EcpOut := []
  heldRdma : List FrameOut := []
  deriving DecidableEq, Repr

/-- What the fuses hold (R33, R435), decoded: the byte layouts of the per-die tables are not given. A map holds what differs from
the default that its comment names. -/
structure Fuses where
  /-- Tiles of the variant: 2, 4 or 8. -/
  tiles    : Nat := 8
  stepping : Nat := 0xB0
  /-- The package serial, 16 bytes as a number; MAC addresses by port. -/
  serial   : Nat := 0
  macs     : SMap Nat := []
  /-- Security state: root slots fused, revoked slots, lowest image version. -/
  secFused : Nat := 0
  revoked  : Nat := 0
  /-- The fused integrity digest matches (R428 check 1); vendor root hashes by slot, a blank slot absent. -/
  intact   : Bool := true
  roots    : SMap (List Byte) := []
  /-- Die serials of the position map, by 3 * tile, plus 0 tile, 1 compute die, 2 optical engine; 0 (R34). -/
  serials  : SMap Nat := []
  /-- ΔI_p in 100 mA, by die * 16 + point; 61 (R387). -/
  swing    : SMap Nat := []
  /-- cps and fsr of a ring, by wave key; 1,090 and 13,630 (R309). -/
  rings    : SMap (Nat × Nat) := []
  /-- Bias ceiling of a laser, by wave key; 1,023 (R280). Retired wavelengths, by wave key (R281). -/
  ceilings : SMap Nat := []
  retired  : List Nat := []
  /-- Calibration values for 25, 55 and 85 °C of each item of a wave, and by band C, N, W, H; 0 (R280, R323). -/
  sets     : SMap (List (List Int)) := []
  bands    : SMap (List (List Int)) := []
  /-- Bad lanes of a Ruino-D module direction, as a bit map, by (unit * 16 + module) * 2, plus 1 for the transmit direction; none (R269). -/
  lanes    : SMap Nat := []
  /-- Receive sample phase of a lane under a margin set, in 1/64 UI, by (((unit * 16 + module) * 4 + set) * 2,048) + lane; 0 (R273). -/
  phases   : SMap Int := []
  /-- Neighbours of a sensor with their offsets in 0.25 °C, by tile * 74 + sensor; none (R395). -/
  nears    : SMap (List (Nat × Int)) := []
  /-- Energy coefficients in 2^-32 µJ, by ((die * 16 + point) * 4 + band) * 16 + term; 0 (R401). -/
  coefs    : SMap Nat := []
  deriving DecidableEq, Repr

/-! ### The optical engines (chapters The Trelip Optical Engine; Wavelength Control, Calibration and Sparing) -/

/-- The transmit side of a lane (R289, R292, R293): the place in its codeword, the parity so far, the scrambler; the last two levels, and
the DAC codes of the last tick. -/
structure TxLine where
  n     : Nat := 0
  par   : List Nat := List.replicate 14 0
  scr   : Nat := 0
  lev   : List Nat := []
  codes : List Nat := []
  deriving DecidableEq, Repr

/-- One wavelength of one direction of a link: its ring, its calibration, its counts. Key: (link * 2 + direction) * 16 + wavelength,
direction 1 transmit, 0 receive. -/
structure Wave where
  /-- Lock state (Table 11-2) and heater code; the sweep of ACQUIRE: its start, its step, whether a resonance was found. -/
  lock    : Nat := 0
  heater  : Nat := 0
  start   : Nat := 0
  sweep   : Nat := 0
  found   : Bool := false
  /-- Windows within ±2 codes; windows at the 8-code limit; tick of entry to CHECK, and of the loss of lock. -/
  calm    : Nat := 0
  limit   : Nat := 0
  since   : Nat := 0
  lostAt  : Option Nat := none
  /-- Calibration sets (none: those fused), accepted since engine reset, T of the last accepted run in quarter degrees. -/
  sets    : Option (List (List Int)) := none
  calOk   : Bool := false
  calT    : Option Int := none
  /-- Outputs in force (held while a run is in progress). -/
  outs    : List Int := []
  dueAt   : Option Nat := none
  runAt   : Option Nat := none
  rejects : Nat := 0
  retryAt : Option Nat := none
  reports : List (List Int) := []
  /-- Retired, or failed in a test, until the next bring-up; laser at bias 0. -/
  retired : Bool := false
  failed  : Bool := false
  /-- Markers, corrected symbols, uncorrectable periods and least margin of the test in progress. -/
  tN      : Nat := 0
  tFixed  : Nat := 0
  tBad    : Nat := 0
  tMargin : Nat := 63
  /-- Corrected symbols in the window of 1,024 periods, windows above the threshold, consecutive bad periods. -/
  wFixed  : Nat := 0
  wOver   : Nat := 0
  badRun  : Nat := 0
  /-- Hourly means of the bias, the latest first; the sum of its code over the ticks of this hour up to a tick. -/
  means   : List Nat := []
  fading  : Bool := false
  biasSum : Nat := 0
  biasAt  : Nat := 0
  /-- The transmit side of the lane. -/
  tx      : TxLine := {}
  /-- The receive side: the count of the last boundary, the symbols of a codeword not yet whole (R292), the periods in the FEC window
  (R327); the sum and number of the level means since the mode was entered, and the thresholds in 1/512 of their unit (R290). -/
  mc      : Nat := 0
  part    : List Nat := []
  wN      : Nat := 0
  hist    : List Nat := []
  histN   : Nat := 0
  thr     : List Int := []
  /-- Ticks from which the next integration window and identity check may end (Table 11-1, Table 11-2). -/
  winAt   : Nat := 0
  identAt : Nat := 0
  /-- Ticks of the run in which lock-in took its slots (R311). -/
  lost    : Nat := 0
  deriving DecidableEq, Repr

/-- A map change of a direction (R325 to R330): action, lane, old and new wavelength, epoch, boundary, reason (1 fade, 2 calibration, 3 other),
the next of its boundaries. -/
structure SpareAct where
  action : Nat
  lane   : Nat
  old    : Nat
  new    : Nat
  epoch  : Nat
  m      : Nat
  reason : Nat
  stage  : Nat := 0
  /-- SPARE_DONE has come with the role word of the own map. -/
  told   : Bool := false
  deriving DecidableEq, Repr

/-- A link in its optical engine. -/
structure OptSt where
  /-- Tick at which the safety state was entered; the lit check is armed; tick of entry to LOCK, and to WAIT. -/
  at_     : Nat := 0
  armed   : Bool := false
  lockAt  : Nat := 0
  waitAt  : Nat := 0
  /-- Held OFF by the laser-zone limit (Table 14-5). -/
  dark    : Bool := false
  /-- Receiver: its mode, the tick its test began, modes passed (1 to 3), wavelengths good at the last test. -/
  rxMode  : Nat := 0
  testAt  : Nat := 0
  passed  : Nat := 0
  good    : Nat := 0
  /-- The peer's markers: mode, ready, rx_good; consecutive periods with ready at the own mode; tick of the own first go. -/
  pMode   : Nat := 0
  pReady  : Bool := false
  pGood   : Nat := 0
  ready   : Nat := 0
  goAt    : Option Nat := none
  /-- Count of the receive direction, whether every marker of its period was as wanted, periods of agreement. -/
  mcount  : Nat := 0
  rdyOk   : Bool := false
  perOk   : Bool := false
  agree   : Nat := 0
  /-- Epoch of the last marker accepted. -/
  pEpoch  : Nat := 0
  /-- The tick at which the transmit direction's mode began and its marker count there; the tick from which it counts its flits, and the
  payload bits not yet sent, the next in bit 0 (R296). -/
  txBase  : Nat := 0
  txM0    : Nat := 0
  flitAt  : Nat := 0
  pay     : Nat := 0
  /-- In SERVICE since the engine's reset. -/
  served  : Bool := false
  /-- T of sensor i, in quarter degrees; the outputs follow it at the next marker boundary (R322). -/
  temp    : Int := 220
  tempDue : Bool := false
  rxAct   : Option SpareAct := none
  txAct   : Option SpareAct := none
  /-- Replacements that wait for a spare in the receive direction, and those this end asked its peer for: wavelength and reason. -/
  want    : List (Nat × Nat) := []
  asked   : List (Nat × Nat) := []
  deriving DecidableEq, Repr

/-! ### The Ruino-D modules (chapter Ruino-D Die-to-Die Adapter) -/

/-- The lane map of a direction (R268): the physical lane of each logical lane, the bad lanes as a bit map, the epoch. -/
structure LaneMap where
  table : List Nat := []
  bad   : Nat := 0
  epoch : Nat := 0
  deriving DecidableEq, Repr

/-- A runtime repair (Table 9-7) of logical lane `x` onto physical lane `y` under `epoch`, from marker boundary `m` of its side;
`told`: accepted (receive), acknowledged (transmit). -/
structure LaneFix where
  x     : Nat
  y     : Nat
  epoch : Nat
  m     : Nat
  told  : Bool := false
  /-- REPAIR has been sent for this spare. -/
  sent  : Bool := true
  deriving DecidableEq, Repr

/-- What a side advertises at AGREE (R265, R272): its rate, the bad lanes of its receive and transmit directions as bit maps, and
the epochs it last held. -/
structure D2dAdv where
  rate    : Nat
  rxBad   : Nat
  txBad   : Nat
  rxEpoch : Nat
  txEpoch : Nat
  deriving DecidableEq, Repr

/-- Adapter messages that a side sends to the other (R34, R257, R270, R271, R272). -/
inductive D2dMsg
  | trainingRequest
  | agree (a : D2dAdv)
  | digests (rx tx : Nat)
  | repair (x y epoch : Nat)
  | ack (epoch digest : Nat)
  | degrade (epoch : Nat)
  /-- The keeper's assignment of a tile ID with C, and C alone (R34 step 2). -/
  | assign (id cols : Nat)
  | columns (cols : Nat)
  | advertise (id cols : Nat)
  deriving DecidableEq, Repr

/-- A message as sent: its module, the sideband lane it leaves on (`none`: in-band, on a narrow module), and its copies: a narrow
module sends each message on all of its lanes in CLOCK and TEST (R257). -/
structure D2dOut where
  mod    : Nat
  lane   : Option Nat
  copies : Nat
  msg    : D2dMsg
  deriving DecidableEq, Repr

/-- One side of a module; its state, rate and epochs are D2D registers. Key: unit * 16 + module. -/
structure D2dSt where
  rx      : LaneMap := {}
  tx      : LaneMap := {}
  /-- The maps held at the previous rate (R265). -/
  rxPrev  : LaneMap := {}
  txPrev  : LaneMap := {}
  /-- Training: the rate tried, the rate agreed, the own advertised rate; the stage failed once; a digest differed once; stop in HOLD. -/
  trial   : Nat := 0
  goal    : Nat := 0
  own     : Nat := 0
  again   : Bool := false
  differed : Bool := false
  cold    : Bool := false
  /-- Sideband lanes that carry message lanes 0 to 3 (R257). -/
  side    : List Nat := [0, 1, 2, 3]
  /-- Marker periods of the TEST in progress, the receive lanes that failed in it, and the drivers that failed the last loopback. -/
  periods : Nat := 0
  rxFound : Nat := 0
  txFound : Nat := 0
  /-- What the other side advertised in this AGREE. -/
  heard   : Option D2dAdv := none
  /-- DOWN for want of forwarded clocks; the clock groups that are absent. -/
  noClock : Bool := false
  noClk   : List Nat := []
  /-- Margins of the receive lanes over the last period, consecutive periods below margin_min, and the lanes errored in the last period. -/
  margins : SMap Nat := []
  low     : SMap Nat := []
  errs    : List Nat := []
  /-- Receive lanes that qualified for repair; the repair in progress; the tick from which the next may start. -/
  want    : List Nat := []
  rxFix   : Option LaneFix := none
  txFix   : Option LaneFix := none
  nextAt  : Nat := 0
  /-- The epoch before the last switch of the receive direction, and the tick of the last marker that may still carry it. -/
  rxWas   : Option (Nat × Nat) := none
  /-- A degrade in progress: its epoch and the boundary of its switch. -/
  rxDeg   : Option (Nat × Nat) := none
  txDeg   : Option (Nat × Nat) := none
  /-- Sample phases, by physical lane in 1/64 UI, of lanes on their way to another margin set; a lane not listed has the phase of the
  set in use. The transmit drive set (R273). -/
  phases  : SMap Int := []
  drive   : Nat := 0
  /-- Tick of entry to DOWN. -/
  downAt  : Nat := 0
  deriving DecidableEq, Repr

/-! ### Power, droop and temperature (chapter Power, Droop and Thermal Management) -/

/-- A compute die's step and holds (R385, R391, R393, R396). -/
structure DiePwr where
  /-- The step in progress: the point it leaves, whether it rises, the tick of its switch (or switch back), whether it was reversed. -/
  stepping : Bool := false
  from_   : Nat := 0
  rise    : Bool := false
  switchAt : Option Nat := none
  reversed : Bool := false
  /-- The point whose voltage the compute rail has. -/
  rail    : Nat := 0
  /-- Point that a mode write asks for; throttle (true) and release steps that wait. -/
  goal    : Option Nat := none
  due     : List Bool := []
  /-- Ticks: end of the hold of R393, end of the thermal hold, last millisecond that counted as paced. -/
  holdTo  : Option Nat := none
  hotTo   : Nat := 0
  pacedMs : Option Nat := none
  deriving DecidableEq, Repr

/-- The sensors of a tile position; readings in 0.25 °C. -/
structure Sensors where
  /-- The latest readings as read, and the last 100 readings in use, the latest first. -/
  raw     : List Int := []
  hist    : List (List Int) := []
  /-- Faulty sensors, as a bit map; reads in a row that deviate, that are at 90 °C (laser zone), at 115 °C. -/
  faulty  : Nat := 0
  apart   : SMap Nat := []
  hot     : SMap Nat := []
  trip    : SMap Nat := []
  /-- Rates in 0.01 °C/ms; computations in a row at 4 °C/ms. -/
  rate    : SMap Int := []
  alarm   : SMap Nat := []
  /-- Sensors that hold the die by the 8 °C/ms limit: computations in a row with the rate below 4 °C/ms. -/
  fast    : SMap Nat := []
  /-- Ticks of the last throttle step by the compute die, laser-zone and HBM limits. -/
  dieAt   : Option Nat := none
  laserAt : Option Nat := none
  hbmAt   : Option Nat := none
  deriving DecidableEq, Repr

/-- A shutdown record (Table 14-7). -/
structure ShutRec where
  cause  : Nat
  unit   : Nat
  sensor : Nat
  tick   : Nat
  mv     : Nat
  p100   : Nat
  seq    : Nat
  also   : Nat := 0
  temps  : List (List Int)
  events : List EvRec
  deriving DecidableEq, Repr

/-- What the part is doing as a whole: running, or shut down until a cold reset (R397, R398, R458). -/
inductive Down | up | thermal | supply | safeStop
  deriving DecidableEq, Repr

/-- What a source of Table 14-9 does to a die: a throttle step, a release step, or half of n_act. -/
inductive CutKind | throttle | release | halve
  deriving DecidableEq, Repr

/-- A step or a cut of a tick, under the unit and the code of its event (Table 14-9). -/
structure Cut where
  unit : Nat
  code : Nat
  die  : Nat
  kind : CutKind
  deriving DecidableEq, Repr

/-- The keeper's power control. -/
structure PowerSt where
  /-- Power samples in W, the latest first. -/
  samples : List Nat := []
  mv      : Nat := 0
  /-- Samples in a row with p_100 over the package limit; the latest sample is at the electrical peak; tick of the last action. -/
  ovr    : Nat := 0
  peak    : Bool := false
  guardAt : Option Nat := none
  /-- The window in force, in 0.1 s; 0 until the first control tick (R382). -/
  window  : Nat := 0
  /-- What the sources of this tick do to dies; the mode, point and boost_en that a write of this tick asks for. -/
  cuts    : List Cut := []
  modeReq : Option (Nat × Nat × Nat) := none
  down    : Down := .up
  downAt  : Nat := 0
  deriving DecidableEq, Repr

/-- The energy model (R401): attributed energy by context, 64 the package account, in 2^-48 µJ; the model's energy of this second in
2^-32 µJ; the factor in force, 16 fraction bits. -/
structure EnergySt where
  acct  : SMap Nat := []
  model : Nat := 0
  f     : Nat := 65536
  deriving DecidableEq, Repr

/-- Boot (chapter Boot, Light List and Security) and the pins that show it. -/
structure BootSt where
  /-- The internal power-on reset is released; pkg_rst_n is high; the input is at 36 V or more. -/
  awake   : Bool := true
  high    : Bool := false
  /-- Tick from which a stage's time counts, and the tick of its entry. -/
  start   : Nat := 0
  entered : Nat := 0
  warm    : Bool := false
  /-- What the keeper read from the flash, the digest D of the last cold reset, and the image's fuse orders (R429). -/
  flash   : Flash := ⟨false, 0, []⟩
  lastD   : List Byte := []
  secTo   : Nat := 0
  revoke  : Nat := 0
  /-- Discovery (R34): the tick of the first assignment, the narrow modules over which C has gone out, the tile IDs taken by position, and
  what has reported or been found absent. -/
  assignAt : Option Nat := none
  toldC   : List Nat := []
  ids     : SMap Nat := []
  /-- The IDs that compute dies and optical engines learnt from their tiles, by unit (R33). -/
  unitIds : SMap Nat := []
  heard   : List Nat := []
  /-- Edge sets reported in this discovery, by tile. -/
  edges   : SMap Nat := []
  /-- Tiles lost since the last discovery (R433). -/
  lostAny : Bool := false
  /-- All tiles are held in reset after a failed discovery (R35). -/
  stuck   : Bool := false
  /-- pkg_ready, pkg_fault_n low, cfg_busy; data bytes of the in-band interrupts raised. -/
  ready   : Bool := false
  fault   : Bool := false
  busy    : Bool := false
  ibi     : List Nat := []
  deriving DecidableEq, Repr

/-! ### Token serving (chapter Token Serving Service) -/

/-- A request (Table 8-6): its parameters, its prompt as far as received, and how far it has come. -/
structure SrvRequest where
  reqId  : Nat
  mode   : Nat
  stops  : List Nat
  seed   : Nat
  temp   : Nat
  topP   : Nat
  topK   : Nat
  chunk  : Nat
  maxNew : Nat
  len    : Nat
  prompt : List Nat
  /-- Tick of the last fragment while in assembly. -/
  at_    : Nat := 0
  /-- Prompt tokens fed through the prefill lane or by feeding; the slot's input of this step yields a token. -/
  fed    : Nat := 0
  run    : Bool := false
  gen    : List Nat := []
  sent   : Nat := 0
  /-- Tick of the oldest unsent token. -/
  unsent : Option Nat := none
  acked  : Nat := 0
  cancel : Bool := false
  steps  : Nat := 0
  /-- Energy share, in 2^-48 µJ. -/
  energy : Nat := 0
  /-- Reason and tick of the end. -/
  ovr   : Option (Nat × Nat) := none
  deriving DecidableEq, Repr

/-- An instance, or what one left behind (R235, R248). -/
structure Serv where
  isOpen : Bool := false
  ctx    : Nat := 0
  block  : Nat := 0
  b      : Nat := 1
  c      : Nat := 1
  q      : Nat := 0
  vocab  : Nat := 1
  cand   : Nat := 0
  tok    : Nat := 0
  window : Nat := 0
  inOff  : Nat := 0
  preOff : Nat := 0
  candOff : Nat := 0
  /-- max_ctx and tier of each slot. -/
  slots  : List (Nat × Nat) := []
  queue  : List SrvRequest := []
  asm    : List SrvRequest := []
  active : SMap SrvRequest := []
  /-- Slots whose prompts still go through the prefill lane, in order of assignment. -/
  lane   : List Nat := []
  done   : List SrvRequest := []
  closing : Bool := false
  /-- The service's WAIT_TAKE on cand_ready is outstanding; the tick of the settle that released it (R238, R240). -/
  waiting : Bool := false
  released : Option Nat := none
  /-- Energy of the context at the last window, and of free slots since opening, in 2^-48 µJ. -/
  lastE  : Nat := 0
  idle   : Nat := 0
  deriving DecidableEq, Repr

/-- A host-port record (Table 16-3, 0x0106). -/
structure PortCfg where
  phy      : Nat := 0
  tagged   : Nat := 0
  pfcRoce  : Nat := 3
  pfcEcp   : Nat := 6
  dscpRoce : Nat := 26
  dscpEcp  : Nat := 48
  vid      : Nat := 0
  ecpPort  : Nat := 49560
  ip4      : Nat := 0
  len4     : Nat := 0
  len6     : Nat := 0
  ip6      : Nat := 0
  gw4      : Nat := 0
  gw6      : Nat := 0
  presets  : Nat := 0
  deriving DecidableEq, Repr

/-- The light list verified at the last cold or warm reset, decoded (chapter Boot, Light List and Security). -/
structure Light where
  primary  : Nat := 0
  standby  : Nat := 0
  pod      : Nat := 0
  pkg      : Nat := 0
  degraded : Bool := false
  /-- Links with a peer: link, pod, package; the others are dark. -/
  peers    : List LinkE := []
  /-- Links with extended reach; the point of PWR_MODE; cache size and D2D max_rate by tile; host-port records by port. -/
  ext      : List Nat := []
  point    : Nat := 0
  tiles    : List (Nat × Nat) := []
  ports    : SMap PortCfg := []
  mode     : Nat := 0
  boost    : Nat := 0
  cap      : Nat := 0
  window   : Nat := 0
  deriving DecidableEq, Repr

/-! ### The metering island and the mirror (chapter Energy Metering Island) -/

/-- What the island sends to the keeper (R409). -/
inductive MetSent
  | status (m : MetFrame)
  | record (no : Nat) (bytes : List Byte)
  deriving DecidableEq, Repr

/-- The island. Energies in mJ. -/
structure MetSt where
  running   : Bool := false
  sealed    : Bool := false
  total     : Nat := 0
  exported  : Nat := 0
  /-- Imported energy since the last record, since the last pulse, and in the last second. -/
  interval  : Nat := 0
  unpulsed  : Nat := 0
  lastE     : Nat := 0
  mv        : Nat := 0
  ma        : Nat := 0
  recordNo  : Nat := 0
  powerUps  : Nat := 0
  seconds   : Nat := 0
  refusals  : Nat := 0
  leaves    : Nat := 0
  /-- The last self-check failed; in this interval: a fault, input below 40 V, a refused command. -/
  fault     : Bool := false
  iFault    : Bool := false
  iLow      : Bool := false
  iRefused  : Bool := false
  /-- Seconds at the last interval record; an interval record that the power cycle owes (Table 15-9). -/
  closedAt  : Nat := 0
  owed      : Bool := false
  records   : SMap (List Byte) := []
  /-- Pulses of met_pulse; the tick at which the last one falls; pulses of a PULSE_TEST to come, and the tick of the next (R407, R416). -/
  pulses    : Nat := 0
  fallAt    : Nat := 0
  testLeft  : Nat := 0
  testAt    : Nat := 0
  /-- Frames to the keeper, and reply frames of the metering port (R409, R416). -/
  sent      : List MetSent := []
  replies   : List (List Byte) := []
  deriving DecidableEq, Repr

/-- The keeper's mirror: tick of the last valid status frame, and the record window by slot; its registers are unit 0xF0's. -/
structure MirrorSt where
  at_     : Nat := 0
  records : SMap (List Byte) := []
  deriving DecidableEq, Repr

/-! ### The management pins (R470 to R472) -/

/-- What a management port returned: a status read, GETSTATUS, the identification register, what a Capture-DR under MGMT gave. -/
inductive PinOut
  | status (code value : Nat)
  | getstatus (value : Nat)
  | idcode (value : Nat)
  | capture (code value : Nat)
  deriving DecidableEq, Repr

/-- The I3C target and the TAP. Statuses are those of Table 18-5. -/
structure MgmtSt where
  /-- i3c_addr[1:0], and the dynamic address. -/
  strap   : Nat := 0
  dyn     : Option Nat := none
  /-- Status and value that a status read returns, and those that the next Capture-DR returns. -/
  i3c     : Nat × Nat := (7, 0)
  jtag    : Nat × Nat := (7, 0)
  /-- The TAP's instruction and the boundary register. -/
  ir      : Nat := 2
  bound   : Nat := 0
  /-- What the two ports returned. -/
  out     : List PinOut := []
  deriving DecidableEq, Repr


/-- The state of the part (each field's spec is its record's; `freeCtr` is the model's own: the counter of free
values). -/
structure State where
  /-- The commands that wait, first in, first out. -/
  pending : List Instr := []
  /-- Commands of this tick that others of the tick come before (R29, R445), in their order. -/
  later   : List Instr := []
  /-- The package tick counter (R28). -/
  tick    : Nat := 0
  /-- Counter of free values: the model's own. -/
  freeCtr : Nat := 0
  regs    : SMap Nat := []
  /-- What hardware put into W1C and RC fields in this tick (R9), by place: what the field held before the tick, and what was added in
  it, counted from 0. -/
  fresh   : SMap (Nat × Nat) := []
  /-- The completions of REGISTER_WRITE and MIRROR_WRITE (R6, R10), the model's own trace: the address, and whether the access
  completed without error. -/
  answers : List (Nat × Bool) := []
  mem     : Mem := {}
  ev      : EvState := {}
  /-- Tick (plus 1) in which a unit or object was last shut down, lost, reset, fenced or ended (R445). -/
  downAt  : SMap Nat := []
  cores   : SMap CoreSt := []
  engs    : SMap Eng := []
  hubs    : SMap Hub := []
  ctxs    : SMap Ctx := []
  admits  : List Admit := []
  seqs    : SMap SeqSt := []
  lease   : LeaseSt := {}
  tlbHeld : List TlbReq := []
  tlbCur  : Option TlbReq := none
  hbm     : SMap HbmSt := []
  /-- The base-store caches, by tile * 2^18 + set; sizes written in this tick, by tile, until they are decided (R207). -/
  caches  : SMap CacheSet := []
  cacheReq : SMap Nat := []
  fuses   : Fuses := {}
  light   : Light := {}
  linkTx  : List LinkMsg := []
  /-- Bytes under way in the on-package network. -/
  net     : List Run := []
  links   : SMap Lnk := []
  claim   : ClaimSt := {}
  mrs     : SMap Mr := []
  qps     : SMap Qp := []
  frames  : List FrameOut := []
  ports   : SMap HptSt := []
  opts    : SMap OptSt := []
  waves   : SMap Wave := []
  d2d     : SMap D2dSt := []
  pwr     : PowerSt := {}
  dies    : SMap DiePwr := []
  sensors : SMap Sensors := []
  energy  : EnergySt := {}
  serving : SMap Serv := []
  boot    : BootSt := {}
  /-- Dies and engines held in reset for their self-test (R455). -/
  testing : List Nat := []
  /-- Health polls missed in a row, by tile (R456). -/
  missed  : SMap Nat := []
  /-- Shutdown records, by slot, and how many were written since manufacture. -/
  shuts   : SMap ShutRec := []
  shutNo  : Nat := 0
  /-- Adapter messages sent. -/
  d2dSent : List D2dOut := []
  /-- Plans (by plan_id) and the links over which a member reported ADMITTED (R148). -/
  planReady : List (Nat × Nat) := []
  /-- Aborts due while no sequencer holds the lease: context and reason (R152, R171). -/
  lateAborts : List (Nat × Nat) := []
  /-- Stops that members of a plan asked for while no sequencer held the lease: context, and whether forced. -/
  lateStops : List (Nat × Bool) := []
  met     : MetSt := {}
  mirror  : MirrorSt := {}
  mgmt    : MgmtSt := {}
  ecpOut  : List EcpOut := []
  deriving DecidableEq, Repr

/-- No command of the block ends in a fault: every happening the spec describes is an effect on the state (R6: an
error completion changes no state). -/
inductive Fault
  deriving DecidableEq, Repr

/-- The refusals. -/
inductive Refusal
  /-- A command without a meaning yet, by its mnemonic; raised by its arm of `exec`. Safe. -/
  | notModelled (mnemonic : String)
  deriving DecidableEq, Repr

/-- The part right after its internal power-on reset, before pkg_rst_n is released. -/
def State.reset : State := {}

end Sys2Proof.Machine
end

