-- ==== Sys2Proof/Machine/Maps.lean ====
section
/-!
DEFINITION. Maps by number, kept in strictly rising order of the key, and the byte memory over its own canonical form.
-/

namespace Sys2Proof.Machine

/-- The value at `k`, if listed. -/
def mfind {α : Type} : SMap α → Nat → Option α
  | [], _ => none
  | (k', v) :: m, k => if k' = k then some v else mfind m k

/-- The value at `k`, or `d`. -/
def mget {α : Type} (m : SMap α) (k : Nat) (d : α) : α := (mfind m k).getD d

/-- `m` with `v` at `k`, in place. -/
def mput {α : Type} : SMap α → Nat → α → SMap α
  | [], k, v => [(k, v)]
  | (k', v') :: m, k, v =>
    if k' = k then (k, v) :: m
    else if k < k' then (k, v) :: (k', v') :: m
    else (k', v') :: mput m k v

/-- `m` without `k`. -/
def mdel {α : Type} (m : SMap α) (k : Nat) : SMap α := m.filter (fun p => !(p.1 == k))

/-- The listed cell at `a`. -/
def cellFind : List Host.Cell → Nat → Option Byte
  | [], _ => none
  | (a', v) :: cs, a => if a' = a then some v else cellFind cs a

/-- Cells with `v` at `a`, in place. -/
def cellPut : List Host.Cell → Nat → Byte → List Host.Cell
  | [], a, v => [(a, v)]
  | (a', v') :: cs, a, v =>
    if a' = a then (a, v) :: cs
    else if a < a' then (a, v) :: (a', v') :: cs
    else (a', v') :: cellPut cs a v

/-- Cells without `a`. -/
def cellDel : List Host.Cell → Nat → List Host.Cell
  | [], _ => []
  | (a', v') :: cs, a => if a' = a then cs else (a', v') :: cellDel cs a

/-- Does overlay `o` cover address `a`? -/
def Overlay.covers (o : Overlay) (a : Nat) : Bool := o.base ≤ a && a < o.base + o.len

/-- The overlay of `a`, the latest first. -/
def overlayOf (os : List Overlay) (a : Nat) : Option Overlay := os.find? (fun o => o.covers a)

/-- What an unlisted address reads as: 0 (DESIGN CHOICE, log 2), or the free byte of the overlay that covers it. -/
def Mem.blank (m : Mem) (a : Nat) : Byte :=
  match overlayOf m.undef a with
  | some o => Config.freeByte o.seed a
  | none => 0

/-- The byte at `a`. -/
def Mem.read (m : Mem) (a : Nat) : Byte := (cellFind m.cells a).getD (m.blank a)

/-- `m` with byte `v` at `a`; outside the overlays a 0 is not listed. -/
def Mem.write (m : Mem) (a : Nat) (v : Byte) : Mem :=
  if v = 0 ∧ overlayOf m.undef a = none then { m with cells := cellDel m.cells a }
  else { m with cells := cellPut m.cells a v }

/-- `n` bytes from `a` up. -/
def Mem.bytes (m : Mem) (a n : Nat) : List Byte := (List.range n).map (fun i => m.read (a + i))

/-- `m` with the bytes `bs` from `a` up. -/
def Mem.writes (m : Mem) (a : Nat) : List Byte → Mem
  | [] => m
  | b :: bs => (m.write a b).writes (a + 1) bs

/-- `m` with `len` bytes from `base` left undefined: listed bytes of the range are dropped, and an earlier overlay
that the range covers whole goes with them. -/
def Mem.scramble (m : Mem) (base len seed : Nat) : Mem :=
  { cells := m.cells.filter (fun c => !(base ≤ c.1 && c.1 < base + len)),
    undef := ⟨base, len, seed⟩ :: m.undef.filter (fun o => !(base ≤ o.base && o.base + o.len ≤ base + len)) }

/-- The parts of an overlay outside a range, and inside it. -/
def Overlay.outside (o : Overlay) (base len : Nat) : List Overlay :=
  let e := o.base + o.len
  (if o.base < base then [⟨o.base, min e base - o.base, o.seed⟩] else []) ++
  (if base + len < e then [⟨max o.base (base + len), e - max o.base (base + len), o.seed⟩] else [])

def Overlay.inside (o : Overlay) (base len : Nat) : List Overlay :=
  let lo := max o.base base
  let hi := min (o.base + o.len) (base + len)
  if lo < hi then [⟨lo, hi - lo, o.seed⟩] else []

/-- `m` with a range back at 0. -/
def Mem.clear (m : Mem) (base len : Nat) : Mem :=
  { cells := m.cells.filter (fun c => !(base ≤ c.1 && c.1 < base + len)),
    undef := m.undef.flatMap (fun o => o.outside base len) }

/-- What a range of `m` holds. -/
def Mem.sub (m : Mem) (base len : Nat) : Mem :=
  { cells := m.cells.filter (fun c => base ≤ c.1 && c.1 < base + len),
    undef := m.undef.flatMap (fun o => o.inside base len) }

/-- `m` with a range as `sub` holds it. -/
def Mem.graft (m : Mem) (base len : Nat) (sub : Mem) : Mem :=
  sub.cells.foldl (fun m c => m.write c.1 c.2)
    (sub.undef.reverse.foldl (fun m o => m.scramble o.base o.len o.seed) (m.clear base len))

/-- Strictly rising addresses. -/
def cellsRising : List Host.Cell → Bool
  | [] => true
  | [_] => true
  | (a, _) :: (b, v) :: cs => decide (a < b) && cellsRising ((b, v) :: cs)

/-- The canonical form: addresses strictly rising, and no 0 listed outside the overlays. -/
def Mem.wf (m : Mem) : Bool :=
  cellsRising m.cells &&
  m.cells.all (fun c => !(c.2 == 0) || (overlayOf m.undef c.1).isSome)

/-! The bases of the address spaces in the one memory: physical addresses lie below 2^48 (R204). -/

/-- Core store byte `la` of a core (R82). -/
def csAddr (die core la : Nat) : Nat := 2 ^ 50 + (die * 64 + core) * 2 ^ 22 + la

/-- Accumulator-buffer byte `off` of matrix engine `m` of a core (R85, R86). -/
def accAddr (die core m off : Nat) : Nat := 2 ^ 51 + ((die * 64 + core) * 4 + m) * 2 ^ 17 + off

end Sys2Proof.Machine
end

