-- ==== Sys2Proof/Machine/Formats.lean ====
section
/-!
DEFINITION. Number formats, rounding, FP32 arithmetic, exact accumulation and conversions (chapter Number Formats and Exact
Accumulation). Codes are `Nat`s; flags are the eight bits of CORE_ENG_FLAGS [7:0] (Table 2-9).
-/

namespace Sys2Proof.Machine

/-! ### Flags (Table 2-9) -/

def fInvalid : Nat := 1
def fDivZero : Nat := 2
def fOverflow : Nat := 4
def fUnderflow : Nat := 8
def fInexact : Nat := 16
def fWinUnder : Nat := 32
def fWinOver : Nat := 64
def fScaleClamp : Nat := 128

/-- `f` when `b`. -/
def flagIf (b : Bool) (f : Nat) : Nat := if b then f else 0

/-! ### Formats (R39, Table 2-2) -/

/-- A decoded element: NaN, infinity, or `(-1)^neg * m * 2^e` (R39 to R42). -/
inductive Num
  | nan
  | inf (neg : Bool)
  | fin (neg : Bool) (m : Nat) (e : Int)
  deriving DecidableEq, Repr

/-- A floating format: exponent and mantissa bits, bias, largest finite magnitude code, whether the codes above it are
infinity and NaN. -/
structure BinFmt where
  ebits : Nat
  mbits : Nat
  bias  : Nat
  maxCode : Nat
  hasInf : Bool
  hasNan : Bool
  deriving DecidableEq, Repr

/-- The format codes of Table 2-2 that are floating formats; KNB4 elements are FP4 (R48). -/
def binFmt (fmt : Nat) : Option BinFmt :=
  match fmt with
  | 0 => some ⟨2, 1, 1, 7, false, false⟩
  | 1 => some ⟨2, 1, 1, 7, false, false⟩
  | 2 => some ⟨3, 2, 3, 0x1F, false, false⟩
  | 3 => some ⟨2, 3, 1, 0x1F, false, false⟩
  | 4 => some ⟨4, 3, 7, 0x7E, false, true⟩
  | 5 => some ⟨5, 2, 15, 0x7B, true, true⟩
  | 7 => some ⟨8, 7, 127, 0x7F7F, true, true⟩
  | 8 => some ⟨8, 23, 127, 0x7F7FFFFF, true, true⟩
  | _ => none

def fp32 : BinFmt := ⟨8, 23, 127, 0x7F7FFFFF, true, true⟩
def bf16 : BinFmt := ⟨8, 7, 127, 0x7F7F, true, true⟩

/-- Bits of an element (Table 2-1). -/
def elemBits (fmt : Nat) : Nat :=
  match fmt with
  | 0 => 4 | 1 => 4 | 2 => 6 | 3 => 6 | 4 => 8 | 5 => 8 | 6 => 8 | 7 => 16 | _ => 32

/-- Bytes of a block's sidecar entry (R44). -/
def sideBytes (fmt : Nat) : Nat := if fmt = 1 then 2 else 1

/-- The fields of a format byte (Table 2-2). -/
def fmtCode (b : Nat) : Nat := b % 16
def fmtBlocked (b : Nat) : Bool := bitsOf b 4 1 == 1

/-- The format byte's own rules (R46, R47). -/
def fmtOk (b : Nat) : Bool :=
  fmtCode b ≤ 8 && b / 32 == 0 &&
  (if fmtCode b = 1 then fmtBlocked b else if fmtCode b ≥ 7 then !fmtBlocked b else true)

/-- Decode of a floating code (Table 2-1): subnormals honoured (R40). -/
def decodeBin (f : BinFmt) (c : Nat) : Num :=
  let neg := bitsOf c (f.ebits + f.mbits) 1 == 1
  let mag := c % 2 ^ (f.ebits + f.mbits)
  let man := mag % 2 ^ f.mbits
  let ex := mag / 2 ^ f.mbits
  if mag > f.maxCode then
    if f.hasInf && mag == f.maxCode + 1 then .inf neg else .nan
  else if ex = 0 then .fin neg man (1 - (f.bias : Int) - f.mbits)
  else .fin neg (man + 2 ^ f.mbits) ((ex : Int) - f.bias - f.mbits)

/-- Two's-complement value of the low `w` bits. -/
def sext (w v : Nat) : Int :=
  let u := v % 2 ^ w
  if u < 2 ^ (w - 1) then (u : Int) else (u : Int) - (2 ^ w : Nat)

/-- The low `w` bits of an integer's two's complement. -/
def twos (w : Nat) (v : Int) : Nat := (v % ((2 ^ w : Nat) : Int)).toNat

/-- An integer times a power of two. -/
def numOfInt (v : Int) (e : Int) : Num := .fin (v < 0) v.natAbs e

/-- Decode of an element (R39, R42): INT8 blocked has six fraction bits. -/
def decodeElem (fmt : Nat) (blocked : Bool) (c : Nat) : Num :=
  match binFmt fmt with
  | some f => decodeBin f c
  | none => numOfInt (sext 8 c) (if blocked then -6 else 0)

/-- The canonical NaN of a format (R42). -/
def canonNan (fmt : Nat) : Nat :=
  match fmt with
  | 4 => 0x7F
  | 5 => 0x7E
  | 7 => 0x7FC0
  | _ => 0x7FC00000

/-! ### Rounding -/

/-- A rounding mode: to nearest even, or stochastic with a draw (R75). -/
inductive Rnd
  | rne
  | sr (draw : Nat)
  deriving DecidableEq, Repr

/-- `m * 2^-s` rounded to an integer: the integer, and whether a nonzero part was discarded. -/
def roundShift (r : Rnd) (m s : Nat) : Nat × Bool :=
  let q := m / 2 ^ s
  let rem := m % 2 ^ s
  if rem = 0 then (q, false)
  else
    match r with
    | .rne => (if 2 * rem > 2 ^ s then q + 1 else if 2 * rem = 2 ^ s then q + q % 2 else q, true)
    | .sr draw => (if draw < rem * 2 ^ 32 / 2 ^ s then q + 1 else q, true)

/-- `m * 2^e` rounded to a multiple of `2^q`: the multiple, and whether it is inexact. -/
def roundAt (r : Rnd) (m : Nat) (e q : Int) : Nat × Bool :=
  if e ≥ q then (m * 2 ^ (e - q).toNat, false) else roundShift r m (q - e).toNat

/-- A magnitude rounded on a format's grid, extended past its largest finite: the code, inexactness, and tininess
(before rounding; a value that rounds up to the smallest normal is tiny as `Config.tinyAfterRounding` says). -/
def roundMag (f : BinFmt) (r : Rnd) (m : Nat) (e : Int) : Nat × Bool × Bool :=
  if m = 0 then (0, false, false)
  else
    let emin : Int := 1 - (f.bias : Int)
    let top : Int := (Nat.log2 m : Int) + e
    let ex := max top emin
    let q := ex - f.mbits
    let (n, inx) := roundAt r m e q
    let code := (ex - emin).toNat * 2 ^ f.mbits + n
    let tiny := decide (top < emin) &&
      (if inx && (roundAt r m e (top - f.mbits)).1 == 2 ^ (f.mbits + 1) && top == emin - 1
       then !Config.tinyAfterRounding else true)
    (code, inx, tiny)

/-- A code with its sign bit. -/
def signed (f : BinFmt) (neg : Bool) (mag : Nat) : Nat := mag + flagIf neg (2 ^ (f.ebits + f.mbits))

/-- The infinity of a format that has one, else its largest finite. -/
def infCode (f : BinFmt) (neg : Bool) : Nat := signed f neg (if f.hasInf then f.maxCode + 1 else f.maxCode)

/-- IEEE 754 rounding of an exact FP32 result to nearest even, overflow to infinity (R69). -/
def round32 (neg : Bool) (m : Nat) (e : Int) : Nat × Nat :=
  let (c, inx, tiny) := roundMag fp32 .rne m e
  if c > fp32.maxCode then (infCode fp32 neg, fOverflow ||| fInexact)
  else (signed fp32 neg c, flagIf inx fInexact ||| flagIf (inx && tiny) fUnderflow)

def nan32 : Nat := 0x7FC00000

/-! ### FP32 arithmetic (R69) -/

/-- Sum of two finite numbers, exactly: a numerator at a common exponent. -/
def sumExact (n1 : Bool) (m1 : Nat) (e1 : Int) (n2 : Bool) (m2 : Nat) (e2 : Int) : Int × Int :=
  let e := min e1 e2
  let v1 : Int := m1 * 2 ^ (e1 - e).toNat
  let v2 : Int := m2 * 2 ^ (e2 - e).toNat
  ((if n1 then -v1 else v1) + (if n2 then -v2 else v2), e)

/-- A rounded sum; an exact zero takes the sign both operands have, else + (R41). -/
def roundSum (n1 n2 : Bool) (v : Int × Int) : Nat × Nat :=
  if v.1 = 0 then (signed fp32 (n1 && n2) 0, 0) else round32 (v.1 < 0) v.1.natAbs v.2

def addNum (a b : Num) : Nat × Nat :=
  match a, b with
  | .nan, _ => (nan32, 0)
  | _, .nan => (nan32, 0)
  | .inf s, .inf t => if s == t then (infCode fp32 s, 0) else (nan32, fInvalid)
  | .inf s, _ => (infCode fp32 s, 0)
  | _, .inf t => (infCode fp32 t, 0)
  | .fin s m e, .fin t n k => roundSum s t (sumExact s m e t n k)

def negNum : Num → Num
  | .nan => .nan
  | .inf s => .inf (!s)
  | .fin s m e => .fin (!s) m e

/-- The exact product; infinity times zero is NaN. -/
def mulExact (a b : Num) : Num :=
  match a, b with
  | .nan, _ => .nan
  | _, .nan => .nan
  | .inf s, .inf t => .inf (s != t)
  | .inf s, .fin t m _ => if m = 0 then .nan else .inf (s != t)
  | .fin s m _, .inf t => if m = 0 then .nan else .inf (s != t)
  | .fin s m e, .fin t n k => .fin (s != t) (m * n) (e + k)

def isNan : Num → Bool
  | .nan => true
  | _ => false

/-- A number written as FP32, rounded to nearest even. -/
def num32 : Num → Nat × Nat
  | .nan => (nan32, 0)
  | .inf s => (infCode fp32 s, 0)
  | .fin s m e => if m = 0 then (signed fp32 s 0, 0) else round32 s m e

def mulNum (a b : Num) : Nat × Nat :=
  let p := mulExact a b
  let r := num32 p
  (r.1, r.2 ||| flagIf (isNan p && !isNan a && !isNan b) fInvalid)

/-- FMA with one rounding; zero times infinity is invalid whatever the addend (R69). -/
def fmaNum (a b c : Num) : Nat × Nat :=
  let p := mulExact a b
  if isNan p && !isNan a && !isNan b then (nan32, fInvalid) else addNum p c

/-- Division. Only a finite nonzero dividend over zero sets div_zero: 0/0 is invalid and infinity/0 exact in IEEE 754 (R69; DEDUCED, log
106). -/
def divNum (a b : Num) : Nat × Nat :=
  match a, b with
  | .nan, _ => (nan32, 0)
  | _, .nan => (nan32, 0)
  | .inf _, .inf _ => (nan32, fInvalid)
  | .inf s, .fin t _ _ => (infCode fp32 (s != t), 0)
  | .fin s _ _, .inf t => (signed fp32 (s != t) 0, 0)
  | .fin s m e, .fin t n k =>
    if n = 0 then (if m = 0 then (nan32, fInvalid) else (infCode fp32 (s != t), fDivZero))
    else if m = 0 then (signed fp32 (s != t) 0, 0)
    else
      let q := m * 2 ^ 400 / n
      round32 (s != t) (2 * q + flagIf (m * 2 ^ 400 % n != 0) 1) (e - k - 401)

/-- Integer square root by bisection, from above, with `n` halvings. -/
def isqrtGo (v : Nat) : Nat → Nat → Nat
  | 0, r => r
  | b + 1, r => isqrtGo v b (if (r + 2 ^ b) * (r + 2 ^ b) ≤ v then r + 2 ^ b else r)

/-- Square root of a positive `m * 2^e` with a sticky low bit: value and exponent. -/
def sqrtExact (m : Nat) (e : Int) : Nat × Int :=
  let m' := if e % 2 = 0 then m else 2 * m
  let e' := if e % 2 = 0 then e else e - 1
  let v := m' * 2 ^ 80
  let r := isqrtGo v 70 0
  (2 * r + flagIf (r * r != v) 1, e' / 2 - 41)

def sqrtNum (a : Num) : Nat × Nat :=
  match a with
  | .nan => (nan32, 0)
  | .inf s => if s then (nan32, fInvalid) else (infCode fp32 false, 0)
  | .fin s m e =>
    if m = 0 then (signed fp32 s 0, 0)
    else if s then (nan32, fInvalid)
    else round32 false (sqrtExact m e).1 (sqrtExact m e).2

/-- How many codes below `base` lie within `w` of its units; below a power of two the codes are half as far apart. -/
def ulpLow (w base : Nat) (ex : Int) : Nat :=
  if ex > -126 ∧ base < 2 ^ 23 + w then (base - 2 ^ 23) + 2 * (w - (base - 2 ^ 23)) else w

/-- How many codes above `base` lie within `w` of its units; from a power of two on they are twice as far apart. -/
def ulpHigh (w base : Nat) : Nat :=
  if base + w > 2 ^ 24 then (2 ^ 24 - base) + (w - (2 ^ 24 - base)) / 2 else w

/-- An FP32 value within `w` ulp of `m * 2^e` (Table 3-9): which one is open, and the same for equal operands (R104). -/
def within (op w bits : Nat) (neg : Bool) (m : Nat) (e : Int) : Nat × Nat :=
  let top : Int := (Nat.log2 m : Int) + e
  let ex := max top (-126)
  let q := ex - 23
  let exact := roundAt .rne m e q
  let base := if e ≥ q then exact.1 else m / 2 ^ (q - e).toNat
  let low := ulpLow (if exact.2 then w - 1 else w) base ex
  let d := Config.ulpPick op bits % (low + ulpHigh w base + 1)
  let c : Int := (((ex + 126).toNat * 2 ^ 23 + base + d : Nat) : Int) - (low : Int)
  let inx := exact.2 || d != low
  if c.natAbs > fp32.maxCode then (infCode fp32 neg, fOverflow ||| fInexact)
  else (signed fp32 (neg != decide (c < 0)) c.natAbs, flagIf inx fInexact |||
    flagIf (inx && (if Config.tinyAfterRounding then decide (c.natAbs < 2 ^ 23) else decide (top < -126))) fUnderflow)

def recipNum (bits : Nat) (a : Num) : Nat × Nat :=
  match a with
  | .nan => (nan32, 0)
  | .inf s => (signed fp32 s 0, 0)
  | .fin s m e =>
    if m = 0 then (infCode fp32 s, fDivZero)
    else within 0 1 bits s (2 * (2 ^ 400 / m) + flagIf (2 ^ 400 % m != 0) 1) (-e - 401)

def rsqrtNum (bits : Nat) (a : Num) : Nat × Nat :=
  match a with
  | .nan => (nan32, 0)
  | .inf s => if s then (nan32, fInvalid) else (0, 0)
  | .fin s m e =>
    if m = 0 then (infCode fp32 s, fDivZero)
    else if s then (nan32, fInvalid)
    else
      let m' := if e % 2 = 0 then m else 2 * m
      let e' := if e % 2 = 0 then e else e - 1
      let v := 2 ^ 160 / m'
      let r := isqrtGo v 90 0
      within 1 1 bits false (2 * r + flagIf (r * r * m' != 2 ^ 160) 1) (-(e' / 2) - 81)

def one32 : Nat := 0x3F800000

/-- Signed order key of an FP32 code: IEEE totalOrder on the numbers, −0 below +0 (R106). -/
def orderKey (c : Nat) : Int := if c < 2 ^ 31 then (c : Int) else 2 ^ 31 - 1 - (c : Int)

def isNan32 (c : Nat) : Bool := c % 2 ^ 31 > 0x7F800000

/-- Elementwise maximum and minimum: a NaN operand gives NaN (Table 3-9). -/
def max32 (a b : Nat) : Nat := if isNan32 a || isNan32 b then nan32 else if orderKey a ≥ orderKey b then a else b
def min32 (a b : Nat) : Nat := if isNan32 a || isNan32 b then nan32 else if orderKey a ≤ orderKey b then a else b

def dec32 (c : Nat) : Num := decodeBin fp32 c

/-- FP32 sum with its flags accumulated. -/
def addAcc (acc : Nat × Nat) (v : Nat × Nat) : Nat × Nat :=
  let r := addNum (dec32 acc.1) (dec32 v.1)
  (r.1, acc.2 ||| v.2 ||| r.2)

/-- One level of a balanced tree: neighbours added in order; a last odd one stands. -/
def treeLevel : List (Nat × Nat) → List (Nat × Nat)
  | a :: b :: rest => addAcc a b :: treeLevel rest
  | l => l

/-- `n` levels of the tree. -/
def treeSum : Nat → List (Nat × Nat) → Nat × Nat
  | 0, l => l.headD (0, 0)
  | n + 1, l => treeSum n (treeLevel l)

/-- A list padded with +0 to `n` entries. -/
def padZero (n : Nat) (l : List (Nat × Nat)) : List (Nat × Nat) := l ++ List.replicate (n - l.length) (0, 0)

/-! ### Exact mode (R51 to R65) -/

/-- A long accumulator: the sum in units of the window's bit 0, and its sticky states (R52 to R56). -/
structure ExAcc where
  sum : Int := 0
  wuf : Bool := false
  ovp : Bool := false
  ovn : Bool := false
  nan : Bool := false
  deriving DecidableEq, Repr

/-- The weight of bit 0 and the magnitude limit in units, full and reduced window (R52, R64). -/
def winUnit (eref : Int) (red : Bool) : Int := if red then eref - 48 else eref - 96
def winLimit (red : Bool) : Nat := if red then 2 ^ 95 else 2 ^ 191

/-- One contribution (R53 to R55). -/
def contribute (unit : Int) (red : Bool) (a : ExAcc) (v : Num) : ExAcc :=
  match v with
  | .nan => { a with nan := true }
  | .inf s => if s then { a with ovn := true } else { a with ovp := true }
  | .fin s m e =>
    let mag := if e ≥ unit then m * 2 ^ (e - unit).toNat else m / 2 ^ (unit - e).toNat
    let lost := !(e ≥ unit) && m % 2 ^ (unit - e).toNat != 0
    if mag ≥ winLimit red then (if s then { a with ovn := true } else { a with ovp := true })
    else { a with sum := a.sum + (if s then -(mag : Int) else mag), wuf := a.wuf || lost }

/-- A merge of two partial accumulators: sums added, states ORed (R57). -/
def ExAcc.merge (a b : ExAcc) : ExAcc :=
  ⟨a.sum + b.sum, a.wuf || b.wuf, a.ovp || b.ovp, a.ovn || b.ovn, a.nan || b.nan⟩

/-- Long partial (Table 2-5) and carrier (Table 2-6), as numbers; `w` is 224 or 120. -/
def packAcc (w : Nat) (a : ExAcc) : Nat :=
  twos w a.sum + flagIf a.wuf (2 ^ w) + flagIf a.ovp (2 ^ (w + 1)) + flagIf a.ovn (2 ^ (w + 2)) + flagIf a.nan (2 ^ (w + 3))

def unpackAcc (w v : Nat) : ExAcc :=
  ⟨sext w v, bitsOf v w 1 == 1, bitsOf v (w + 1) 1 == 1, bitsOf v (w + 2) 1 == 1, bitsOf v (w + 3) 1 == 1⟩

/-- A value rounded to nearest even and saturated (R58): code and flags; exact mode writes +0 (R41). -/
def finishValue (f : BinFmt) (v : Int) (e : Int) : Nat × Nat :=
  let (c, inx, tiny) := roundMag f .rne v.natAbs e
  if c > f.maxCode then (signed f (v < 0) f.maxCode, fOverflow ||| fInexact)
  else (if c = 0 then 0 else signed f (v < 0) c, flagIf inx fInexact ||| flagIf (inx && tiny) fUnderflow)

/-- Finishing (Table 2-3): code, flags and the inexact mark. Table 2-3 prints the limits of the full window; under win_reduced = 1 they are
those of the reduced window, 2^(E_ref + 47) - 2^(E_ref - 48) and -2^(E_ref + 47) (DEDUCED from R64, log 106). -/
def finishAcc (f : BinFmt) (fmt : Nat) (eref : Int) (red : Bool) (a : ExAcc) : Nat × Nat × Bool :=
  let unit := winUnit eref red
  let lim : Int := (winLimit red : Nat)
  let s := sext 224 (twos 224 a.sum)
  let wuf := flagIf a.wuf (fWinUnder ||| fInexact)
  let limited (v : Int) : Nat × Nat × Bool :=
    let r := finishValue f v unit
    (r.1, (r.2 &&& fOverflow) ||| fWinOver ||| fInexact ||| wuf, true)
  if a.nan then (canonNan fmt, fInvalid ||| fInexact ||| wuf, true)
  else if a.ovp && a.ovn then (canonNan fmt, fInvalid ||| fWinOver ||| fInexact ||| wuf, true)
  else if a.ovp then limited (lim - 1)
  else if a.ovn then limited (-lim)
  else if s ≥ lim then limited (lim - 1)
  else if s < -lim then limited (-lim)
  else
    let r := finishValue f s unit
    (r.1, r.2 ||| wuf, a.wuf || (r.2 &&& fInexact != 0))

/-! ### Element arrays (R43 to R45) -/

/-- Element `i` of a packed array that starts at `a`: bits [i*w+w-1 : i*w] of the little-endian bytes (R45). -/
def elemAt (m : Mem) (a fmt i : Nat) : Nat :=
  let w := elemBits fmt
  let b := i * w
  bitsOf (unle (m.bytes (a + b / 8) ((b % 8 + w + 7) / 8))) (b % 8) w

/-- Scale of an E8M0 code: NaN, or the exponent (R39). -/
def scaleExp (c : Nat) : Option Int := if c = 0xFF then none else some ((c : Int) - 127)

/-- The micro-shift of element `i` of a block (R49), 0 but for KNB4. -/
def microShift (fmt shifts i : Nat) : Nat := if fmt = 1 then bitsOf shifts (2 * (i % 32 / 8)) 2 else 0

/-- A number times 2^k. -/
def scaleNum (v : Num) (k : Int) : Num :=
  match v with
  | .fin s m e => .fin s m (e + k)
  | x => x

/-- Element `i` of an operand with elements at `a` and, if blocked, its sidecar entry for the block at `side` (R49, R51). -/
def operandAt (m : Mem) (fb a side i : Nat) : Num :=
  let fmt := fmtCode fb
  let v := decodeElem fmt (fmtBlocked fb) (elemAt m a fmt i)
  if fmtBlocked fb then
    match scaleExp (m.read side).toNat with
    | none => .nan
    | some k => scaleNum v (k - microShift fmt (if fmt = 1 then (m.read (side + 1)).toNat else 0) i)
  else v

/-! ### Conversions (R70 to R75) -/

def mask64 (v : Nat) : Nat := v % 2 ^ 64

def mix64 (z : Nat) : Nat :=
  let z := z ^^^ (z >>> 32)
  let z := mask64 (z * 0xD6E8FEB86659FD93)
  let z := z ^^^ (z >>> 29)
  let z := mask64 (z * 0xD6E8FEB86659FD93)
  z ^^^ (z >>> 32)

/-- The stochastic draw (R74). -/
def srDraw (seed step index : Nat) : Nat :=
  let z := mix64 (mask64 seed ^^^ mask64 (step * 0x9E6C63D0676A9A99))
  let z := mix64 (mask64 (z + index * 0x9E6C63D0676A9A99))
  z >>> 32

/-- The conversion control word (Table 2-7). -/
structure Cvt where
  dst : Nat
  sr : Bool
  nonsat : Bool
  deriving DecidableEq, Repr

def cvtOf (w : Nat) : Cvt := ⟨w % 256, bitsOf w 8 1 == 1, bitsOf w 9 1 == 1⟩
def cvtOk (w : Nat) : Bool := fmtOk (w % 256) && bitsOf w 10 6 == 0

/-- A magnitude rounded to INT8: an integer, saturated at 127 or −128; code and flags. -/
def roundInt8 (r : Rnd) (neg : Bool) (m : Nat) (e : Int) (sat : Nat) : Nat × Nat :=
  let (n, inx) := roundAt r m e 0
  let v : Int := if neg then -(n : Int) else n
  if v > 127 then (127, sat ||| fInexact)
  else if v < -128 then (0x80, sat ||| fInexact)
  else (twos 8 v, flagIf inx fInexact)

/-- Conversion of one value to an unblocked destination (R71, Table 2-8). `widen`: infinities pass. -/
def convertNum (fmt : Nat) (nonsat widen : Bool) (r : Rnd) (v : Num) : Nat × Nat :=
  match binFmt fmt with
  | none =>
    match v with
    | .nan => (0, fInvalid)
    | .inf s => (if s then 0x80 else 127, fOverflow)
    | .fin s m e => roundInt8 r s m e fOverflow
  | some f =>
    match v with
    | .nan => if f.hasNan then (canonNan fmt, 0) else (0, fInvalid)
    | .inf s =>
      if widen then (infCode f s, 0)
      else if f.hasInf then (if nonsat then (infCode f s, 0) else (signed f s f.maxCode, fOverflow))
      else if f.hasNan then (if nonsat then (signed f s 0x7F, fInvalid) else (signed f s f.maxCode, fOverflow))
      else (signed f s f.maxCode, fOverflow)
    | .fin s m e =>
      let (c, inx, tiny) := roundMag f r m e
      if c > f.maxCode then
        (if nonsat && (f.hasInf || f.hasNan) then signed f s (f.maxCode + 1) else signed f s f.maxCode,
          fOverflow ||| fInexact)
      else (signed f s c, flagIf inx fInexact ||| flagIf (inx && tiny) fUnderflow)

/-- Does a conversion widen (R71)? -/
def widens (src dst : Nat) : Bool := dst == 8 || (dst == 7 && src != 8)

/-- One unblocked conversion, a code of `src` in, unchanged if the format stays (R71; a NaN becomes canonical). -/
def convertOne (src : Nat) (blockedSrc : Bool) (c : Cvt) (r : Rnd) (code : Nat) (v : Num) : Nat × Nat :=
  let dst := fmtCode c.dst
  if src = dst && !blockedSrc && v != .nan then (code, 0)
  else convertNum dst c.nonsat (widens src dst) r v

/-- floor(log2 |v|) of a nonzero finite number. -/
def numLog2 : Num → Option Int
  | .fin _ m e => if m = 0 then none else some ((Nat.log2 m : Int) + e)
  | _ => none

/-- The larger of two optional exponents. -/
def optMax (a b : Option Int) : Option Int :=
  match a, b with
  | some x, some y => some (max x y)
  | some x, none => some x
  | none, y => y

/-- floor(log2 amax) of a list, none when all are zero. -/
def amaxLog2 (l : List Num) : Option Int := l.foldl (fun a v => optMax a (numLog2 v)) none

/-- e_max of R72. -/
def eMax (fmt : Nat) : Int :=
  match fmt with
  | 0 => 2 | 1 => 2 | 2 => 4 | 3 => 2 | 4 => 8 | 5 => 15 | _ => 0

/-- An element of a blocked destination (R50 step 5, R72): the value after division by its scale. INT8 elements
carry six fraction bits (R42), and the quotient is rounded at that grid. -/
def blockElem (fmt : Nat) (clamped : Bool) (r : Rnd) (v : Num) : Nat × Nat :=
  match v with
  | .fin s m e =>
    match binFmt fmt with
    | none => roundInt8 r s m (e + 6) (flagIf clamped fOverflow)
    | some f =>
      let (c, inx, _) := roundMag f r m e
      let small := m != 0 && decide ((Nat.log2 m : Int) + e < 1 - (f.bias : Int))
      if c > f.maxCode then (signed f s f.maxCode, fInexact ||| flagIf clamped fOverflow)
      else (signed f s c, flagIf inx fInexact ||| flagIf (inx && small) fUnderflow)
  | _ => (0, 0)

/-- A source infinity of a blocked conversion: the largest finite FP32, or a NaN (R73). -/
def blockSource (nonsat : Bool) (v : Num) : Num × Nat :=
  match v with
  | .inf s => if nonsat then (.nan, 0) else (.fin s (2 ^ 24 - 1) 104, fOverflow)
  | x => (x, 0)

/-- Conversion of one block of 32 values (R50, R72, R73): element codes, sidecar bytes, flags. `rs` gives each element's
rounding. In a block of zeros a -0 is written as code 0, for R72 makes every element zero; the micro-shift byte of a KNB4 block made NaN is
0x00, which the spec does not give (DESIGN CHOICE, log 106). -/
def convertBlock (c : Cvt) (rs : List Rnd) (vs : List Num) : List Nat × List Nat × Nat :=
  let fmt := fmtCode c.dst
  let srcs := vs.map (blockSource c.nonsat)
  let f0 := srcs.foldl (fun f p => f ||| p.2) 0
  let xs := srcs.map (·.1)
  if xs.any isNan then (List.replicate 32 0, if fmt = 1 then [0xFF, 0] else [0xFF], f0 ||| fInvalid)
  else
    match amaxLog2 xs with
    | none => (xs.map (fun _ => 0), if fmt = 1 then [0, 0xFF] else [0], f0)
    | some la =>
      let e0 := la - eMax fmt
      let e := max (-127) (min 127 e0)
      let clamped := e != e0
      let shift (k : Nat) : Nat :=
        if fmt = 1 then
          match amaxLog2 ((xs.drop (8 * k)).take 8) with
          | none => 3
          | some lk => min 3 (la - lk).toNat
        else 0
      let outs := (xs.zip rs).zipIdx.map
        (fun p => blockElem fmt clamped p.1.2 (scaleNum p.1.1 ((shift (p.2 / 8) : Int) - e)))
      let fl := outs.foldl (fun f p => f ||| p.2) (f0 ||| flagIf clamped fScaleClamp)
      (outs.map (·.1),
        (e + 127).toNat :: (if fmt = 1 then [shift 0 + 4 * shift 1 + 16 * shift 2 + 64 * shift 3] else []), fl)

/-- Packs element codes of `w` bits, the first in the low bits (R45). -/
def packElems (w : Nat) (cs : List Nat) : Nat := cs.foldr (fun c acc => c % 2 ^ w + acc * 2 ^ w) 0

end Sys2Proof.Machine
end

