-- ==== Sys2Proof/Machine/Regs.lean ====
section
/-!
DEFINITION. The management registers of the part, field by field: every field of every register table of the
chapters, with its offset in its unit, bits, access code and reset value (R4, R7, R8), and the table of the
registers from which a management address is read.
-/

namespace Sys2Proof.Machine

/-- CORE_ENG_FLAGS.invalid (R76). -/
def CORE_ENG_FLAGS.invalid : Fld := ⟨0x1000c0, 0, 1, .w1c, 0, .num⟩
/-- CORE_ENG_FLAGS.div_zero (R76). -/
def CORE_ENG_FLAGS.div_zero : Fld := ⟨0x1000c0, 1, 1, .w1c, 0, .num⟩
/-- CORE_ENG_FLAGS.overflow (R76). -/
def CORE_ENG_FLAGS.overflow : Fld := ⟨0x1000c0, 2, 1, .w1c, 0, .num⟩
/-- CORE_ENG_FLAGS.underflow (R76). -/
def CORE_ENG_FLAGS.underflow : Fld := ⟨0x1000c0, 3, 1, .w1c, 0, .num⟩
/-- CORE_ENG_FLAGS.inexact (R76). -/
def CORE_ENG_FLAGS.inexact : Fld := ⟨0x1000c0, 4, 1, .w1c, 0, .num⟩
/-- CORE_ENG_FLAGS.window_underflow (R76). -/
def CORE_ENG_FLAGS.window_underflow : Fld := ⟨0x1000c0, 5, 1, .w1c, 0, .num⟩
/-- CORE_ENG_FLAGS.window_overflow (R76). -/
def CORE_ENG_FLAGS.window_overflow : Fld := ⟨0x1000c0, 6, 1, .w1c, 0, .num⟩
/-- CORE_ENG_FLAGS.scale_clamp (R76). -/
def CORE_ENG_FLAGS.scale_clamp : Fld := ⟨0x1000c0, 7, 1, .w1c, 0, .num⟩
/-- CORE_ENG_FLAGS.first_seq (R76). -/
def CORE_ENG_FLAGS.first_seq : Fld := ⟨0x1000c0, 16, 16, .ro, 0, .num⟩
/-- CORE_ENG_FLAGS.first_valid (R76). -/
def CORE_ENG_FLAGS.first_valid : Fld := ⟨0x1000c0, 32, 1, .ro, 0, .num⟩
/-- CORE_STATUS.eng_state (R113). -/
def CORE_STATUS.eng_state : Fld := ⟨0x100000, 0, 32, .ro, 0, .num⟩
/-- CORE_STATUS.leave_state (R113). -/
def CORE_STATUS.leave_state : Fld := ⟨0x100000, 32, 3, .ro, 0, .num⟩
/-- CORE_STATUS.ramp_level (R113). -/
def CORE_STATUS.ramp_level : Fld := ⟨0x100000, 35, 4, .ro, 0, .num⟩
/-- CORE_STATUS.ctx (R113). -/
def CORE_STATUS.ctx : Fld := ⟨0x100000, 40, 6, .ro, 0, .num⟩
/-- CORE_STATUS.ctx_valid (R113). -/
def CORE_STATUS.ctx_valid : Fld := ⟨0x100000, 46, 1, .ro, 0, .num⟩
/-- CORE_LEAVE.idle_release (R113). -/
def CORE_LEAVE.idle_release : Fld := ⟨0x100008, 8, 24, .rw, 16384, .num⟩
/-- CORE_LEAVE.grants (R113). -/
def CORE_LEAVE.grants : Fld := ⟨0x100008, 32, 32, .ro, 0, .num⟩
/-- CORE_ECC.corrected (R113). -/
def CORE_ECC.corrected : Fld := ⟨0x100010, 0, 32, .rc, 0, .num⟩
/-- CORE_ECC.uncorrected (R113). -/
def CORE_ECC.uncorrected : Fld := ⟨0x100010, 32, 16, .rc, 0, .num⟩
/-- CORE_STREAM.base (R113). -/
def CORE_STREAM.base : Fld := ⟨0x100040, 0, 24, .rw, 0, .undef⟩
/-- CORE_STREAM.count (R113). -/
def CORE_STREAM.count : Fld := ⟨0x100040, 24, 17, .rw, 0, .undef⟩
/-- CORE_ENG_STATE.head_seq (R113). -/
def CORE_ENG_STATE.head_seq : Fld := ⟨0x100080, 0, 32, .ro, 0, .num⟩
/-- CORE_ENG_STATE.fill (R113). -/
def CORE_ENG_STATE.fill : Fld := ⟨0x100080, 32, 5, .ro, 0, .num⟩
/-- CORE_ENG_STATE.last_status (R113). -/
def CORE_ENG_STATE.last_status : Fld := ⟨0x100080, 40, 8, .ro, 0, .num⟩
/-- CORE_CPL_CFG.base (R113). -/
def CORE_CPL_CFG.base : Fld := ⟨0x100100, 0, 24, .rw, 0, .undef⟩
/-- CORE_CPL_CFG.log2_size (R113). -/
def CORE_CPL_CFG.log2_size : Fld := ⟨0x100100, 24, 4, .rw, 4, .num⟩
/-- CORE_CPL_CFG.enable (R113). -/
def CORE_CPL_CFG.enable : Fld := ⟨0x100100, 28, 1, .rw, 0, .num⟩
/-- CORE_CPL_PTR.head (R113). -/
def CORE_CPL_PTR.head : Fld := ⟨0x100140, 0, 16, .ro, 0, .num⟩
/-- CORE_CPL_PTR.tail (R113). -/
def CORE_CPL_PTR.tail : Fld := ⟨0x100140, 16, 16, .rw, 0, .num⟩
/-- CORE_CPL_PTR.overrun (R113). -/
def CORE_CPL_PTR.overrun : Fld := ⟨0x100140, 32, 1, .w1c, 0, .num⟩
/-- CORE_BUSY.cycles (R113). -/
def CORE_BUSY.cycles : Fld := ⟨0x100180, 0, 64, .ro, 0, .num⟩
/-- SEQ_ROLE.role (R150). -/
def SEQ_ROLE.role : Fld := ⟨0x20000, 0, 2, .ro, 0, .light⟩
/-- SEQ_ROLE.lease_held (R150). -/
def SEQ_ROLE.lease_held : Fld := ⟨0x20000, 2, 1, .ro, 0, .num⟩
/-- SEQ_EPOCH.epoch (R150). -/
def SEQ_EPOCH.epoch : Fld := ⟨0x20008, 0, 32, .ro, 0, .num⟩
/-- SEQ_ADMIT.ctx (R150). -/
def SEQ_ADMIT.ctx : Fld := ⟨0x20010, 0, 6, .ro, 0, .num⟩
/-- SEQ_ADMIT.code (R150). -/
def SEQ_ADMIT.code : Fld := ⟨0x20010, 8, 8, .ro, 0, .num⟩
/-- SEQ_ADMIT.tick_lo (R150). -/
def SEQ_ADMIT.tick_lo : Fld := ⟨0x20010, 16, 32, .ro, 0, .num⟩
/-- SEQ_CHAN_SEL.channel (R150). -/
def SEQ_CHAN_SEL.channel : Fld := ⟨0x20018, 0, 16, .rw, 0, .num⟩
/-- SEQ_CHAN_OCC.held (R150). -/
def SEQ_CHAN_OCC.held : Fld := ⟨0x20020, 0, 15, .ro, 0, .num⟩
/-- SEQ_CTX_STATE.state (R150). -/
def SEQ_CTX_STATE.state : Fld := ⟨0x21000, 0, 3, .ro, 0, .num⟩
/-- SEQ_CTX_STATE.last_reason (R150). -/
def SEQ_CTX_STATE.last_reason : Fld := ⟨0x21000, 8, 8, .ro, 0, .num⟩
/-- SEQ_CTX_STATE.cycles (R150). -/
def SEQ_CTX_STATE.cycles : Fld := ⟨0x21000, 16, 32, .ro, 0, .num⟩
/-- SEQ_CTX_START.start (R150). -/
def SEQ_CTX_START.start : Fld := ⟨0x21008, 0, 64, .ro, 0, .num⟩
/-- SEQ_CTX_SLIP.slip_tk (R150). -/
def SEQ_CTX_SLIP.slip_tk : Fld := ⟨0x21010, 0, 40, .rc, 0, .num⟩
/-- SEQ_CTX_SLIP.slipped_cycles (R150). -/
def SEQ_CTX_SLIP.slipped_cycles : Fld := ⟨0x21010, 40, 24, .rc, 0, .num⟩
/-- SEQ_CTX_OVERRUN.flows (R150). -/
def SEQ_CTX_OVERRUN.flows : Fld := ⟨0x21018, 0, 32, .rc, 0, .num⟩
/-- SEQ_CTX_OVERRUN.max_tk (R150). -/
def SEQ_CTX_OVERRUN.max_tk : Fld := ⟨0x21018, 32, 32, .rc, 0, .num⟩
/-- SEQ_CTX_PREEMPT.preempted_tk (R150). -/
def SEQ_CTX_PREEMPT.preempted_tk : Fld := ⟨0x21020, 0, 48, .ro, 0, .num⟩
/-- SEQ_CTX_PREEMPT.count (R150). -/
def SEQ_CTX_PREEMPT.count : Fld := ⟨0x21020, 48, 16, .ro, 0, .num⟩
/-- SEQ_LEASE.epoch (R173). -/
def SEQ_LEASE.epoch : Fld := ⟨0x20028, 0, 32, .ro, 0, .num⟩
/-- SEQ_LEASE.expiry_lo (R173). -/
def SEQ_LEASE.expiry_lo : Fld := ⟨0x20028, 32, 32, .ro, 0, .num⟩
/-- SEQ_BEACON.miss_net (R173). -/
def SEQ_BEACON.miss_net : Fld := ⟨0x20030, 0, 3, .ro, 0, .num⟩
/-- SEQ_BEACON.miss_ring (R173). -/
def SEQ_BEACON.miss_ring : Fld := ⟨0x20030, 4, 3, .ro, 0, .num⟩
/-- SEQ_BEACON.ready (R173). -/
def SEQ_BEACON.ready : Fld := ⟨0x20030, 7, 1, .ro, 0, .num⟩
/-- SEQ_BEACON.copy_seq (R173). -/
def SEQ_BEACON.copy_seq : Fld := ⟨0x20030, 8, 16, .ro, 0, .num⟩
/-- SEQ_BEACON.path_faults (R173). -/
def SEQ_BEACON.path_faults : Fld := ⟨0x20030, 24, 16, .rc, 0, .num⟩
/-- KPR_LEASE.holder (R173). -/
def KPR_LEASE.holder : Fld := ⟨0x40000, 0, 3, .ro, 0, .num⟩
/-- KPR_LEASE.held (R173). -/
def KPR_LEASE.held : Fld := ⟨0x40000, 3, 1, .ro, 0, .num⟩
/-- KPR_LEASE.take_pending (R173). -/
def KPR_LEASE.take_pending : Fld := ⟨0x40000, 4, 1, .ro, 0, .num⟩
/-- KPR_LEASE.epoch (R173). -/
def KPR_LEASE.epoch : Fld := ⟨0x40000, 8, 32, .ro, 0, .num⟩
/-- KPR_LEASE.votes_split (R173). -/
def KPR_LEASE.votes_split : Fld := ⟨0x40000, 40, 8, .rc, 0, .num⟩
/-- KPR_LEASE_EXP.expiry (R173). -/
def KPR_LEASE_EXP.expiry : Fld := ⟨0x40008, 0, 64, .ro, 0, .num⟩
/-- SYN_STATUS.barriers_held (R202). -/
def SYN_STATUS.barriers_held : Fld := ⟨0x30000, 0, 16, .ro, 0, .num⟩
/-- SYN_STATUS.barriers_active (R202). -/
def SYN_STATUS.barriers_active : Fld := ⟨0x30000, 16, 16, .ro, 0, .num⟩
/-- SYN_STATUS.waiters (R202). -/
def SYN_STATUS.waiters : Fld := ⟨0x30000, 32, 11, .ro, 0, .num⟩
/-- SYN_STATUS.watches (R202). -/
def SYN_STATUS.watches : Fld := ⟨0x30000, 43, 7, .ro, 0, .num⟩
/-- SYN_STATUS.vmap (R202). -/
def SYN_STATUS.vmap : Fld := ⟨0x30000, 50, 11, .ro, 0, .num⟩
/-- SYN_TIMEOUT_DEF.default_tk (R202). -/
def SYN_TIMEOUT_DEF.default_tk : Fld := ⟨0x30008, 0, 29, .rw, 100000, .num⟩
/-- SYN_CORE_TIMEOUT.core_tk (R202). -/
def SYN_CORE_TIMEOUT.core_tk : Fld := ⟨0x30010, 0, 29, .rw, 100000, .num⟩
/-- SYN_DBG_SEL.index (R202). -/
def SYN_DBG_SEL.index : Fld := ⟨0x30018, 0, 11, .rw, 0, .num⟩
/-- SYN_DBG_SEL.barrier (R202). -/
def SYN_DBG_SEL.barrier : Fld := ⟨0x30018, 11, 1, .rw, 0, .num⟩
/-- SYN_DBG_SEL.widx (R202). -/
def SYN_DBG_SEL.widx : Fld := ⟨0x30018, 12, 10, .rw, 0, .num⟩
/-- SYN_DBG_SEL.snap_tick (R202). -/
def SYN_DBG_SEL.snap_tick : Fld := ⟨0x30018, 32, 32, .ro, 0, .num⟩
/-- SYN_DBG_OBJ.value (R202). -/
def SYN_DBG_OBJ.value : Fld := ⟨0x30020, 0, 16, .ro, 0, .num⟩
/-- SYN_DBG_OBJ.overflow (R202). -/
def SYN_DBG_OBJ.overflow : Fld := ⟨0x30020, 16, 1, .ro, 0, .num⟩
/-- SYN_DBG_OBJ.underflow (R202). -/
def SYN_DBG_OBJ.underflow : Fld := ⟨0x30020, 17, 1, .ro, 0, .num⟩
/-- SYN_DBG_OBJ.held (R202). -/
def SYN_DBG_OBJ.held : Fld := ⟨0x30020, 18, 1, .ro, 0, .num⟩
/-- SYN_DBG_OBJ.ctx (R202). -/
def SYN_DBG_OBJ.ctx : Fld := ⟨0x30020, 19, 6, .ro, 0, .num⟩
/-- SYN_DBG_OBJ.nwait (R202). -/
def SYN_DBG_OBJ.nwait : Fld := ⟨0x30020, 25, 11, .ro, 0, .num⟩
/-- SYN_DBG_OBJ.generation (R202). -/
def SYN_DBG_OBJ.generation : Fld := ⟨0x30020, 36, 16, .ro, 0, .num⟩
/-- SYN_DBG_LAST.unit (R202). -/
def SYN_DBG_LAST.unit : Fld := ⟨0x30028, 0, 8, .ro, 0, .num⟩
/-- SYN_DBG_LAST.signaller (R202). -/
def SYN_DBG_LAST.signaller : Fld := ⟨0x30028, 8, 24, .ro, 0, .num⟩
/-- SYN_DBG_LAST.tick_lo (R202). -/
def SYN_DBG_LAST.tick_lo : Fld := ⟨0x30028, 32, 32, .ro, 0, .num⟩
/-- SYN_DBG_WAITER.waiter (R202). -/
def SYN_DBG_WAITER.waiter : Fld := ⟨0x30030, 0, 24, .ro, 0, .num⟩
/-- SYN_DBG_WAITER.take (R202). -/
def SYN_DBG_WAITER.take : Fld := ⟨0x30030, 24, 1, .ro, 0, .num⟩
/-- SYN_DBG_WAITER.valid (R202). -/
def SYN_DBG_WAITER.valid : Fld := ⟨0x30030, 25, 1, .ro, 0, .num⟩
/-- SYN_DBG_WAITER.threshold (R202). -/
def SYN_DBG_WAITER.threshold : Fld := ⟨0x30030, 26, 16, .ro, 0, .num⟩
/-- SYN_DBG_WAITER.reg_tick (R202). -/
def SYN_DBG_WAITER.reg_tick : Fld := ⟨0x30030, 42, 22, .ro, 0, .num⟩
/-- SYN_TO_LOG.value (R202). -/
def SYN_TO_LOG.value : Fld := ⟨0x30038, 0, 16, .ro, 0, .num⟩
/-- SYN_TO_LOG.threshold (R202). -/
def SYN_TO_LOG.threshold : Fld := ⟨0x30038, 16, 16, .ro, 0, .num⟩
/-- SYN_TO_LOG.waiter (R202). -/
def SYN_TO_LOG.waiter : Fld := ⟨0x30038, 32, 24, .ro, 0, .num⟩
/-- SYN_COUNTS.overflows (R202). -/
def SYN_COUNTS.overflows : Fld := ⟨0x30040, 0, 32, .rc, 0, .num⟩
/-- SYN_COUNTS.timeouts (R202). -/
def SYN_COUNTS.timeouts : Fld := ⟨0x30040, 32, 32, .rc, 0, .num⟩
/-- SYN_COBJ.value (R202). -/
def SYN_COBJ.value : Fld := ⟨0x180000, 0, 16, .ro, 0, .num⟩
/-- SYN_COBJ.overflow (R202). -/
def SYN_COBJ.overflow : Fld := ⟨0x180000, 16, 1, .w1c, 0, .num⟩
/-- SYN_COBJ.waiters (R202). -/
def SYN_COBJ.waiters : Fld := ⟨0x180000, 24, 8, .ro, 0, .num⟩
/-- SYN_COBJ.takers (R202). -/
def SYN_COBJ.takers : Fld := ⟨0x180000, 32, 8, .ro, 0, .num⟩
/-- SYN_COBJ.last_engine (R202). -/
def SYN_COBJ.last_engine : Fld := ⟨0x180000, 40, 3, .ro, 0, .num⟩
/-- SYN_COBJ.last_valid (R202). -/
def SYN_COBJ.last_valid : Fld := ⟨0x180000, 43, 1, .ro, 0, .num⟩
/-- SYN_COBJ.last_tick (R202). -/
def SYN_COBJ.last_tick : Fld := ⟨0x180000, 44, 20, .ro, 0, .num⟩
/-- MMU_CACHE_CFG.size (R233). -/
def MMU_CACHE_CFG.size : Fld := ⟨0x40000, 0, 2, .rw, 0, .light⟩
/-- MMU_CACHE_CFG.refused (R233). -/
def MMU_CACHE_CFG.refused : Fld := ⟨0x40000, 2, 1, .w1c, 0, .num⟩
/-- MMU_TLB_INV.ctx (R233). -/
def MMU_TLB_INV.ctx : Fld := ⟨0x40008, 0, 6, .rw, 0, .num⟩
/-- MMU_TLB_INV.all (R233). -/
def MMU_TLB_INV.allCtx : Fld := ⟨0x40008, 6, 1, .rw, 0, .num⟩
/-- MMU_TLB_INV.start (R233). -/
def MMU_TLB_INV.start : Fld := ⟨0x40008, 7, 1, .wo, 0, .num⟩
/-- MMU_TLB_INV.pending (R233). -/
def MMU_TLB_INV.pending : Fld := ⟨0x40008, 8, 1, .ro, 0, .num⟩
/-- MMU_TLB_INV.active_ctx (R233). -/
def MMU_TLB_INV.active_ctx : Fld := ⟨0x40008, 9, 6, .ro, 0, .num⟩
/-- MMU_TLB_INV.active_all (R233). -/
def MMU_TLB_INV.active_all : Fld := ⟨0x40008, 15, 1, .ro, 0, .num⟩
/-- MMU_BS_ECC.corrected (R233). -/
def MMU_BS_ECC.corrected : Fld := ⟨0x40010, 0, 32, .rc, 0, .num⟩
/-- MMU_BS_ECC.uncorrected (R233). -/
def MMU_BS_ECC.uncorrected : Fld := ⟨0x40010, 32, 16, .rc, 0, .num⟩
/-- MMU_HBM_STAT.temp (R233). -/
def MMU_HBM_STAT.temp : Fld := ⟨0x40018, 0, 8, .ro, 0, .undef⟩
/-- MMU_HBM_STAT.mode (R233). -/
def MMU_HBM_STAT.mode : Fld := ⟨0x40018, 8, 2, .ro, 0, .num⟩
/-- MMU_HBM_STAT.uncorrected (R233). -/
def MMU_HBM_STAT.uncorrected : Fld := ⟨0x40018, 16, 16, .rc, 0, .num⟩
/-- MMU_HBM_STAT.corrected (R233). -/
def MMU_HBM_STAT.corrected : Fld := ⟨0x40018, 32, 32, .rc, 0, .num⟩
/-- MMU_FAULTS.faults (R233). -/
def MMU_FAULTS.faults : Fld := ⟨0x40028, 0, 32, .rc, 0, .num⟩
/-- MMU_FAULTS.stray_resumes (R233). -/
def MMU_FAULTS.stray_resumes : Fld := ⟨0x40028, 32, 16, .rc, 0, .num⟩
/-- MMU_CTX_ROOT.valid (R233). -/
def MMU_CTX_ROOT.valid : Fld := ⟨0x40100, 0, 1, .ro, 0, .num⟩
/-- MMU_CTX_ROOT.root (R233). -/
def MMU_CTX_ROOT.root : Fld := ⟨0x40100, 17, 31, .ro, 0, .num⟩
/-- DMA_STATE.state (R234). -/
def DMA_STATE.state : Fld := ⟨0x1a0000, 0, 2, .ro, 0, .num⟩
/-- DMA_STATE.desc_index (R234). -/
def DMA_STATE.desc_index : Fld := ⟨0x1a0000, 4, 16, .ro, 0, .num⟩
/-- DMA_STATE.offset (R234). -/
def DMA_STATE.offset : Fld := ⟨0x1a0000, 32, 32, .ro, 0, .num⟩
/-- DMA_FAULT.va (R234). -/
def DMA_FAULT.va : Fld := ⟨0x1a0008, 0, 44, .ro, 0, .num⟩
/-- DMA_FAULT.side (R234). -/
def DMA_FAULT.side : Fld := ⟨0x1a0008, 44, 1, .ro, 0, .num⟩
/-- DMA_FAULT.cause (R234). -/
def DMA_FAULT.cause : Fld := ⟨0x1a0008, 45, 3, .ro, 0, .num⟩
/-- DMA_FAULT.ctx (R234). -/
def DMA_FAULT.ctx : Fld := ⟨0x1a0008, 48, 6, .ro, 0, .num⟩
/-- DMA_RESUME.resume (R234). -/
def DMA_RESUME.resume : Fld := ⟨0x1a0010, 0, 1, .wo, 0, .num⟩
/-- DMA_RESUME.abandon (R234). -/
def DMA_RESUME.abandon : Fld := ⟨0x1a0010, 1, 1, .wo, 0, .num⟩
/-- DMA_ERR.code (R234). -/
def DMA_ERR.code : Fld := ⟨0x1a0018, 0, 8, .ro, 0, .num⟩
/-- DMA_ERR.desc_index (R234). -/
def DMA_ERR.desc_index : Fld := ⟨0x1a0018, 8, 16, .ro, 0, .num⟩
/-- DMA_ERR.offset (R234). -/
def DMA_ERR.offset : Fld := ⟨0x1a0018, 24, 32, .ro, 0, .num⟩
/-- SRV_STATUS.open (R254). -/
def SRV_STATUS.opened : Fld := ⟨0x50000, 0, 1, .ro, 0, .num⟩
/-- SRV_STATUS.ctx (R254). -/
def SRV_STATUS.ctx : Fld := ⟨0x50000, 1, 6, .ro, 0, .num⟩
/-- SRV_STATUS.queued (R254). -/
def SRV_STATUS.queued : Fld := ⟨0x50000, 7, 11, .ro, 0, .num⟩
/-- SRV_STATUS.assembling (R254). -/
def SRV_STATUS.assembling : Fld := ⟨0x50000, 18, 5, .ro, 0, .num⟩
/-- SRV_STATUS.stray (R254). -/
def SRV_STATUS.stray : Fld := ⟨0x50000, 24, 16, .rc, 0, .num⟩
/-- SRV_SLOTS.occupied (R254). -/
def SRV_SLOTS.occupied : Fld := ⟨0x50008, 0, 64, .ro, 0, .num⟩
/-- SRV_LATE.steps (R254). -/
def SRV_LATE.steps : Fld := ⟨0x50010, 0, 32, .rc, 0, .num⟩
/-- SRV_LATE.max_tk (R254). -/
def SRV_LATE.max_tk : Fld := ⟨0x50010, 32, 32, .rc, 0, .num⟩
/-- SRV_IDLE_E.idle_uj (R254). -/
def SRV_IDLE_E.idle_uj : Fld := ⟨0x50018, 0, 64, .ro, 0, .num⟩
/-- D2D_STATUS.state (R275). -/
def D2D_STATUS.state : Fld := ⟨0x60000, 0, 4, .ro, 0, .num⟩
/-- D2D_STATUS.rate (R275). -/
def D2D_STATUS.rate : Fld := ⟨0x60000, 4, 2, .ro, 0, .num⟩
/-- D2D_STATUS.degraded (R275). -/
def D2D_STATUS.degraded : Fld := ⟨0x60000, 6, 1, .ro, 0, .num⟩
/-- D2D_STATUS.repairing (R275). -/
def D2D_STATUS.repairing : Fld := ⟨0x60000, 7, 1, .ro, 0, .num⟩
/-- D2D_STATUS.rx_epoch (R275). -/
def D2D_STATUS.rx_epoch : Fld := ⟨0x60000, 8, 8, .ro, 0, .num⟩
/-- D2D_STATUS.tx_epoch (R275). -/
def D2D_STATUS.tx_epoch : Fld := ⟨0x60000, 16, 8, .ro, 0, .num⟩
/-- D2D_STATUS.rx_good (R275). -/
def D2D_STATUS.rx_good : Fld := ⟨0x60000, 24, 11, .ro, 0, .num⟩
/-- D2D_STATUS.spare_free (R275). -/
def D2D_STATUS.spare_free : Fld := ⟨0x60000, 35, 10, .ro, 0, .num⟩
/-- D2D_STATUS.band (R275). -/
def D2D_STATUS.band : Fld := ⟨0x60000, 45, 2, .ro, 0, .num⟩
/-- D2D_CTL.retrain (R275). -/
def D2D_CTL.retrain : Fld := ⟨0x60008, 0, 1, .wo, 0, .num⟩
/-- D2D_CTL.max_rate (R275). -/
def D2D_CTL.max_rate : Fld := ⟨0x60008, 1, 2, .rw, 0, .light⟩
/-- D2D_CTL.repair_en (R275). -/
def D2D_CTL.repair_en : Fld := ⟨0x60008, 3, 1, .rw, 1, .num⟩
/-- D2D_CTL.margin_min (R275). -/
def D2D_CTL.margin_min : Fld := ⟨0x60008, 8, 6, .rw, 13, .num⟩
/-- D2D_DIGEST.rx_digest (R275). -/
def D2D_DIGEST.rx_digest : Fld := ⟨0x60010, 0, 32, .ro, 0, .num⟩
/-- D2D_DIGEST.tx_digest (R275). -/
def D2D_DIGEST.tx_digest : Fld := ⟨0x60010, 32, 32, .ro, 0, .num⟩
/-- D2D_LAT.lat_tk (R275). -/
def D2D_LAT.lat_tk : Fld := ⟨0x60018, 0, 8, .ro, 0, .num⟩
/-- D2D_LAT.fifo_depth (R275). -/
def D2D_LAT.fifo_depth : Fld := ⟨0x60018, 8, 8, .ro, 0, .num⟩
/-- D2D_COUNTS.errored (R275). -/
def D2D_COUNTS.errored : Fld := ⟨0x60020, 0, 16, .rc, 0, .num⟩
/-- D2D_COUNTS.repairs (R275). -/
def D2D_COUNTS.repairs : Fld := ⟨0x60020, 16, 16, .rc, 0, .num⟩
/-- D2D_COUNTS.trainings (R275). -/
def D2D_COUNTS.trainings : Fld := ⟨0x60020, 32, 16, .rc, 0, .num⟩
/-- D2D_COUNTS.downs (R275). -/
def D2D_COUNTS.downs : Fld := ⟨0x60020, 48, 8, .rc, 0, .num⟩
/-- D2D_MARGIN.lane (R275). -/
def D2D_MARGIN.lane : Fld := ⟨0x60028, 0, 11, .rw, 0, .num⟩
/-- D2D_MARGIN.margin (R275). -/
def D2D_MARGIN.margin : Fld := ⟨0x60028, 11, 6, .ro, 0, .undef⟩
/-- D2D_MARGIN.valid (R275). -/
def D2D_MARGIN.valid : Fld := ⟨0x60028, 17, 1, .ro, 0, .num⟩
/-- D2D_BADMAP.bad (R275). -/
def D2D_BADMAP.bad : Fld := ⟨0x60100, 0, 64, .ro, 0, .fuse⟩
/-- TOE_STATUS.safety (R308). -/
def TOE_STATUS.safety : Fld := ⟨0x70000, 0, 2, .ro, 0, .num⟩
/-- TOE_STATUS.stage (R308). -/
def TOE_STATUS.stage : Fld := ⟨0x70000, 2, 3, .ro, 0, .num⟩
/-- TOE_STATUS.mode (R308). -/
def TOE_STATUS.mode : Fld := ⟨0x70000, 5, 2, .ro, 0, .num⟩
/-- TOE_STATUS.lock_state (R308). -/
def TOE_STATUS.lock_state : Fld := ⟨0x70000, 7, 2, .ro, 0, .num⟩
/-- TOE_STATUS.tx_width (R308). -/
def TOE_STATUS.tx_width : Fld := ⟨0x70000, 9, 4, .ro, 0, .num⟩
/-- TOE_STATUS.rx_width (R308). -/
def TOE_STATUS.rx_width : Fld := ⟨0x70000, 13, 4, .ro, 0, .num⟩
/-- TOE_STATUS.tx_epoch (R308). -/
def TOE_STATUS.tx_epoch : Fld := ⟨0x70000, 17, 8, .ro, 0, .num⟩
/-- TOE_STATUS.rx_epoch (R308). -/
def TOE_STATUS.rx_epoch : Fld := ⟨0x70000, 25, 8, .ro, 0, .num⟩
/-- TOE_STATUS.ext (R308). -/
def TOE_STATUS.ext : Fld := ⟨0x70000, 33, 1, .ro, 0, .num⟩
/-- TOE_STATUS.light (R308). -/
def TOE_STATUS.light : Fld := ⟨0x70000, 34, 1, .ro, 0, .num⟩
/-- TOE_STATUS.lit_rx (R308). -/
def TOE_STATUS.lit_rx : Fld := ⟨0x70000, 35, 1, .ro, 0, .num⟩
/-- TOE_CTL.enable (R308). -/
def TOE_CTL.enable : Fld := ⟨0x70008, 0, 1, .rw, 0, .light⟩
/-- TOE_CTL.ext_reach (R308). -/
def TOE_CTL.ext_reach : Fld := ⟨0x70008, 1, 1, .rw, 0, .light⟩
/-- TOE_CTL.restart (R308). -/
def TOE_CTL.restart : Fld := ⟨0x70008, 2, 1, .wo, 0, .num⟩
/-- TOE_CTL.margin_min (R308). -/
def TOE_CTL.margin_min : Fld := ⟨0x70008, 8, 6, .rw, 8, .num⟩
/-- TOE_TX_MAP.role (R308). -/
def TOE_TX_MAP.role : Fld := ⟨0x70010, 0, 40, .ro, 1099511627775, .num⟩
/-- TOE_RX_MAP.role (R308). -/
def TOE_RX_MAP.role : Fld := ⟨0x70018, 0, 40, .ro, 1099511627775, .num⟩
/-- TOE_LANE_SEL.lambda (R308). -/
def TOE_LANE_SEL.lambda : Fld := ⟨0x70020, 0, 4, .rw, 0, .num⟩
/-- TOE_LANE_FEC.corrected (R308). -/
def TOE_LANE_FEC.corrected : Fld := ⟨0x70028, 0, 40, .rc, 0, .num⟩
/-- TOE_LANE_FEC.uncorrectable (R308). -/
def TOE_LANE_FEC.uncorrectable : Fld := ⟨0x70028, 40, 16, .rc, 0, .num⟩
/-- TOE_LANE_ANA.rx_power (R308). -/
def TOE_LANE_ANA.rx_power : Fld := ⟨0x70030, 0, 8, .ro, 0, .undef⟩
/-- TOE_LANE_ANA.margin (R308). -/
def TOE_LANE_ANA.margin : Fld := ⟨0x70030, 8, 6, .ro, 0, .undef⟩
/-- TOE_LANE_ANA.valid (R308). -/
def TOE_LANE_ANA.valid : Fld := ⟨0x70030, 14, 1, .ro, 0, .num⟩
/-- TOE_LANE_ANA.bias (R308). -/
def TOE_LANE_ANA.bias : Fld := ⟨0x70030, 16, 10, .ro, 0, .undef⟩
/-- TOE_LANE_ANA.bias_ceiling (R308). -/
def TOE_LANE_ANA.bias_ceiling : Fld := ⟨0x70030, 26, 10, .ro, 0, .fuse⟩
/-- TOE_LANE_ANA.retired (R308). -/
def TOE_LANE_ANA.retired : Fld := ⟨0x70030, 36, 1, .ro, 0, .fuse⟩
/-- TOE_LANE_DRV.lvl (R308). -/
def TOE_LANE_DRV.lvl : Fld := ⟨0x70038, 0, 24, .ro, 0, .undef⟩
/-- TOE_LANE_DRV.pre (R308). -/
def TOE_LANE_DRV.pre : Fld := ⟨0x70038, 24, 5, .ro, 0, .undef⟩
/-- TOE_LANE_DRV.post (R308). -/
def TOE_LANE_DRV.post : Fld := ⟨0x70038, 29, 5, .ro, 0, .undef⟩
/-- TOE_LANE_DRV.stale (R308). -/
def TOE_LANE_DRV.stale : Fld := ⟨0x70038, 34, 1, .ro, 0, .num⟩
/-- TOE_COUNTS.bringups (R308). -/
def TOE_COUNTS.bringups : Fld := ⟨0x70040, 0, 16, .rc, 0, .num⟩
/-- TOE_COUNTS.failures (R308). -/
def TOE_COUNTS.failures : Fld := ⟨0x70040, 16, 16, .rc, 0, .num⟩
/-- TOE_COUNTS.safety_drops (R308). -/
def TOE_COUNTS.safety_drops : Fld := ⟨0x70040, 32, 16, .rc, 0, .num⟩
/-- TOE_WCTL.cal_thr (R333). -/
def TOE_WCTL.cal_thr : Fld := ⟨0x70048, 0, 4, .rw, 3, .num⟩
/-- TOE_WCTL.cal_en (R333). -/
def TOE_WCTL.cal_en : Fld := ⟨0x70048, 4, 1, .rw, 1, .num⟩
/-- TOE_WCTL.fade_en (R333). -/
def TOE_WCTL.fade_en : Fld := ⟨0x70048, 5, 1, .rw, 1, .num⟩
/-- TOE_WCTL.fec_thr (R333). -/
def TOE_WCTL.fec_thr : Fld := ⟨0x70048, 16, 16, .rw, 168, .num⟩
/-- TOE_RING.tx_heater (R333). -/
def TOE_RING.tx_heater : Fld := ⟨0x70050, 0, 14, .ro, 0, .undef⟩
/-- TOE_RING.tx_lock (R333). -/
def TOE_RING.tx_lock : Fld := ⟨0x70050, 14, 3, .ro, 0, .num⟩
/-- TOE_RING.rx_heater (R333). -/
def TOE_RING.rx_heater : Fld := ⟨0x70050, 17, 14, .ro, 0, .undef⟩
/-- TOE_RING.rx_lock (R333). -/
def TOE_RING.rx_lock : Fld := ⟨0x70050, 31, 3, .ro, 0, .num⟩
/-- TOE_RING.rx_ident (R333). -/
def TOE_RING.rx_ident : Fld := ⟨0x70050, 34, 4, .ro, 15, .num⟩
/-- TOE_RING.relocks (R333). -/
def TOE_RING.relocks : Fld := ⟨0x70050, 38, 8, .rc, 0, .num⟩
/-- TOE_RING.losses (R333). -/
def TOE_RING.losses : Fld := ⟨0x70050, 46, 8, .rc, 0, .num⟩
/-- TOE_CAL.tx_temp (R333). -/
def TOE_CAL.tx_temp : Fld := ⟨0x70058, 0, 8, .ro, 0, .undef⟩
/-- TOE_CAL.rx_temp (R333). -/
def TOE_CAL.rx_temp : Fld := ⟨0x70058, 8, 8, .ro, 0, .undef⟩
/-- TOE_CAL.due (R333). -/
def TOE_CAL.due : Fld := ⟨0x70058, 16, 1, .ro, 0, .num⟩
/-- TOE_CAL.running (R333). -/
def TOE_CAL.running : Fld := ⟨0x70058, 17, 1, .ro, 0, .num⟩
/-- TOE_CAL.calibrated (R333). -/
def TOE_CAL.calibrated : Fld := ⟨0x70058, 18, 1, .ro, 0, .num⟩
/-- TOE_CAL.rejects (R333). -/
def TOE_CAL.rejects : Fld := ⟨0x70058, 24, 8, .rc, 0, .num⟩
/-- TOE_CAL.runs (R333). -/
def TOE_CAL.runs : Fld := ⟨0x70058, 32, 16, .rc, 0, .num⟩
/-- TOE_FADE.bias_mean (R333). -/
def TOE_FADE.bias_mean : Fld := ⟨0x70060, 0, 10, .ro, 0, .undef⟩
/-- TOE_FADE.slope (R333). -/
def TOE_FADE.slope : Fld := ⟨0x70060, 10, 16, .ro, 0, .num⟩
/-- TOE_FADE.hours_left (R333). -/
def TOE_FADE.hours_left : Fld := ⟨0x70060, 26, 16, .ro, 65535, .num⟩
/-- TOE_FADE.triggered (R333). -/
def TOE_FADE.triggered : Fld := ⟨0x70060, 42, 1, .ro, 0, .num⟩
/-- TOE_SPARE.tx_free (R333). -/
def TOE_SPARE.tx_free : Fld := ⟨0x70068, 0, 4, .ro, 0, .num⟩
/-- TOE_SPARE.rx_free (R333). -/
def TOE_SPARE.rx_free : Fld := ⟨0x70068, 4, 4, .ro, 0, .num⟩
/-- TOE_SPARE.rx_action (R333). -/
def TOE_SPARE.rx_action : Fld := ⟨0x70068, 8, 3, .ro, 0, .num⟩
/-- TOE_SPARE.switches (R333). -/
def TOE_SPARE.switches : Fld := ⟨0x70068, 16, 16, .rc, 0, .num⟩
/-- TOE_SPARE.emergencies (R333). -/
def TOE_SPARE.emergencies : Fld := ⟨0x70068, 32, 8, .rc, 0, .num⟩
/-- TOE_SPARE.fades (R333). -/
def TOE_SPARE.fades : Fld := ⟨0x70068, 40, 8, .rc, 0, .num⟩
/-- TOE_SPARE.aborts (R333). -/
def TOE_SPARE.aborts : Fld := ⟨0x70068, 48, 8, .rc, 0, .num⟩
/-- LNK_STATUS.state (R357). -/
def LNK_STATUS.state : Fld := ⟨0x80000, 0, 3, .ro, 0, .num⟩
/-- LNK_STATUS.ext (R357). -/
def LNK_STATUS.ext : Fld := ⟨0x80000, 3, 1, .ro, 0, .num⟩
/-- LNK_STATUS.minor (R357). -/
def LNK_STATUS.minor : Fld := ⟨0x80000, 8, 8, .ro, 0, .num⟩
/-- LNK_STATUS.major (R357). -/
def LNK_STATUS.major : Fld := ⟨0x80000, 16, 8, .ro, 0, .num⟩
/-- LNK_STATUS.epoch (R357). -/
def LNK_STATUS.epoch : Fld := ⟨0x80000, 24, 32, .ro, 0, .num⟩
/-- LNK_CTL.down (R357). -/
def LNK_CTL.down : Fld := ⟨0x80008, 0, 1, .wo, 0, .num⟩
/-- LNK_CTL.train (R357). -/
def LNK_CTL.train : Fld := ⟨0x80008, 1, 1, .wo, 0, .num⟩
/-- LNK_CTL.hold (R357). -/
def LNK_CTL.hold : Fld := ⟨0x80008, 2, 1, .rw, 0, .num⟩
/-- LNK_PEER.pod (R357). -/
def LNK_PEER.pod : Fld := ⟨0x80010, 0, 8, .ro, 0, .num⟩
/-- LNK_PEER.pkg (R357). -/
def LNK_PEER.pkg : Fld := ⟨0x80010, 8, 8, .ro, 0, .num⟩
/-- LNK_PEER.link (R357). -/
def LNK_PEER.link : Fld := ⟨0x80010, 16, 6, .ro, 0, .num⟩
/-- LNK_PEER.features (R357). -/
def LNK_PEER.features : Fld := ⟨0x80010, 32, 32, .ro, 0, .num⟩
/-- LNK_RTT.rtt_tk (R357). -/
def LNK_RTT.rtt_tk : Fld := ⟨0x80018, 0, 16, .ro, 0, .num⟩
/-- LNK_RTT.timeout_tk (R357). -/
def LNK_RTT.timeout_tk : Fld := ⟨0x80018, 16, 16, .ro, 0, .num⟩
/-- LNK_OWN_CHAR.char (R357). -/
def LNK_OWN_CHAR.value : Fld := ⟨0x80020, 0, 64, .ro, 0, .num⟩
/-- LNK_PEER_CHAR.char (R357). -/
def LNK_PEER_CHAR.value : Fld := ⟨0x80028, 0, 64, .ro, 0, .num⟩
/-- LNK_FLITS.accepted (R357). -/
def LNK_FLITS.accepted : Fld := ⟨0x80030, 0, 64, .ro, 0, .num⟩
/-- LNK_COUNTS.replays (R357). -/
def LNK_COUNTS.replays : Fld := ⟨0x80038, 0, 16, .rc, 0, .num⟩
/-- LNK_COUNTS.crc_fails (R357). -/
def LNK_COUNTS.crc_fails : Fld := ⟨0x80038, 16, 16, .rc, 0, .num⟩
/-- LNK_COUNTS.discards (R357). -/
def LNK_COUNTS.discards : Fld := ⟨0x80038, 32, 16, .rc, 0, .num⟩
/-- LNK_COUNTS.downs (R357). -/
def LNK_COUNTS.downs : Fld := ⟨0x80038, 48, 8, .rc, 0, .num⟩
/-- LNK_COUNTS.quarantines (R357). -/
def LNK_COUNTS.quarantines : Fld := ⟨0x80038, 56, 8, .rc, 0, .num⟩
/-- LNK_ERR.cause (R357). -/
def LNK_ERR.cause : Fld := ⟨0x80040, 0, 8, .ro, 0, .num⟩
/-- LNK_ERR.ptype (R357). -/
def LNK_ERR.ptype : Fld := ⟨0x80040, 8, 8, .ro, 0, .num⟩
/-- LNK_ERR.pcheck (R357). -/
def LNK_ERR.pcheck : Fld := ⟨0x80040, 16, 8, .ro, 0, .num⟩
/-- LNK_ERR.tick_lo (R357). -/
def LNK_ERR.tick_lo : Fld := ⟨0x80040, 32, 32, .ro, 0, .num⟩
/-- HPT_STATUS.link_up (R379). -/
def HPT_STATUS.link_up : Fld := ⟨0x10000, 0, 1, .ro, 0, .num⟩
/-- HPT_STATUS.fec_lock (R379). -/
def HPT_STATUS.fec_lock : Fld := ⟨0x10000, 1, 1, .ro, 0, .num⟩
/-- HPT_STATUS.phy (R379). -/
def HPT_STATUS.phy : Fld := ⟨0x10000, 2, 1, .ro, 0, .light⟩
/-- HPT_STATUS.an_done (R379). -/
def HPT_STATUS.an_done : Fld := ⟨0x10000, 3, 1, .ro, 0, .num⟩
/-- HPT_STATUS.claimed (R379). -/
def HPT_STATUS.claimed : Fld := ⟨0x10000, 4, 1, .ro, 0, .num⟩
/-- HPT_STATUS.qps (R379). -/
def HPT_STATUS.qps : Fld := ⟨0x10000, 16, 10, .ro, 0, .num⟩
/-- HPT_STATUS.mrs (R379). -/
def HPT_STATUS.mrs : Fld := ⟨0x10000, 26, 10, .ro, 0, .num⟩
/-- HPT_CFG.pfc_roce (R379). -/
def HPT_CFG.pfc_roce : Fld := ⟨0x10008, 0, 3, .ro, 0, .light⟩
/-- HPT_CFG.pfc_ecp (R379). -/
def HPT_CFG.pfc_ecp : Fld := ⟨0x10008, 3, 3, .ro, 0, .light⟩
/-- HPT_CFG.dscp_roce (R379). -/
def HPT_CFG.dscp_roce : Fld := ⟨0x10008, 6, 6, .ro, 0, .light⟩
/-- HPT_CFG.dscp_ecp (R379). -/
def HPT_CFG.dscp_ecp : Fld := ⟨0x10008, 12, 6, .ro, 0, .light⟩
/-- HPT_CFG.ecp_port (R379). -/
def HPT_CFG.ecp_port : Fld := ⟨0x10008, 18, 16, .ro, 0, .light⟩
/-- HPT_CFG.vid (R379). -/
def HPT_CFG.vid : Fld := ⟨0x10008, 34, 12, .ro, 0, .light⟩
/-- HPT_CFG.tagged (R379). -/
def HPT_CFG.tagged : Fld := ⟨0x10008, 46, 1, .ro, 0, .light⟩
/-- HPT_MAC.mac (R379). -/
def HPT_MAC.mac : Fld := ⟨0x10010, 0, 48, .ro, 0, .fuse⟩
/-- HPT_ECP_DROP.len (R379). -/
def HPT_ECP_DROP.len : Fld := ⟨0x10018, 0, 16, .rc, 0, .num⟩
/-- HPT_ECP_DROP.fmt (R379). -/
def HPT_ECP_DROP.fmt : Fld := ⟨0x10018, 16, 16, .rc, 0, .num⟩
/-- HPT_ECP_DROP.auth (R379). -/
def HPT_ECP_DROP.auth : Fld := ⟨0x10018, 32, 16, .rc, 0, .num⟩
/-- HPT_ECP_DROP.replay (R379). -/
def HPT_ECP_DROP.replay : Fld := ⟨0x10018, 48, 16, .rc, 0, .num⟩
/-- HPT_FRAMES.ip_frag (R379). -/
def HPT_FRAMES.ip_frag : Fld := ⟨0x10020, 0, 16, .rc, 0, .num⟩
/-- HPT_FRAMES.other (R379). -/
def HPT_FRAMES.other : Fld := ⟨0x10020, 16, 16, .rc, 0, .num⟩
/-- HPT_FRAMES.pause (R379). -/
def HPT_FRAMES.pause : Fld := ⟨0x10020, 32, 16, .rc, 0, .num⟩
/-- HPT_FRAMES.hello (R379). -/
def HPT_FRAMES.hello : Fld := ⟨0x10020, 48, 16, .rc, 0, .num⟩
/-- HPT_FEC.corrected (R379). -/
def HPT_FEC.corrected : Fld := ⟨0x10028, 0, 40, .rc, 0, .num⟩
/-- HPT_FEC.uncorrectable (R379). -/
def HPT_FEC.uncorrectable : Fld := ⟨0x10028, 40, 16, .rc, 0, .num⟩
/-- HPT_ROCE.naks (R379). -/
def HPT_ROCE.naks : Fld := ⟨0x10030, 0, 16, .rc, 0, .num⟩
/-- HPT_ROCE.icrc (R379). -/
def HPT_ROCE.icrc : Fld := ⟨0x10030, 16, 16, .rc, 0, .num⟩
/-- HPT_ROCE.cnp (R379). -/
def HPT_ROCE.cnp : Fld := ⟨0x10030, 32, 16, .rc, 0, .num⟩
/-- HPT_ROCE.ce (R379). -/
def HPT_ROCE.ce : Fld := ⟨0x10030, 48, 16, .rc, 0, .num⟩
/-- HPT_PFC.xoff_sent (R379). -/
def HPT_PFC.xoff_sent : Fld := ⟨0x10038, 0, 32, .rc, 0, .num⟩
/-- HPT_PFC.xoff_received (R379). -/
def HPT_PFC.xoff_received : Fld := ⟨0x10038, 32, 32, .rc, 0, .num⟩
/-- PWR_MODE.mode (R404). -/
def PWR_MODE.mode : Fld := ⟨0xb0000, 0, 1, .rw, 0, .light⟩
/-- PWR_MODE.point (R404). -/
def PWR_MODE.point : Fld := ⟨0xb0000, 1, 4, .rw, 0, .light⟩
/-- PWR_MODE.boost_en (R404). -/
def PWR_MODE.boost_en : Fld := ⟨0xb0000, 5, 1, .rw, 0, .light⟩
/-- PWR_MODE.refused (R404). -/
def PWR_MODE.refused : Fld := ⟨0xb0000, 6, 1, .w1c, 0, .num⟩
/-- PWR_CAP.cap_w (R404). -/
def PWR_CAP.cap_w : Fld := ⟨0xb0008, 0, 16, .rw, 0, .light⟩
/-- PWR_CAP.window (R404). -/
def PWR_CAP.window : Fld := ⟨0xb0008, 16, 7, .rw, 0, .light⟩
/-- PWR_INPUT.mv (R404). -/
def PWR_INPUT.mv : Fld := ⟨0xb0010, 0, 16, .ro, 0, .undef⟩
/-- PWR_INPUT.p100_w (R404). -/
def PWR_INPUT.p100_w : Fld := ⟨0xb0010, 16, 16, .ro, 0, .undef⟩
/-- PWR_INPUT.p1ms_w (R404). -/
def PWR_INPUT.p1ms_w : Fld := ⟨0xb0010, 32, 16, .ro, 0, .undef⟩
/-- PWR_INPUT.pw_w (R404). -/
def PWR_INPUT.pw_w : Fld := ⟨0xb0010, 48, 16, .ro, 0, .undef⟩
/-- PWR_STATUS.capping (R404). -/
def PWR_STATUS.capping : Fld := ⟨0xb0018, 0, 1, .ro, 0, .num⟩
/-- PWR_STATUS.guard (R404). -/
def PWR_STATUS.guard : Fld := ⟨0xb0018, 1, 1, .ro, 0, .num⟩
/-- PWR_STATUS.input_low (R404). -/
def PWR_STATUS.input_low : Fld := ⟨0xb0018, 2, 1, .ro, 0, .num⟩
/-- PWR_STATUS.guard_trips (R404). -/
def PWR_STATUS.guard_trips : Fld := ⟨0xb0018, 16, 16, .rc, 0, .num⟩
/-- PWR_STATUS.cap_ms (R404). -/
def PWR_STATUS.cap_ms : Fld := ⟨0xb0018, 32, 16, .rc, 0, .num⟩
/-- PWR_RECON.factor (R404). -/
def PWR_RECON.factor : Fld := ⟨0xb0020, 0, 32, .ro, 65536, .num⟩
/-- PWR_RECON.source (R404). -/
def PWR_RECON.source : Fld := ⟨0xb0020, 32, 1, .ro, 0, .num⟩
/-- PWR_RECON.out_of_range (R404). -/
def PWR_RECON.out_of_range : Fld := ⟨0xb0020, 33, 1, .ro, 0, .num⟩
/-- PWR_CTX_E.energy_uj (R404). -/
def PWR_CTX_E.energy_uj : Fld := ⟨0xb0100, 0, 64, .ro, 0, .num⟩
/-- PWR_DIE.point (R404). -/
def PWR_DIE.point : Fld := ⟨0x1c0000, 0, 4, .ro, 0, .light⟩
/-- PWR_DIE.target (R404). -/
def PWR_DIE.target : Fld := ⟨0x1c0000, 4, 4, .ro, 0, .light⟩
/-- PWR_DIE.n_act (R404). -/
def PWR_DIE.n_act : Fld := ⟨0x1c0000, 8, 7, .ro, 64, .num⟩
/-- PWR_DIE.held_vf (R404). -/
def PWR_DIE.held_vf : Fld := ⟨0x1c0000, 15, 1, .ro, 0, .num⟩
/-- PWR_DIE.held_th (R404). -/
def PWR_DIE.held_th : Fld := ⟨0x1c0000, 16, 1, .ro, 0, .num⟩
/-- PWR_DIE.di_ma100 (R404). -/
def PWR_DIE.di_ma100 : Fld := ⟨0x1c0000, 24, 8, .ro, 0, .fuse⟩
/-- PWR_DIE.n_max (R404). -/
def PWR_DIE.n_max : Fld := ⟨0x1c0000, 32, 4, .ro, 0, .num⟩
/-- PWR_STEWARD.holders (R404). -/
def PWR_STEWARD.holders : Fld := ⟨0x1c0008, 0, 7, .ro, 0, .num⟩
/-- PWR_STEWARD.rising (R404). -/
def PWR_STEWARD.rising : Fld := ⟨0x1c0008, 7, 4, .ro, 0, .num⟩
/-- PWR_STEWARD.falling (R404). -/
def PWR_STEWARD.falling : Fld := ⟨0x1c0008, 11, 4, .ro, 0, .num⟩
/-- PWR_STEWARD.pending (R404). -/
def PWR_STEWARD.pending : Fld := ⟨0x1c0008, 15, 7, .ro, 0, .num⟩
/-- PWR_STEWARD.revokes (R404). -/
def PWR_STEWARD.revokes : Fld := ⟨0x1c0008, 32, 16, .rc, 0, .num⟩
/-- PWR_STEWARD.paced_ms (R404). -/
def PWR_STEWARD.paced_ms : Fld := ⟨0x1c0008, 48, 16, .rc, 0, .num⟩
/-- PWR_DROOP.stretches (R404). -/
def PWR_DROOP.stretches : Fld := ⟨0x1c0010, 0, 16, .rc, 0, .num⟩
/-- PWR_DROOP.cycles (R404). -/
def PWR_DROOP.cycles : Fld := ⟨0x1c0010, 16, 32, .rc, 0, .num⟩
/-- PWR_DROOP.reversals (R404). -/
def PWR_DROOP.reversals : Fld := ⟨0x1c0010, 48, 16, .rc, 0, .num⟩
/-- THM_STATUS.band_die (R404). -/
def THM_STATUS.band_die : Fld := ⟨0x90000, 0, 2, .ro, 0, .num⟩
/-- THM_STATUS.band_tile (R404). -/
def THM_STATUS.band_tile : Fld := ⟨0x90000, 2, 2, .ro, 0, .num⟩
/-- THM_STATUS.band_toe (R404). -/
def THM_STATUS.band_toe : Fld := ⟨0x90000, 4, 2, .ro, 0, .num⟩
/-- THM_STATUS.max_die (R404). -/
def THM_STATUS.max_die : Fld := ⟨0x90000, 8, 8, .ro, 0, .undef⟩
/-- THM_STATUS.max_laser (R404). -/
def THM_STATUS.max_laser : Fld := ⟨0x90000, 16, 8, .ro, 0, .undef⟩
/-- THM_STATUS.faulty (R404). -/
def THM_STATUS.faulty : Fld := ⟨0x90000, 24, 7, .ro, 0, .num⟩
/-- THM_STATUS.darkened (R404). -/
def THM_STATUS.darkened : Fld := ⟨0x90000, 31, 1, .ro, 0, .num⟩
/-- THM_STATUS.alarms (R404). -/
def THM_STATUS.alarms : Fld := ⟨0x90000, 32, 16, .rc, 0, .num⟩
/-- THM_SEL.index (R404). -/
def THM_SEL.index : Fld := ⟨0x90008, 0, 7, .rw, 0, .num⟩
/-- THM_SENSOR.temp (R404). -/
def THM_SENSOR.temp : Fld := ⟨0x90010, 0, 16, .ro, 0, .undef⟩
/-- THM_SENSOR.raw (R404). -/
def THM_SENSOR.raw : Fld := ⟨0x90010, 16, 16, .ro, 0, .undef⟩
/-- THM_SENSOR.rate (R404). -/
def THM_SENSOR.rate : Fld := ⟨0x90010, 32, 16, .ro, 0, .undef⟩
/-- THM_SENSOR.faulty (R404). -/
def THM_SENSOR.faulty : Fld := ⟨0x90010, 48, 1, .ro, 0, .num⟩
/-- THM_SENSOR.valid (R404). -/
def THM_SENSOR.valid : Fld := ⟨0x90010, 49, 1, .ro, 0, .num⟩
/-- MET_STATUS.present (R417). -/
def MET_STATUS.present : Fld := ⟨0x0, 0, 1, .ro, 0, .num⟩
/-- MET_STATUS.sealed (R417). -/
def MET_STATUS.sealed : Fld := ⟨0x0, 1, 1, .ro, 0, .num⟩
/-- MET_STATUS.fault (R417). -/
def MET_STATUS.fault : Fld := ⟨0x0, 2, 1, .ro, 0, .num⟩
/-- MET_STATUS.leaves_low (R417). -/
def MET_STATUS.leaves_low : Fld := ⟨0x0, 3, 1, .ro, 0, .num⟩
/-- MET_STATUS.leaves_used (R417). -/
def MET_STATUS.leaves_used : Fld := ⟨0x0, 8, 24, .ro, 0, .num⟩
/-- MET_STATUS.record_no (R417). -/
def MET_STATUS.record_no : Fld := ⟨0x0, 32, 32, .ro, 0, .num⟩
/-- MET_TOTAL.total_mj (R417). -/
def MET_TOTAL.total_mj : Fld := ⟨0x8, 0, 64, .ro, 0, .num⟩
/-- MET_SECOND.second (R417). -/
def MET_SECOND.second : Fld := ⟨0x10, 0, 32, .ro, 0, .num⟩
/-- MET_SECOND.energy_mj (R417). -/
def MET_SECOND.energy_mj : Fld := ⟨0x10, 32, 32, .ro, 0, .num⟩
/-- MET_INPUT.mv (R417). -/
def MET_INPUT.mv : Fld := ⟨0x18, 0, 16, .ro, 0, .num⟩
/-- MET_INPUT.ma (R417). -/
def MET_INPUT.ma : Fld := ⟨0x18, 16, 20, .ro, 0, .num⟩
/-- MET_INPUT.w (R417). -/
def MET_INPUT.w : Fld := ⟨0x18, 48, 16, .ro, 0, .num⟩
/-- MET_REFUSED.port (R417). -/
def MET_REFUSED.port : Fld := ⟨0x20, 0, 32, .ro, 0, .num⟩
/-- MET_REFUSED.mirror (R417). -/
def MET_REFUSED.mirror : Fld := ⟨0x20, 32, 32, .ro, 0, .num⟩
/-- CFG_BOOT.stage (R441). -/
def CFG_BOOT.stage : Fld := ⟨0x80000, 0, 4, .ro, 0, .num⟩
/-- CFG_BOOT.code (R441). -/
def CFG_BOOT.code : Fld := ⟨0x80000, 4, 16, .ro, 0, .num⟩
/-- CFG_BOOT.retried (R441). -/
def CFG_BOOT.retried : Fld := ⟨0x80000, 20, 1, .ro, 0, .num⟩
/-- CFG_BOOT.tiles (R441). -/
def CFG_BOOT.tiles : Fld := ⟨0x80000, 21, 8, .ro, 0, .num⟩
/-- CFG_BOOT.degraded (R441). -/
def CFG_BOOT.degraded : Fld := ⟨0x80000, 29, 1, .ro, 0, .num⟩
/-- CFG_BOOT.ready_ms (R441). -/
def CFG_BOOT.ready_ms : Fld := ⟨0x80000, 32, 32, .ro, 0, .num⟩
/-- CFG_ID.variant (R441). -/
def CFG_ID.variant : Fld := ⟨0x80008, 0, 8, .ro, 0, .fuse⟩
/-- CFG_ID.stepping (R441). -/
def CFG_ID.stepping : Fld := ⟨0x80008, 8, 8, .ro, 0, .fuse⟩
/-- CFG_ID.sec_fused (R441). -/
def CFG_ID.sec_fused : Fld := ⟨0x80008, 16, 7, .ro, 0, .fuse⟩
/-- CFG_ID.root_slot (R441). -/
def CFG_ID.root_slot : Fld := ⟨0x80008, 24, 2, .ro, 0, .light⟩
/-- CFG_ID.revoked (R441). -/
def CFG_ID.revoked : Fld := ⟨0x80008, 26, 4, .ro, 0, .fuse⟩
/-- CFG_ID.schema (R441). -/
def CFG_ID.schema : Fld := ⟨0x80008, 32, 16, .ro, 0, .light⟩
/-- CFG_SERIAL_LO.serial (R441). -/
def CFG_SERIAL_LO.serial : Fld := ⟨0x80010, 0, 64, .ro, 0, .fuse⟩
/-- CFG_SERIAL_HI.serial (R441). -/
def CFG_SERIAL_HI.serial : Fld := ⟨0x80018, 0, 64, .ro, 0, .fuse⟩
/-- CFG_IDKEY.next_leaf (R441). -/
def CFG_IDKEY.next_leaf : Fld := ⟨0x80020, 0, 32, .ro, 0, .undef⟩
/-- CFG_IDKEY.low (R441). -/
def CFG_IDKEY.low : Fld := ⟨0x80020, 32, 1, .ro, 0, .num⟩
/-- CFG_IDKEY.exhausted (R441). -/
def CFG_IDKEY.exhausted : Fld := ⟨0x80020, 33, 1, .ro, 0, .num⟩
/-- CFG_IDKEY.next_ready (R441). -/
def CFG_IDKEY.next_ready : Fld := ⟨0x80020, 34, 1, .ro, 0, .num⟩
/-- CFG_DIGEST.bytes (R441). -/
def CFG_DIGEST.bytes : Fld := ⟨0x80100, 0, 64, .ro, 0, .light⟩
/-- EVT_STATUS.late (R460). -/
def EVT_STATUS.late : Fld := ⟨0xa0000, 0, 16, .rc, 0, .num⟩
/-- EVT_STATUS.suppressed (R460). -/
def EVT_STATUS.suppressed : Fld := ⟨0xa0000, 16, 32, .rc, 0, .num⟩
/-- EVT_STATUS.safe_stop (R460). -/
def EVT_STATUS.safe_stop : Fld := ⟨0xa0000, 48, 1, .ro, 0, .num⟩
/-- EVT_STATUS.reset_refused (R460). -/
def EVT_STATUS.reset_refused : Fld := ⟨0xa0000, 49, 1, .w1c, 0, .num⟩
/-- EVT_STATUS.overrun (R460). -/
def EVT_STATUS.overrun : Fld := ⟨0xa0000, 50, 1, .w1c, 0, .num⟩
/-- EVT_LOG_PTR.head (R460). -/
def EVT_LOG_PTR.head : Fld := ⟨0xa0008, 0, 32, .ro, 0, .kept⟩
/-- EVT_LOG_PTR.tail (R460). -/
def EVT_LOG_PTR.tail : Fld := ⟨0xa0008, 32, 32, .rw, 0, .kept⟩
/-- EVT_CTL.fwd_mask (R460). -/
def EVT_CTL.fwd_mask : Fld := ⟨0xa0010, 0, 12, .rw, 640, .num⟩
/-- EVT_CTL.suppress_en (R460). -/
def EVT_CTL.suppress_en : Fld := ⟨0xa0010, 12, 1, .rw, 1, .num⟩
/-- EVT_RESET.level (R460). -/
def EVT_RESET.level : Fld := ⟨0xa0018, 0, 3, .rw, 0, .num⟩
/-- EVT_RESET.unit (R460). -/
def EVT_RESET.unit : Fld := ⟨0xa0018, 8, 8, .rw, 0, .num⟩
/-- EVT_RESET.core (R460). -/
def EVT_RESET.core : Fld := ⟨0xa0018, 16, 6, .rw, 0, .num⟩
/-- EVT_RESET.start (R460). -/
def EVT_RESET.start : Fld := ⟨0xa0018, 63, 1, .wo, 0, .num⟩
/-- EVT_VOTE.dissents (R460). -/
def EVT_VOTE.dissents : Fld := ⟨0xa0020, 0, 16, .rc, 0, .num⟩
/-- EVT_VOTE.last_channel (R460). -/
def EVT_VOTE.last_channel : Fld := ⟨0xa0020, 16, 2, .ro, 0, .num⟩
/-- EVT_VOTE.resyncing (R460). -/
def EVT_VOTE.resyncing : Fld := ⟨0xa0020, 18, 1, .ro, 0, .num⟩
/-- EVT_VOTE.last_output (R460). -/
def EVT_VOTE.last_output : Fld := ⟨0xa0020, 32, 16, .ro, 0, .num⟩
/-- EVT_FENCE.tile (R460). -/
def EVT_FENCE.tile : Fld := ⟨0xa0040, 0, 2, .ro, 0, .num⟩
/-- EVT_FENCE.die (R460). -/
def EVT_FENCE.die : Fld := ⟨0xa0040, 2, 2, .ro, 0, .num⟩
/-- EVT_FENCE.engine (R460). -/
def EVT_FENCE.engine : Fld := ⟨0xa0040, 4, 2, .ro, 0, .num⟩
/-- EVT_FENCE.since_lo (R460). -/
def EVT_FENCE.since_lo : Fld := ⟨0xa0040, 8, 32, .ro, 0, .num⟩
/-- LNK_CHAR.char (R357). -/
def LNK_CHAR.value : Fld := ⟨0x50000, 0, 64, .ro, 0, .num⟩

/-- Register table, part 0. -/
def regTable0 : List RegDesc :=
  [ ⟨.die, 0x1000c0, [(64, 0x1000), (5, 0x8)], [CORE_ENG_FLAGS.invalid, CORE_ENG_FLAGS.div_zero, CORE_ENG_FLAGS.overflow, CORE_ENG_FLAGS.underflow, CORE_ENG_FLAGS.inexact, CORE_ENG_FLAGS.window_underflow, CORE_ENG_FLAGS.window_overflow, CORE_ENG_FLAGS.scale_clamp, CORE_ENG_FLAGS.first_seq, CORE_ENG_FLAGS.first_valid]⟩,
    ⟨.die, 0x100000, [(64, 0x1000)], [CORE_STATUS.eng_state, CORE_STATUS.leave_state, CORE_STATUS.ramp_level, CORE_STATUS.ctx, CORE_STATUS.ctx_valid]⟩,
    ⟨.die, 0x100008, [(64, 0x1000)], [CORE_LEAVE.idle_release, CORE_LEAVE.grants]⟩,
    ⟨.die, 0x100010, [(64, 0x1000)], [CORE_ECC.corrected, CORE_ECC.uncorrected]⟩,
    ⟨.die, 0x100040, [(64, 0x1000), (8, 0x8)], [CORE_STREAM.base, CORE_STREAM.count]⟩,
    ⟨.die, 0x100080, [(64, 0x1000), (8, 0x8)], [CORE_ENG_STATE.head_seq, CORE_ENG_STATE.fill, CORE_ENG_STATE.last_status]⟩,
    ⟨.die, 0x100100, [(64, 0x1000), (8, 0x8)], [CORE_CPL_CFG.base, CORE_CPL_CFG.log2_size, CORE_CPL_CFG.enable]⟩,
    ⟨.die, 0x100140, [(64, 0x1000), (8, 0x8)], [CORE_CPL_PTR.head, CORE_CPL_PTR.tail, CORE_CPL_PTR.overrun]⟩,
    ⟨.die, 0x100180, [(64, 0x1000), (8, 0x8)], [CORE_BUSY.cycles]⟩,
    ⟨.tile, 0x20000, [], [SEQ_ROLE.role, SEQ_ROLE.lease_held]⟩,
    ⟨.tile, 0x20008, [], [SEQ_EPOCH.epoch]⟩,
    ⟨.tile, 0x20010, [], [SEQ_ADMIT.ctx, SEQ_ADMIT.code, SEQ_ADMIT.tick_lo]⟩ ]

/-- Register table, part 1. -/
def regTable1 : List RegDesc :=
  [ ⟨.tile, 0x20018, [], [SEQ_CHAN_SEL.channel]⟩,
    ⟨.tile, 0x20020, [], [SEQ_CHAN_OCC.held]⟩,
    ⟨.tile, 0x21000, [(64, 0x40)], [SEQ_CTX_STATE.state, SEQ_CTX_STATE.last_reason, SEQ_CTX_STATE.cycles]⟩,
    ⟨.tile, 0x21008, [(64, 0x40)], [SEQ_CTX_START.start]⟩,
    ⟨.tile, 0x21010, [(64, 0x40)], [SEQ_CTX_SLIP.slip_tk, SEQ_CTX_SLIP.slipped_cycles]⟩,
    ⟨.tile, 0x21018, [(64, 0x40)], [SEQ_CTX_OVERRUN.flows, SEQ_CTX_OVERRUN.max_tk]⟩,
    ⟨.tile, 0x21020, [(64, 0x40)], [SEQ_CTX_PREEMPT.preempted_tk, SEQ_CTX_PREEMPT.count]⟩,
    ⟨.tile, 0x20028, [], [SEQ_LEASE.epoch, SEQ_LEASE.expiry_lo]⟩,
    ⟨.tile, 0x20030, [], [SEQ_BEACON.miss_net, SEQ_BEACON.miss_ring, SEQ_BEACON.ready, SEQ_BEACON.copy_seq, SEQ_BEACON.path_faults]⟩,
    ⟨.keeper, 0x40000, [], [KPR_LEASE.holder, KPR_LEASE.held, KPR_LEASE.take_pending, KPR_LEASE.epoch, KPR_LEASE.votes_split]⟩,
    ⟨.keeper, 0x40008, [], [KPR_LEASE_EXP.expiry]⟩,
    ⟨.tile, 0x30000, [], [SYN_STATUS.barriers_held, SYN_STATUS.barriers_active, SYN_STATUS.waiters, SYN_STATUS.watches, SYN_STATUS.vmap]⟩ ]

/-- Register table, part 2. -/
def regTable2 : List RegDesc :=
  [ ⟨.tile, 0x30008, [], [SYN_TIMEOUT_DEF.default_tk]⟩,
    ⟨.tile, 0x30010, [], [SYN_CORE_TIMEOUT.core_tk]⟩,
    ⟨.tile, 0x30018, [], [SYN_DBG_SEL.index, SYN_DBG_SEL.barrier, SYN_DBG_SEL.widx, SYN_DBG_SEL.snap_tick]⟩,
    ⟨.tile, 0x30020, [], [SYN_DBG_OBJ.value, SYN_DBG_OBJ.overflow, SYN_DBG_OBJ.underflow, SYN_DBG_OBJ.held, SYN_DBG_OBJ.ctx, SYN_DBG_OBJ.nwait, SYN_DBG_OBJ.generation]⟩,
    ⟨.tile, 0x30028, [], [SYN_DBG_LAST.unit, SYN_DBG_LAST.signaller, SYN_DBG_LAST.tick_lo]⟩,
    ⟨.tile, 0x30030, [], [SYN_DBG_WAITER.waiter, SYN_DBG_WAITER.take, SYN_DBG_WAITER.valid, SYN_DBG_WAITER.threshold, SYN_DBG_WAITER.reg_tick]⟩,
    ⟨.tile, 0x30038, [], [SYN_TO_LOG.value, SYN_TO_LOG.threshold, SYN_TO_LOG.waiter]⟩,
    ⟨.tile, 0x30040, [], [SYN_COUNTS.overflows, SYN_COUNTS.timeouts]⟩,
    ⟨.die, 0x180000, [(64, 0x200), (48, 0x8)], [SYN_COBJ.value, SYN_COBJ.overflow, SYN_COBJ.waiters, SYN_COBJ.takers, SYN_COBJ.last_engine, SYN_COBJ.last_valid, SYN_COBJ.last_tick]⟩,
    ⟨.tile, 0x40000, [], [MMU_CACHE_CFG.size, MMU_CACHE_CFG.refused]⟩,
    ⟨.tile, 0x40008, [], [MMU_TLB_INV.ctx, MMU_TLB_INV.allCtx, MMU_TLB_INV.start, MMU_TLB_INV.pending, MMU_TLB_INV.active_ctx, MMU_TLB_INV.active_all]⟩,
    ⟨.tile, 0x40010, [], [MMU_BS_ECC.corrected, MMU_BS_ECC.uncorrected]⟩ ]

/-- Register table, part 3. -/
def regTable3 : List RegDesc :=
  [ ⟨.tile, 0x40018, [(2, 0x8)], [MMU_HBM_STAT.temp, MMU_HBM_STAT.mode, MMU_HBM_STAT.uncorrected, MMU_HBM_STAT.corrected]⟩,
    ⟨.tile, 0x40028, [], [MMU_FAULTS.faults, MMU_FAULTS.stray_resumes]⟩,
    ⟨.tile, 0x40100, [(64, 0x8)], [MMU_CTX_ROOT.valid, MMU_CTX_ROOT.root]⟩,
    ⟨.die, 0x1a0000, [(64, 0x80), (2, 0x40)], [DMA_STATE.state, DMA_STATE.desc_index, DMA_STATE.offset]⟩,
    ⟨.die, 0x1a0008, [(64, 0x80), (2, 0x40)], [DMA_FAULT.va, DMA_FAULT.side, DMA_FAULT.cause, DMA_FAULT.ctx]⟩,
    ⟨.die, 0x1a0010, [(64, 0x80), (2, 0x40)], [DMA_RESUME.resume, DMA_RESUME.abandon]⟩,
    ⟨.die, 0x1a0018, [(64, 0x80), (2, 0x40)], [DMA_ERR.code, DMA_ERR.desc_index, DMA_ERR.offset]⟩,
    ⟨.tile, 0x50000, [], [SRV_STATUS.opened, SRV_STATUS.ctx, SRV_STATUS.queued, SRV_STATUS.assembling, SRV_STATUS.stray]⟩,
    ⟨.tile, 0x50008, [], [SRV_SLOTS.occupied]⟩,
    ⟨.tile, 0x50010, [], [SRV_LATE.steps, SRV_LATE.max_tk]⟩,
    ⟨.tile, 0x50018, [], [SRV_IDLE_E.idle_uj]⟩,
    ⟨.d2d, 0x60000, [(10, 0x400)], [D2D_STATUS.state, D2D_STATUS.rate, D2D_STATUS.degraded, D2D_STATUS.repairing, D2D_STATUS.rx_epoch, D2D_STATUS.tx_epoch, D2D_STATUS.rx_good, D2D_STATUS.spare_free, D2D_STATUS.band]⟩ ]

/-- Register table, part 4. -/
def regTable4 : List RegDesc :=
  [ ⟨.d2d, 0x60008, [(10, 0x400)], [D2D_CTL.retrain, D2D_CTL.max_rate, D2D_CTL.repair_en, D2D_CTL.margin_min]⟩,
    ⟨.d2d, 0x60010, [(10, 0x400)], [D2D_DIGEST.rx_digest, D2D_DIGEST.tx_digest]⟩,
    ⟨.d2d, 0x60018, [(10, 0x400)], [D2D_LAT.lat_tk, D2D_LAT.fifo_depth]⟩,
    ⟨.d2d, 0x60020, [(10, 0x400)], [D2D_COUNTS.errored, D2D_COUNTS.repairs, D2D_COUNTS.trainings, D2D_COUNTS.downs]⟩,
    ⟨.d2d, 0x60028, [(10, 0x400)], [D2D_MARGIN.lane, D2D_MARGIN.margin, D2D_MARGIN.valid]⟩,
    ⟨.d2d, 0x60100, [(10, 0x400), (17, 0x8)], [D2D_BADMAP.bad]⟩,
    ⟨.toe, 0x70000, [(8, 0x100)], [TOE_STATUS.safety, TOE_STATUS.stage, TOE_STATUS.mode, TOE_STATUS.lock_state, TOE_STATUS.tx_width, TOE_STATUS.rx_width, TOE_STATUS.tx_epoch, TOE_STATUS.rx_epoch, TOE_STATUS.ext, TOE_STATUS.light, TOE_STATUS.lit_rx]⟩,
    ⟨.toe, 0x70008, [(8, 0x100)], [TOE_CTL.enable, TOE_CTL.ext_reach, TOE_CTL.restart, TOE_CTL.margin_min]⟩,
    ⟨.toe, 0x70010, [(8, 0x100)], [TOE_TX_MAP.role]⟩,
    ⟨.toe, 0x70018, [(8, 0x100)], [TOE_RX_MAP.role]⟩,
    ⟨.toe, 0x70020, [(8, 0x100)], [TOE_LANE_SEL.lambda]⟩,
    ⟨.toe, 0x70028, [(8, 0x100)], [TOE_LANE_FEC.corrected, TOE_LANE_FEC.uncorrectable]⟩ ]

/-- Register table, part 5. -/
def regTable5 : List RegDesc :=
  [ ⟨.toe, 0x70030, [(8, 0x100)], [TOE_LANE_ANA.rx_power, TOE_LANE_ANA.margin, TOE_LANE_ANA.valid, TOE_LANE_ANA.bias, TOE_LANE_ANA.bias_ceiling, TOE_LANE_ANA.retired]⟩,
    ⟨.toe, 0x70038, [(8, 0x100)], [TOE_LANE_DRV.lvl, TOE_LANE_DRV.pre, TOE_LANE_DRV.post, TOE_LANE_DRV.stale]⟩,
    ⟨.toe, 0x70040, [(8, 0x100)], [TOE_COUNTS.bringups, TOE_COUNTS.failures, TOE_COUNTS.safety_drops]⟩,
    ⟨.toe, 0x70048, [(8, 0x100)], [TOE_WCTL.cal_thr, TOE_WCTL.cal_en, TOE_WCTL.fade_en, TOE_WCTL.fec_thr]⟩,
    ⟨.toe, 0x70050, [(8, 0x100)], [TOE_RING.tx_heater, TOE_RING.tx_lock, TOE_RING.rx_heater, TOE_RING.rx_lock, TOE_RING.rx_ident, TOE_RING.relocks, TOE_RING.losses]⟩,
    ⟨.toe, 0x70058, [(8, 0x100)], [TOE_CAL.tx_temp, TOE_CAL.rx_temp, TOE_CAL.due, TOE_CAL.running, TOE_CAL.calibrated, TOE_CAL.rejects, TOE_CAL.runs]⟩,
    ⟨.toe, 0x70060, [(8, 0x100)], [TOE_FADE.bias_mean, TOE_FADE.slope, TOE_FADE.hours_left, TOE_FADE.triggered]⟩,
    ⟨.toe, 0x70068, [(8, 0x100)], [TOE_SPARE.tx_free, TOE_SPARE.rx_free, TOE_SPARE.rx_action, TOE_SPARE.switches, TOE_SPARE.emergencies, TOE_SPARE.fades, TOE_SPARE.aborts]⟩,
    ⟨.tile, 0x80000, [(8, 0x100)], [LNK_STATUS.state, LNK_STATUS.ext, LNK_STATUS.minor, LNK_STATUS.major, LNK_STATUS.epoch]⟩,
    ⟨.tile, 0x80008, [(8, 0x100)], [LNK_CTL.down, LNK_CTL.train, LNK_CTL.hold]⟩,
    ⟨.tile, 0x80010, [(8, 0x100)], [LNK_PEER.pod, LNK_PEER.pkg, LNK_PEER.link, LNK_PEER.features]⟩,
    ⟨.tile, 0x80018, [(8, 0x100)], [LNK_RTT.rtt_tk, LNK_RTT.timeout_tk]⟩ ]

/-- Register table, part 6. -/
def regTable6 : List RegDesc :=
  [ ⟨.tile, 0x80020, [(8, 0x100)], [LNK_OWN_CHAR.value]⟩,
    ⟨.tile, 0x80028, [(8, 0x100)], [LNK_PEER_CHAR.value]⟩,
    ⟨.tile, 0x80030, [(8, 0x100)], [LNK_FLITS.accepted]⟩,
    ⟨.tile, 0x80038, [(8, 0x100)], [LNK_COUNTS.replays, LNK_COUNTS.crc_fails, LNK_COUNTS.discards, LNK_COUNTS.downs, LNK_COUNTS.quarantines]⟩,
    ⟨.tile, 0x80040, [(8, 0x100)], [LNK_ERR.cause, LNK_ERR.ptype, LNK_ERR.pcheck, LNK_ERR.tick_lo]⟩,
    ⟨.port, 0x10000, [], [HPT_STATUS.link_up, HPT_STATUS.fec_lock, HPT_STATUS.phy, HPT_STATUS.an_done, HPT_STATUS.claimed, HPT_STATUS.qps, HPT_STATUS.mrs]⟩,
    ⟨.port, 0x10008, [], [HPT_CFG.pfc_roce, HPT_CFG.pfc_ecp, HPT_CFG.dscp_roce, HPT_CFG.dscp_ecp, HPT_CFG.ecp_port, HPT_CFG.vid, HPT_CFG.tagged]⟩,
    ⟨.port, 0x10010, [], [HPT_MAC.mac]⟩,
    ⟨.port, 0x10018, [], [HPT_ECP_DROP.len, HPT_ECP_DROP.fmt, HPT_ECP_DROP.auth, HPT_ECP_DROP.replay]⟩,
    ⟨.port, 0x10020, [], [HPT_FRAMES.ip_frag, HPT_FRAMES.other, HPT_FRAMES.pause, HPT_FRAMES.hello]⟩,
    ⟨.port, 0x10028, [], [HPT_FEC.corrected, HPT_FEC.uncorrectable]⟩,
    ⟨.port, 0x10030, [], [HPT_ROCE.naks, HPT_ROCE.icrc, HPT_ROCE.cnp, HPT_ROCE.ce]⟩ ]

/-- Register table, part 7. -/
def regTable7 : List RegDesc :=
  [ ⟨.port, 0x10038, [], [HPT_PFC.xoff_sent, HPT_PFC.xoff_received]⟩,
    ⟨.keeper, 0xb0000, [], [PWR_MODE.mode, PWR_MODE.point, PWR_MODE.boost_en, PWR_MODE.refused]⟩,
    ⟨.keeper, 0xb0008, [], [PWR_CAP.cap_w, PWR_CAP.window]⟩,
    ⟨.keeper, 0xb0010, [], [PWR_INPUT.mv, PWR_INPUT.p100_w, PWR_INPUT.p1ms_w, PWR_INPUT.pw_w]⟩,
    ⟨.keeper, 0xb0018, [], [PWR_STATUS.capping, PWR_STATUS.guard, PWR_STATUS.input_low, PWR_STATUS.guard_trips, PWR_STATUS.cap_ms]⟩,
    ⟨.keeper, 0xb0020, [], [PWR_RECON.factor, PWR_RECON.source, PWR_RECON.out_of_range]⟩,
    ⟨.keeper, 0xb0100, [(64, 0x8)], [PWR_CTX_E.energy_uj]⟩,
    ⟨.die, 0x1c0000, [], [PWR_DIE.point, PWR_DIE.target, PWR_DIE.n_act, PWR_DIE.held_vf, PWR_DIE.held_th, PWR_DIE.di_ma100, PWR_DIE.n_max]⟩,
    ⟨.die, 0x1c0008, [], [PWR_STEWARD.holders, PWR_STEWARD.rising, PWR_STEWARD.falling, PWR_STEWARD.pending, PWR_STEWARD.revokes, PWR_STEWARD.paced_ms]⟩,
    ⟨.die, 0x1c0010, [], [PWR_DROOP.stretches, PWR_DROOP.cycles, PWR_DROOP.reversals]⟩,
    ⟨.tile, 0x90000, [], [THM_STATUS.band_die, THM_STATUS.band_tile, THM_STATUS.band_toe, THM_STATUS.max_die, THM_STATUS.max_laser, THM_STATUS.faulty, THM_STATUS.darkened, THM_STATUS.alarms]⟩,
    ⟨.tile, 0x90008, [], [THM_SEL.index]⟩ ]

/-- Register table, part 8. -/
def regTable8 : List RegDesc :=
  [ ⟨.tile, 0x90010, [], [THM_SENSOR.temp, THM_SENSOR.raw, THM_SENSOR.rate, THM_SENSOR.faulty, THM_SENSOR.valid]⟩,
    ⟨.met, 0x0, [], [MET_STATUS.present, MET_STATUS.sealed, MET_STATUS.fault, MET_STATUS.leaves_low, MET_STATUS.leaves_used, MET_STATUS.record_no]⟩,
    ⟨.met, 0x8, [], [MET_TOTAL.total_mj]⟩,
    ⟨.met, 0x10, [], [MET_SECOND.second, MET_SECOND.energy_mj]⟩,
    ⟨.met, 0x18, [], [MET_INPUT.mv, MET_INPUT.ma, MET_INPUT.w]⟩,
    ⟨.met, 0x20, [], [MET_REFUSED.port, MET_REFUSED.mirror]⟩,
    ⟨.keeper, 0x80000, [], [CFG_BOOT.stage, CFG_BOOT.code, CFG_BOOT.retried, CFG_BOOT.tiles, CFG_BOOT.degraded, CFG_BOOT.ready_ms]⟩,
    ⟨.keeper, 0x80008, [], [CFG_ID.variant, CFG_ID.stepping, CFG_ID.sec_fused, CFG_ID.root_slot, CFG_ID.revoked, CFG_ID.schema]⟩,
    ⟨.keeper, 0x80010, [], [CFG_SERIAL_LO.serial]⟩,
    ⟨.keeper, 0x80018, [], [CFG_SERIAL_HI.serial]⟩,
    ⟨.keeper, 0x80020, [], [CFG_IDKEY.next_leaf, CFG_IDKEY.low, CFG_IDKEY.exhausted, CFG_IDKEY.next_ready]⟩,
    ⟨.keeper, 0x80100, [(4, 0x20), (4, 0x8)], [CFG_DIGEST.bytes]⟩ ]

/-- Register table, part 9. -/
def regTable9 : List RegDesc :=
  [ ⟨.keeper, 0xa0000, [], [EVT_STATUS.late, EVT_STATUS.suppressed, EVT_STATUS.safe_stop, EVT_STATUS.reset_refused, EVT_STATUS.overrun]⟩,
    ⟨.keeper, 0xa0008, [], [EVT_LOG_PTR.head, EVT_LOG_PTR.tail]⟩,
    ⟨.keeper, 0xa0010, [], [EVT_CTL.fwd_mask, EVT_CTL.suppress_en]⟩,
    ⟨.keeper, 0xa0018, [], [EVT_RESET.level, EVT_RESET.unit, EVT_RESET.core, EVT_RESET.start]⟩,
    ⟨.keeper, 0xa0020, [], [EVT_VOTE.dissents, EVT_VOTE.last_channel, EVT_VOTE.resyncing, EVT_VOTE.last_output]⟩,
    ⟨.keeper, 0xa0040, [(8, 0x8)], [EVT_FENCE.tile, EVT_FENCE.die, EVT_FENCE.engine, EVT_FENCE.since_lo]⟩,
    ⟨.keeper, 0x50000, [], [LNK_CHAR.value]⟩ ]

/-- Every register the chapters give (R4). -/
def regTable : List RegDesc :=
  regTable0 ++ regTable1 ++ regTable2 ++ regTable3 ++ regTable4 ++ regTable5 ++ regTable6 ++ regTable7 ++ regTable8 ++ regTable9

end Sys2Proof.Machine
end

