-- ==== Sys2Proof/Machine/Ops.lean ====
section
/-!
DEFINITION. The operations every family shares: units and the grid, register fields, free values, CRC, events and
their precedence, messages sent, and bytes of the address spaces.
-/

namespace Sys2Proof.Machine

abbrev Out := Host.Outcome State Fault Refusal

/-! ### Units and the grid (R5, R14 to R18) -/

def uTile (t : Nat) : Nat := 0x10 + t
def uDie (d : Nat) : Nat := 0x20 + d
def uToe (e : Nat) : Nat := 0x30 + e
def uPort (p : Nat) : Nat := 0x40 + p

/-- Tiles of the variant, grid columns, links (Table 0-1, R14). -/
def State.nTiles (s : State) : Nat := s.fuses.tiles
def State.cols (s : State) : Nat := s.fuses.tiles / 2
def State.nLinks (s : State) : Nat := s.fuses.tiles * 8

/-- Tile of a host port (R17). -/
def State.portTile (s : State) (p : Nat) : Nat := if p = 0 then 0 else s.cols

/-- Tile position of a unit; `none` for the keeper and the mirror. -/
def State.posOf (s : State) (u : Nat) : Option Nat :=
  if u / 16 = 1 ∨ u / 16 = 2 ∨ u / 16 = 3 then some (u % 16)
  else if u = 0x40 then some 0 else if u = 0x41 then some s.cols else none

/-- The neighbour through an edge port (R14, R15). -/
def State.neighbour (s : State) (t : Nat) (p : Port) : Option Nat :=
  let c := s.cols
  match p with
  | .n => if t ≥ c then some (t - c) else none
  | .s => if t < c then some (t + c) else none
  | .e => if t % c + 1 < c then some (t + 1) else none
  | .w => if t % c > 0 then some (t - 1) else none

/-- Package limit, electrical peak, and range of the cap, in W (Table 0-3). -/
def State.limitW (s : State) : Nat := if s.nTiles = 2 then 1150 else if s.nTiles = 4 then 2200 else 4200
def State.peakW (s : State) : Nat := if s.nTiles = 2 then 1400 else if s.nTiles = 4 then 2600 else 5000
def State.capMin (s : State) : Nat := if s.nTiles = 2 then 550 else if s.nTiles = 4 then 1050 else 2000

/-! ### Register fields -/

/-- The place of a field in the register file; `d` is the offset of the repetition. -/
def regKey (u : Nat) (f : Fld) (d : Nat) : Nat := (u * 2 ^ 40 + f.off + d) * 64 + f.lo

/-- The value of a field. -/
def State.rg (s : State) (u : Nat) (f : Fld) (d : Nat := 0) : Nat := mget s.regs (regKey u f d) f.rst

/-- `s` with a field set, to its width; what was sensed of it in this tick is settled with that. -/
def State.rs (s : State) (u : Nat) (f : Fld) (v : Nat) (d : Nat := 0) : State :=
  { s with regs := mput s.regs (regKey u f d) (v % 2 ^ f.w), fresh := mdel s.fresh (regKey u f d) }

/-- What a W1C or RC field held before the tick, and what hardware has added to it in the tick (R9). -/
def State.sensed (s : State) (u : Nat) (f : Fld) (d : Nat := 0) : Nat × Nat := mget s.fresh (regKey u f d) (s.rg u f d, 0)

/-- `s` with a field set by hardware to `v`, where what was added to it in this tick is now `n`: a clear that the event races leaves
that much (R9). -/
def State.hw (s : State) (u : Nat) (f : Fld) (v n : Nat) (d : Nat := 0) : State :=
  { s with
    regs := mput s.regs (regKey u f d) (v % 2 ^ f.w)
    fresh := if f.acc = .rc ∨ f.acc = .w1c then mput s.fresh (regKey u f d) ((s.sensed u f d).1, n % 2 ^ f.w)
      else mdel s.fresh (regKey u f d) }

/-- The sum of two counts, at most the largest that a field holds. -/
def satAdd (f : Fld) (a b : Nat) : Nat := min (a + b) (2 ^ f.w - 1)

/-- `s` with a counter raised, saturating at its width; a one-bit field is set. -/
def State.rinc (s : State) (u : Nat) (f : Fld) (n : Nat) (d : Nat := 0) : State :=
  s.hw u f (satAdd f (s.rg u f d) n) (satAdd f (s.sensed u f d).2 n) d

/-- `s` with a field that keeps a maximum raised to `v`, saturating at its width. -/
def State.rmax (s : State) (u : Nat) (f : Fld) (v : Nat) (d : Nat := 0) : State :=
  s.hw u f (satAdd f (Nat.max (s.rg u f d) v) 0) (satAdd f (Nat.max (s.sensed u f d).2 v) 0) d

/-- A clear of a W1C or RC field: what hardware put there in this tick stays, and is all that a second clear of the tick would
find new (R9). -/
def State.clr (s : State) (u : Nat) (f : Fld) (d : Nat := 0) : State :=
  { s with
    regs := mput s.regs (regKey u f d) (s.sensed u f d).2
    fresh := mput s.fresh (regKey u f d) (0, (s.sensed u f d).2) }

/-- `s` with a counter raised, modulo its width. -/
def State.radd (s : State) (u : Nat) (f : Fld) (n : Nat) (d : Nat := 0) : State := s.rs u f (s.rg u f d + n) d

/-- The repetition offset of selected views (a wavelength, a lane, a sensor): they lie beyond the management space. -/
def win (i : Nat) : Nat := (i + 1) * 2 ^ 48

/-- The address of an offset of a unit in management space (R4). -/
def mgmtAddr (u o : Nat) : Nat := u * 2 ^ 40 + o

/-- The unit of a register-file key. -/
def keyUnit (k : Nat) : Nat := k / 64 / 2 ^ 40 % 256

/-- `s` with every register of a unit back at its reset value (R8). -/
def State.resetRegs (s : State) (u : Nat) : State :=
  { s with regs := s.regs.filter (fun p => keyUnit p.1 != u), fresh := s.fresh.filter (fun p => keyUnit p.1 != u) }

/-- Offsets of repeated blocks. -/
def dCore (c : Nat) : Nat := c * 0x1000
def dEng (c e : Nat) : Nat := c * 0x1000 + e * 8
def dDma (c e : Nat) : Nat := c * 0x80 + (e - 5) * 0x40
def dObj (c i : Nat) : Nat := c * 0x200 + i * 8
def dCtx (c : Nat) : Nat := c * 0x40
def dLink (l : Nat) : Nat := l % 8 * 0x100

/-- The contexts' SEQ registers have one home, whatever tile holds the lease; a read on another tile gives 0 (R150). -/
def seqHome : Nat := 0xE0
def State.cg (s : State) (f : Fld) (c : Nat) : Nat := s.rg seqHome f (dCtx c)
def State.cs (s : State) (f : Fld) (c v : Nat) : State := s.rs seqHome f v (dCtx c)

/-- `s` with the completion of an access recorded (R6). -/
def State.accessDone (s : State) (a : Nat) (good : Bool) : State := { s with answers := s.answers ++ [(a, good)] }

/-! ### Records by number -/

def engKey (die core e : Nat) : Nat := die * 512 + core * 8 + e
def coreKey (die core : Nat) : Nat := die * 64 + core

def State.eng (s : State) (k : Nat) : Eng := mget s.engs k {}
def State.setEng (s : State) (k : Nat) (e : Eng) : State := { s with engs := mput s.engs k e }
def State.core (s : State) (k : Nat) : CoreSt := mget s.cores k {}
def State.setCore (s : State) (k : Nat) (c : CoreSt) : State := { s with cores := mput s.cores k c }
def State.hub (s : State) (t : Nat) : Hub := mget s.hubs t {}
def State.setHub (s : State) (t : Nat) (h : Hub) : State := { s with hubs := mput s.hubs t h }
def State.ctx (s : State) (c : Nat) : Ctx := mget s.ctxs c {}
def State.setCtx (s : State) (c : Nat) (x : Ctx) : State := { s with ctxs := mput s.ctxs c x }
def State.seq (s : State) (t : Nat) : SeqSt := mget s.seqs t {}
def State.setSeq (s : State) (t : Nat) (x : SeqSt) : State := { s with seqs := mput s.seqs t x }

/-- `s` with each of a list of things done to it in order. -/
def State.each {α : Type} (s : State) (l : List α) (f : State → α → State) : State := l.foldl f s

/-! ### Modules (R13, R15, R258) -/

/-- The offset of a module's register block. -/
def dMod (m : Nat) : Nat := 0x400 * m

/-- The other side of a module; `none` where the grid leaves it unconnected (R13, R15, R258). -/
def State.otherSide (s : State) (u m : Nat) : Option (Nat × Nat) :=
  if u = 0 then (if m = 0 then some (uTile 0, 9) else if m = 1 then some (uTile s.cols, 9) else none)
  else if u / 16 = 3 then (if m = 0 then some (uTile (u % 16), 8) else none)
  else if u / 16 = 1 then
    let t := u % 16
    let edge := fun (p : Port) (m' : Nat) => (s.neighbour t p).map (fun n => (uTile n, m'))
    if m < 2 then edge .n (m + 4)
    else if m < 4 then edge .e (m + 4)
    else if m < 6 then edge .s (m - 4)
    else if m < 8 then edge .w (m - 4)
    else if m = 8 then some (uToe t, 0)
    else if m = 9 then (if t = 0 then some (0, 0) else if t = s.cols then some (0, 1) else none)
    else none
  else none

/-- A keeper narrow module (Table 9-1). -/
def narrowMod (u m : Nat) : Bool := u == 0 || (u / 16 == 1 && m == 9)

/-! ### Presence (R36, EVT_FENCE) -/

def State.tileSt (s : State) (t : Nat) : Nat := s.rg 0 EVT_FENCE.tile (8 * t)
def State.dieSt (s : State) (t : Nat) : Nat := s.rg 0 EVT_FENCE.die (8 * t)
def State.toeSt (s : State) (t : Nat) : Nat := s.rg 0 EVT_FENCE.engine (8 * t)

def State.tileUp (s : State) (t : Nat) : Bool := t < s.nTiles && s.tileSt t == 1
def State.dieUp (s : State) (t : Nat) : Bool := s.tileUp t && s.dieSt t == 1
def State.toeUp (s : State) (t : Nat) : Bool := s.tileUp t && s.toeSt t == 1

/-- A change of EVT_FENCE, with its tick. -/
def State.setFence (s : State) (t : Nat) (f : Fld) (v : Nat) : State :=
  (s.rs 0 f v (8 * t)).rs 0 EVT_FENCE.since_lo s.tick (8 * t)

/-- Does a unit answer (R6, R8)? -/
def State.unitUp (s : State) (u : Nat) : Bool :=
  if u = 0 ∨ u = 0xF0 then true
  else if u / 16 = 1 then s.tileUp (u % 16)
  else if u / 16 = 2 then s.dieUp (u % 16)
  else if u / 16 = 3 then s.toeUp (u % 16)
  else if u = 0x40 then s.tileUp 0
  else if u = 0x41 then s.tileUp s.cols
  else false

/-! ### The part as a whole -/

/-- The part is powered, out of reset, and not shut down. -/
def State.running (s : State) : Bool := s.boot.awake && s.boot.high && s.pwr.down == .up

/-- The boot stage (Table 16-5). -/
def State.stage (s : State) : Nat := s.rg 0 CFG_BOOT.stage

/-! ### The happenings of one tick (R29, R201, R445; log 7): all commands that wait happen in the same tick -/

/-- Some command that still waits in this tick is one that `p` picks. -/
def State.soon (s : State) (p : Instr → Bool) : Bool := (s.pending ++ s.later).any p

/-- The tile of a link (R16). -/
def linkTile (l : Nat) : Nat := l / 8

/-- The turn of an event of a class and a unit; `k` orders the codes of one unit (R445). -/
def evTurn (prec unit k : Nat) : Nat := 1000 * prec + 3 * unit + k

/-- The turn of a command in its tick: by the precedence of the event that it is (Table 17-3), a thousand to a class, and by its unit; within
the classes as Tables 5-5, 4-12 and 6-11 ask. A command that is no event has the turn 7000, before the settle. -/
def rankOf (i : Instr) : Nat :=
  match i with
  | .pkgRstNFall => 0
  | .thermalTrip _ _ => 1000
  | .supplyFault _ _ => evTurn 2 0 0
  | .tileRailFault t => evTurn 2 (uTile t) 0
  | .inputFallsBelow36V _ => evTurn 2 0 1
  | .voteDissent _ _ => evTurn 3 0 0
  | .resynchronisationEnd _ => evTurn 3 0 1
  | .epochAnnouncement _ _ => 4000
  | .beacon _ _ => 4001
  | .copyRecord _ _ => 4002
  | .leaseExpiry => 4003
  | .beaconCheck _ _ => 4004
  | .take _ => 4005
  | .arbitrate _ _ => 4006
  | .grant => 4007
  | .noLeaseTimeout _ => 4008
  | .packageWarmReset _ => evTurn 5 0 0
  | .referenceClockLoss => evTurn 5 0x10 0
  | .tickLineLoss t => evTurn 5 (uTile t) 0
  | .healthPoll _ => evTurn 5 0x10 1
  | .allModulesDown t => evTurn 5 (uTile t) 1
  | .tileReset u => evTurn 5 u 2
  | .dieClockLoss u => evTurn 5 u 0
  | .computeDieReset u => evTurn 5 u 1
  | .opticalEngineReset u => evTurn 5 u 1
  | .coreReset u _ => evTurn 5 u 2
  | .forwardedClockLoss u _ _ => evTurn 6 u 0
  | .litCheck l => evTurn 6 (uToe (linkTile l)) 0
  | .linkDown f _ => evTurn 6 (uTile (linkTile f.link)) 1
  | .lnkCtlDown l => evTurn 6 (uTile (linkTile l)) 1
  | .hourlyMean _ n => 7010 + n
  | .fecWindow _ n => 7010 + n
  | .emergencyReplacement _ n => 7010 + n
  | .replayTimeout _ => 7200
  | .settle _ => 7500
  | .coreObjectSettle _ => 7500
  | .waiterTimeout _ _ _ => 8000
  | .portTimeout _ => 8100
  | .controlTick => evTurn 10 0 0
  | .leaveGrant _ => 10900
  | .stageBound => 7300
  | .intervalEnd => 7300
  | .reconciliation _ => 11000
  | .cycleDone _ => 11000
  | .rdmaWrite _ _ => 11500
  | .rdmaRead _ _ _ => 11500
  | .send _ _ => 11500
  | .admissionEvaluation _ _ => 12000
  | .trstN => 13000
  | _ => 7000

/-- A command of the same tick comes before this one. -/
def State.yields (s : State) (i : Instr) : Bool := s.soon (fun j => decide (rankOf j < rankOf i))

/-- A command takes its place among those put off. -/
def insertLater (i : Instr) : List Instr → List Instr
  | [] => [i]
  | j :: l => if rankOf i < rankOf j then i :: j :: l else j :: insertLater i l

/-- A command in its turn: put off while a command that comes before it still waits in the tick. -/
def State.inTurn (s : State) (i : Instr) (f : State → Out) : Out :=
  if s.yields i then .next { s with later := insertLater i s.later } else f s

/-! ### Free values and undefined memory -/

/-- A free value, and the state with the counter past it. -/
def State.free (s : State) : Nat × State := (Config.freeNat s.freeCtr, { s with freeCtr := s.freeCtr + 1 })

/-- `s` with a range of memory undefined. -/
def State.scramble (s : State) (base len : Nat) : State :=
  if len = 0 then s
  else { s with mem := s.mem.scramble base len s.freeCtr, freeCtr := s.freeCtr + 1 }

def State.writeMem (s : State) (a : Nat) (bs : List Byte) : State := { s with mem := s.mem.writes a bs }

/-! ### CRC-16-CCITT (R483) -/

def crcBit (r : Nat) (b : Bool) : Nat :=
  let x := (r / 2 ^ 15 % 2 == 1) != b
  let r2 := r * 2 % 2 ^ 16
  if x then r2 ^^^ 0x1021 else r2

def crcByte (r : Nat) (b : Byte) : Nat :=
  [7, 6, 5, 4, 3, 2, 1, 0].foldl (fun r i => crcBit r (b.toNat / 2 ^ i % 2 == 1)) r

def crc16 (bs : List Byte) : Nat := bs.foldl crcByte 0xFFFF

/-! ### Events (R442 to R446) -/

/-- The precedence of a code (Table 17-3). -/
def precOf (code : Nat) : Nat :=
  if code = 0x1001 then 1
  else if 0x2001 ≤ code ∧ code ≤ 0x2004 then 2
  else if code = 0xA060 ∨ code = 0xA061 then 3
  else if code ∈ [0x9400, 0x9401, 0x9402, 0x9406] then 4
  else if code ∈ [0x5020, 0x5021, 0x5022, 0x5030, 0x5031, 0x5041] then 5
  else if code ∈ [0x5002, 0x5005, 0x5006, 0x6001, 0x6002, 0x7001, 0x7010, 0x7020] then 6
  else if code ∈ [0x4100, 0x4101, 0x4102, 0x4200, 0x4210, 0x4300] then 7
  else if (0x3010 ≤ code ∧ code ≤ 0x3014) ∨ code ∈ [0x3020, 0x9100, 0x9101, 0x9110] then 8
  else if code ∈ [0x5003, 0x5004, 0x5007, 0x5008, 0x6003, 0x6004] ∨ (0x6010 ≤ code ∧ code ≤ 0x6014) ∨
      (0x6016 ≤ code ∧ code ≤ 0x6018) then 9
  else if code ∈ [0x1011, 0x1012, 0x1020, 0x1021, 0x1030, 0x2020, 0x2021] then 10
  else 11

/-- Family of a code (R443). -/
def familyOf (code : Nat) : Nat := code / 2 ^ 12 % 16

/-- An event raised now: sampled in this tick, and sent towards the keeper; the keeper's own are held at once (R446). -/
def State.raise (s : State) (code unit : Nat) (object waiter detail : Nat := 0) (subsumed : Bool := false) : State :=
  let r : EvRec :=
    { tick := s.tick, code := code, unit := unit, prec := precOf code, subsumed := subsumed,
      object := object, waiter := waiter, detail := detail }
  if unit = 0 ∨ unit = 0xF0 then { s with ev := { s.ev with held := s.ev.held ++ [r] } }
  else { s with ev := { s.ev with travel := s.ev.travel ++ [r] } }

/-! Objects that end, for the rule of subsumption (R445): units by their IDs, and beyond them cores, links, modules, contexts,
transfers. -/

def oCore (die core : Nat) : Nat := 0x1000 + coreKey die core
def oLink (l : Nat) : Nat := 0x2000 + l
def oModule (u m : Nat) : Nat := 0x3000 + u * 16 + m
def oCtx (c : Nat) : Nat := 0x5000 + c
def oEng (k : Nat) : Nat := 0x6000 + k
def oPackage : Nat := 0x7000

/-- The object ended in this tick. -/
def State.endedNow (s : State) (o : Nat) : Bool := mget s.downAt o 0 == s.tick + 1

def State.markEnd (s : State) (o : Nat) : State := { s with downAt := mput s.downAt o (s.tick + 1) }

/-- A unit, or one that contains it, was shut down, lost, reset or fenced in this tick (R445). -/
def State.unitEnded (s : State) (u : Nat) : Bool :=
  s.endedNow oPackage || s.endedNow u ||
  (match s.posOf u with
   | some t => s.endedNow (uTile t)
   | none => false)

/-! ### Energy (R401, Table 14-8): terms 0 to 2 matrix by operand group, 3 dummy operands, 4 vector, 5 to 9 DMA by path, 10 HBM, 11 refresh,
12 flits, 13 static. -/

/-- The clock of an operating point, in 50 MHz (Table 14-2). -/
def point50 (p : Nat) : Nat := if p ≤ 9 then 12 + 2 * p else 21 + p

/-- The account of the package. -/
def acctPkg : Nat := 64

def State.coefOf (s : State) (die term : Nat) : Nat :=
  mget s.fuses.coefs (((die * 16 + s.rg (uDie die) PWR_DIE.point) * 4 + s.rg (uTile die) THM_STATUS.band_die) * 16 + term) 0

/-- `n` counts of a term at a position, for an account: the model's energy, and the attribution times f (R402). -/
def State.charge (s : State) (acct die term n : Nat) : State :=
  let e := n * s.coefOf die term
  if e = 0 then s
  else { s with energy := { s.energy with
    model := s.energy.model + e
    acct := mput s.energy.acct acct (mget s.energy.acct acct 0 + e * s.energy.f) } }

/-- The account of a core's context. -/
def State.coreAcct (s : State) (ck : Nat) : Nat := (s.core ck).ctx.getD acctPkg

/-! ### Messages sent -/

/-! The sending side of a link (R337, R340). -/

def State.link (s : State) (l : Nat) : Lnk := mget s.links l {}
def State.setLink (s : State) (l : Nat) (x : Lnk) : State := { s with links := mput s.links l x }

def State.lg (s : State) (l : Nat) (f : Fld) : Nat := s.rg (uTile (linkTile l)) f (dLink l)
def State.ls (s : State) (l : Nat) (f : Fld) (v : Nat) : State := s.rs (uTile (linkTile l)) f v (dLink l)
def State.linc (s : State) (l : Nat) (f : Fld) (n : Nat) : State := s.rinc (uTile (linkTile l)) f n (dLink l)

/-- Receive entries of a virtual channel (Table 12-4). -/
def vcEntries (vc : Nat) : Nat := if vc = 0 then 1280 else if vc = 1 then 512 else if vc = 2 then 192 else 64

def listSet (l : List Nat) (i v : Nat) : List Nat := l.set i v
def listAt (l : List Nat) (i : Nat) : Nat := l.getD i 0

/-- Differences of sequence numbers (R340). -/
def seqDiff (a b : Nat) : Nat := (a + 2 ^ 16 - b % 2 ^ 16) % 2 ^ 16

/-- May a new flit of `vc` be sent: credit (R337) and window (R340)? -/
def Lnk.maySend (k : Lnk) (vc : Nat) (ext : Bool) : Bool :=
  listAt k.sent vc - listAt k.freed vc < vcEntries vc &&
  seqDiff k.next k.oldest < (if ext && vc != 3 then 1984 else 2048)

/-- The replay timeout of a link (R343). -/
def tauOf (rtt : Nat) : Nat := Nat.max (3 * rtt) 200

/-- The header of the next flit, and the link with it sent: an ack that is due, or on every other IDLE; else the credit whose turn it is
(R338, R341). -/
def Lnk.header (k : Lnk) (idle : Bool := false) : List Nat × Lnk :=
  let k' := if idle then { k with idleAck := !k.idleAck } else k
  if k.ackDue ∨ (idle ∧ k.idleAck) then ([0, k.expect % 2 ^ 12], { k' with ackDue := false, accSince := 0, ackFrom := none })
  else ([1, k.turn, listAt k.rfreed k.turn % 2 ^ 11],
    { k' with turn := (k.turn + 1) % 4, told := listSet k.told k.turn (listAt k.rfreed k.turn) })

/-- Hand a message to a link: it waits for its position (R339). Types 0x00 to 0x03 are unsequenced (R335); the others travel only on a
link that carries their channel (Table 12-6). -/
def State.sendLink (s : State) (l type : Nat) (args : List Nat) (data : List Byte := []) (vc : Nat := 3) (ctx : Nat := 64) : State :=
  let k := s.link l
  let st := s.lg l LNK_STATUS.state
  let m : LinkMsg := { link := l, type := type, args := args, data := data, vc := vc, ctx := ctx }
  if type ≤ 3 then s.setLink l { k with uq := k.uq ++ [m] }
  else if st = 2 ∨ (st = 3 ∧ 2 ≤ vc) then s.setLink l { k with queue := k.queue ++ [m] }
  else s

/-- What a host port sends leaves at once, or waits while the peer pauses its priority (R360). -/
def State.hpt (s : State) (p : Nat) : HptSt := mget s.ports p {}
def State.setHpt (s : State) (p : Nat) (x : HptSt) : State := { s with ports := mput s.ports p x }

/-- What the codewords of a received frame met is counted (R358). -/
def State.countFec (s : State) (port : Nat) (r : RxFrame) : State :=
  (s.rinc (uPort port) HPT_FEC.corrected r.corrected).rinc (uPort port) HPT_FEC.uncorrectable r.uncorrectable

/-- The light list's entry of a port (R359). -/
def State.portCfg (s : State) (port : Nat) : PortCfg := mget s.light.ports port {}

/-- The first `len` bits of an address of `n` bytes, which stand in its number from the lowest byte on. -/
def netBits (n len ip : Nat) : Nat := unle ((le n ip).reverse) / 2 ^ (8 * n - len)

/-- The address to which a frame for `ip` goes on the link: its own, if on-link, else the gateway's (R359). An IPv4 address stands in the first
four bytes, with zeros after it. -/
def State.hopOf (s : State) (port ip : Nat) : Nat :=
  let c := s.portCfg port
  if ip < 2 ^ 32 then (if netBits 4 c.len4 ip = netBits 4 c.len4 c.ip4 then ip else c.gw4)
  else if netBits 16 c.len6 ip = netBits 16 c.len6 c.ip6 then ip else c.gw6

/-- How a frame of a class leaves a port: class 0 RoCEv2, 1 ECP, 2 all other traffic (R359, R360, R377). -/
def State.wireOf (s : State) (port cls ip : Nat) : Wire :=
  let u := uPort port
  { hop := s.hopOf port ip
    vid := if s.rg u HPT_CFG.tagged = 1 then some (s.rg u HPT_CFG.vid) else none
    pcp := if cls = 0 then some (s.rg u HPT_CFG.pfc_roce) else if cls = 1 then some (s.rg u HPT_CFG.pfc_ecp) else none
    dscp := if cls = 0 then s.rg u HPT_CFG.dscp_roce else if cls = 1 then s.rg u HPT_CFG.dscp_ecp else 0
    ecn := if cls = 0 then 2 else 0 }

def State.putEcp (s : State) (o : EcpOut) : State :=
  let o := { o with wire := s.wireOf o.port 1 o.ip }
  let x := s.hpt o.port
  if x.paused.contains (s.rg (uPort o.port) HPT_CFG.pfc_ecp) then s.setHpt o.port { x with heldEcp := x.heldEcp ++ [o] }
  else { s with ecpOut := s.ecpOut ++ [o] }

def State.putRdma (s : State) (o : FrameOut) : State :=
  let o := { o with wire := s.wireOf o.port 0 (((mfind s.qps o.dest).map (·.peerIp)).getD 0) }
  let x := s.hpt o.port
  if x.paused.contains (s.rg (uPort o.port) HPT_CFG.pfc_roce) then s.setHpt o.port { x with heldRdma := x.heldRdma ++ [o] }
  else { s with frames := s.frames ++ [o] }

/-! ### Queue pairs (R373 to R375) -/

/-- Codes of a NAK (PRESUMED: those of the transport R373 names, log 32). -/
def nakSequence : Nat := 0
def nakInvalid : Nat := 1
def nakAccess : Nat := 2

def State.setQp (s : State) (n : Nat) (q : Qp) : State := { s with qps := mput s.qps n q }

def State.nak (s : State) (port qpn code : Nat) : State :=
  (s.putRdma { port := port, kind := 4, dest := qpn, code := code }).rinc (uPort port) HPT_ROCE.naks 1

/-- The queue pair moves to the error state. -/
def State.qpErr (s : State) (qpn : Nat) (q : Qp) : State := s.setQp qpn { q with err := true, cur := none, ops := [] }

/-- Remote access error. -/
def State.accessError (s : State) (port qpn : Nat) (q : Qp) : State :=
  ((s.nak port qpn nakAccess).qpErr qpn q).raise 0x8101 (uPort port) qpn

/-- The acknowledgement of a packet with its PSN. -/
def State.ack (s : State) (port qpn psn : Nat) : State := s.putRdma { port := port, kind := 3, dest := qpn, code := psn }

/-- An ECP message of the part's own numbering and key (R366, R368). -/
def State.ecpMsg (s : State) (port ip udp type flags reqId code : Nat) (body : List Byte) : EcpOut :=
  { port := port, ip := ip, udp := udp, type := type, flags := flags, seq := s.claim.txSeq + 1, reqId := reqId, code := code, body := body
    key := some s.claim.key }

def State.sendEcp (s : State) (port ip udp type flags reqId code : Nat) (body : List Byte) : State :=
  ({ s with claim := { s.claim with txSeq := s.claim.txSeq + 1 } }).putEcp (s.ecpMsg port ip udp type flags reqId code body)

/-- A port's link is down, or goes down in this tick (Table 13-8). -/
def State.portDown (s : State) (p : Nat) : Bool :=
  !s.unitUp (uPort p) || s.rg (uPort p) HPT_STATUS.link_up == 0 || s.soon (fun i => match i with
    | .ethernetLinkDown q => p == q
    | _ => false)

/-- A notification: to the notify address, through the port of the latest authenticated request or, with its link down, the
other one (R370). Nothing goes while the part is UNCLAIMED. -/
def State.notify (s : State) (type : Nat) (body : List Byte) : State :=
  if s.claim.claimed then
    let p := s.claim.notifyHpt
    let p := if s.portDown p then 1 - p else p
    s.sendEcp p s.claim.notifyIp s.claim.notifyUdp type 2 0 0 body
  else s

/-- A reply to a request, kept in the reply cache (R369, R370). -/
def State.reply (s : State) (h : EcpHdr) (rtype type code : Nat) (body : List Byte) : State :=
  let o := s.ecpMsg h.port h.ip h.udp type 1 h.reqId code body
  let s := s.sendEcp h.port h.ip h.udp type 1 h.reqId code body
  { s with claim := { s.claim with cache := (s.claim.cache ++ [CacheEnt.mk rtype o]).drop (s.claim.cache.length - 255) } }

/-- A general reply. -/
def State.genReply (s : State) (h : EcpHdr) (rtype code : Nat) : State := s.reply h rtype 0x06 code []

/-- The first hop towards a package (R22, R352): the direct link, else through the member of the own pod with that index. -/
def State.routeTo (s : State) (pod pkg : Nat) : Option Nat :=
  match s.light.peers.find? (fun e => e.pod == pod && e.pkg == pkg) with
  | some e => some e.link
  | none => (s.light.peers.find? (fun e => e.pod == s.light.pod && e.pkg == pkg)).map (·.link)

/-! ### Words of the address spaces -/

def State.word (s : State) (a n : Nat) : Nat := unle (s.mem.bytes a n)

/-- Natural ceiling division. -/
def cdiv (a b : Nat) : Nat := (a + b - 1) / b

/-- Bits of a mask, as numbers. -/
def bitsSet (w v : Nat) : List Nat := (List.range w).filter (fun i => v / 2 ^ i % 2 == 1)

def popcount (w v : Nat) : Nat := (bitsSet w v).length

/-- The result of a command: nothing but the new state. -/
def ok (s : State) : Out := .next s

end Sys2Proof.Machine
end

