-- ==== Sys2Proof/Machine/Crypto.lean ====
section
/-!
DEFINITION. SHA-256, HMAC-SHA-256 and HKDF-SHA-256, which the plan digest (R114), the ECP tag (R366) and the pairing key (R364)
name; X25519, which the claim names (R364); and the verification of HSS signatures (R427). PRESUMED (log 20): their text is that
of FIPS 180-4, RFC 2104, RFC 5869, RFC 7748 and of the HSS scheme of NIST SP 800-208, which the spec names and does not give.
-/

namespace Sys2Proof.Machine

/-! ### SHA-256 over numbers below 2^32 -/

def w32 (x : Nat) : Nat := x % 2 ^ 32
def rotr32 (n x : Nat) : Nat := (x >>> n) ||| w32 (x <<< (32 - n))

/-- The largest `r` below `r₀ + 2 ^ n` whose `k`-th power does not pass `v`, taken bit by bit from `r₀`. -/
def rootFrom (k v : Nat) : Nat → Nat → Nat
  | 0, r => r
  | n + 1, r => rootFrom k v n (if (r + 2 ^ n) ^ k ≤ v then r + 2 ^ n else r)

/-- The first 32 bits of the fraction of the `k`-th root of `p` (`p` below 2^9): the standard's constants are these. -/
def rootFraction (k p : Nat) : Nat := w32 (rootFrom k (p * 2 ^ (32 * k)) 37 0)

/-- The prime numbers below 312, of which there are 64. -/
def smallPrimes : List Nat :=
  (List.range 312).filter (fun n => 1 < n && (List.range n).all (fun d => d < 2 || n % d != 0))

/-- The round constants: cube roots of the first 64 primes. -/
def shaK : List Nat := smallPrimes.map (rootFraction 3)

/-- The initial chaining value: square roots of the first 8 primes. -/
def shaInit : List Nat := (smallPrimes.take 8).map (rootFraction 2)

/-- The exclusive or of the three rotations of a word by the amounts `r`. -/
def turns (r : List Nat) (x : Nat) : Nat := (r.map (rotr32 · x)).foldl (· ^^^ ·) 0

/-- One round on the two histories of the compression function, the latest value first: of the eight working variables
of the standard the first four are the last four values of the one, the other four those of the other. -/
def shaRound : List Nat × List Nat → Nat → List Nat × List Nat
  | (p :: p1 :: p2 :: p3 :: _, q :: q1 :: q2 :: q3 :: _), kw =>
    let pick := q2 ^^^ (q &&& (q1 ^^^ q2))
    let most := (p &&& (p1 ||| p2)) ||| (p1 &&& p2)
    let t := kw + q3 + pick + turns [6, 11, 25] q
    ([w32 (t + most + turns [2, 13, 22] p), p, p1, p2], [w32 (t + p3), q, q1, q2])
  | h, _ => h

/-- The message schedule: `n` more words after the 16 of the block, each from the four words of the window it names. -/
def shaSchedule : Nat → List Nat → List Nat
  | 0, _ => []
  | n + 1, ws =>
    let near := ws.getD 1 0
    let far := ws.getD 14 0
    ws.headD 0 :: shaSchedule n (ws.tail ++ [w32 (((turns [17, 19] far ^^^ far >>> 10) + ws.getD 9 0)
      + ((turns [7, 18] near ^^^ near >>> 3) + ws.headD 0))])

/-- The number that big-endian bytes spell. -/
def unbe (bs : List Byte) : Nat := bs.foldl (fun v b => v * 256 + b.toNat) 0

/-- `n` bytes of `v`, most significant first. -/
def be (n v : Nat) : List Byte := (le n v).reverse

/-- Cut a list into runs of `n`. -/
def runs {α : Type} (n : Nat) : Nat → List α → List (List α)
  | 0, _ => []
  | fuel + 1, l => if l.isEmpty then [] else l.take n :: runs n fuel (l.drop n)

/-- The chaining value after a block of 64 bytes. -/
def shaBlock (h : List Nat) (block : List Byte) : List Nat :=
  let kws := List.zipWith (· + ·) shaK (shaSchedule 64 ((runs 4 16 block).map unbe))
  let v := kws.foldl shaRound (h.take 4, h.drop 4)
  (List.zipWith (· + ·) h (v.1 ++ v.2)).map w32

def shaPad (m : List Byte) : List Byte :=
  let n := m.length
  m ++ [0x80] ++ List.replicate ((119 - n % 64) % 64) 0 ++ be 8 (8 * n)

/-- SHA-256. -/
def sha256 (m : List Byte) : List Byte :=
  let p := shaPad m
  ((runs 64 (p.length / 64) p).foldl shaBlock shaInit).flatMap (be 4)

/-! ### HMAC and HKDF -/

/-- HMAC-SHA-256. -/
def hmac (key m : List Byte) : List Byte :=
  let k := if key.length > 64 then sha256 key else key
  let k := k ++ List.replicate (64 - k.length) 0
  sha256 (k.map (· ^^^ 0x5C) ++ sha256 (k.map (· ^^^ 0x36) ++ m))

/-- HKDF-SHA-256 of one 32-byte output block. -/
def hkdf (ikm salt info : List Byte) : List Byte := hmac (hmac salt ikm) (info ++ [1])

/-! ### X25519 (R364) -/

def p25519 : Nat := 2 ^ 255 - 19

def mulP (a b : Nat) : Nat := a * b % p25519
def subP (a b : Nat) : Nat := (a + p25519 - b) % p25519

/-- `x` to the power that the bits spell, the most significant first. -/
def powP (x : Nat) (bits : List Bool) : Nat := bits.foldl (fun r b => let q := mulP r r; if b then mulP q x else q) 1

/-- The low `n` bits of a number, the most significant first. -/
def bitsDown : Nat → Nat → List Bool
  | 0, _ => []
  | n + 1, v => (v / 2 ^ n % 2 == 1) :: bitsDown n v

/-- One step of the ladder for the point with first coordinate `x1`: the two points, each as a quotient, for one more bit. -/
def ladderStep (x1 : Nat) (p : (Nat × Nat) × (Nat × Nat)) (bit : Bool) : (Nat × Nat) × (Nat × Nat) :=
  let (u, v) := if bit then (p.2, p.1) else p
  let sq := mulP (u.1 + u.2) (u.1 + u.2)
  let dq := mulP (subP u.1 u.2) (subP u.1 u.2)
  let d := subP sq dq
  let g := mulP (subP v.1 v.2) (u.1 + u.2)
  let h := mulP (v.1 + v.2) (subP u.1 u.2)
  let dbl := (mulP sq dq, mulP d (sq + 121665 * d))
  let add := (mulP (g + h) (g + h), mulP x1 (mulP (subP g h) (subP g h)))
  if bit then (add, dbl) else (dbl, add)

/-- X25519 of a private key and a public key. -/
def x25519 (priv pub : List Byte) : List Byte :=
  let n := unle (priv.take 32)
  let k := n % 2 ^ 254 / 8 * 8 + 2 ^ 254
  let x1 := unle (pub.take 32) % 2 ^ 255 % p25519
  let r := (bitsDown 255 k).foldl (ladderStep x1) ((1, 0), (x1, 1))
  le 32 (mulP r.1.1 (powP r.1.2 (bitsDown 255 (p25519 - 2))))

/-! ### HSS signatures (R427) -/

/-- `n` bytes from an offset, and the big-endian number they spell. -/
def cut (bs : List Byte) (o n : Nat) : List Byte := (bs.drop o).take n
def beAt (bs : List Byte) (o : Nat) : Nat := unbe (cut bs o 4)

/-- Height of a tree of an accepted type: LMS_SHA256_M32_H10, H15, H20 (R427). -/
def lmsHeight (type : Nat) : Option Nat := if type = 6 then some 10 else if type = 7 then some 15 else if type = 8 then some 20 else none

/-- Digit width, digits and checksum shift of an accepted one-time type: LMOTS_SHA256_N32_W4, W8 (R427). -/
def otsShape (type : Nat) : Option (Nat × Nat × Nat) := if type = 3 then some (4, 67, 4) else if type = 4 then some (8, 34, 0) else none

/-- The `i`-th digit of `w` bits of a byte string. -/
def digitOf (bs : List Byte) (w i : Nat) : Nat :=
  ((bs.getD (i * w / 8) 0).toNat / 2 ^ (8 - w - i * w % 8)) % 2 ^ w

/-- The hashes of one chain from digit `a` on. -/
def otsChain (pre : List Byte) : Nat → Nat → List Byte → List Byte
  | 0, _, v => v
  | n + 1, a, v => otsChain pre n (a + 1) (sha256 (pre ++ [BitVec.ofNat 8 a] ++ v))

/-- The one-time public key that a one-time signature of a message gives; `pre` is the tree's identifier and the leaf. -/
def otsKey (pre : List Byte) (w p ls : Nat) (sig msg : List Byte) : List Byte :=
  let q := sha256 (pre ++ be 2 0x8181 ++ cut sig 4 32 ++ msg)
  let sum := (List.range (256 / w)).foldl (fun c i => c + (2 ^ w - 1 - digitOf q w i)) 0
  let qc := q ++ be 2 (sum * 2 ^ ls)
  sha256 (pre ++ be 2 0x8080 ++ (List.range p).flatMap (fun i =>
    let a := digitOf qc w i
    otsChain (pre ++ be 2 i) (2 ^ w - 1 - a) a (cut sig (36 + 32 * i) 32)))

/-- The root that a leaf and its path give. -/
def lmsRoot (ident : List Byte) : List (List Byte) → Nat → List Byte → List Byte
  | [], _, v => v
  | s :: ss, node, v =>
    lmsRoot ident ss (node / 2) (sha256 (ident ++ be 4 (node / 2) ++ be 2 0x8383 ++ if node % 2 = 1 then s ++ v else v ++ s))

/-- Verification of an LMS signature at the head of a byte string, under a 56-byte public key: what follows the signature. -/
def lmsVerify (pub sig msg : List Byte) : Option (List Byte) :=
  match lmsHeight (beAt pub 0), otsShape (beAt pub 4) with
  | some h, some (w, p, ls) =>
    let ident := cut pub 8 16
    let leaf := beAt sig 0
    let ots := sig.drop 4
    let at_ := 40 + 32 * p
    if beAt ots 0 ≠ beAt pub 4 ∨ beAt sig at_ ≠ beAt pub 0 ∨ 2 ^ h ≤ leaf ∨ sig.length < at_ + 4 + 32 * h ∨ pub.length ≠ 56 then none
    else
      let k := otsKey (ident ++ be 4 leaf) w p ls ots msg
      let v := sha256 (ident ++ be 4 (2 ^ h + leaf) ++ be 2 0x8282 ++ k)
      let path := (List.range h).map (fun i => cut sig (at_ + 4 + 32 * i) 32)
      if lmsRoot ident path (2 ^ h + leaf) v = cut pub 24 32 then some (sig.drop (at_ + 4 + 32 * h)) else none
  | _, _ => none

/-- Verification of an HSS signature of 1 or 2 levels under a 60-byte public key (R427). -/
def hssVerify (key msg sig : List Byte) : Bool :=
  let pub := key.drop 4
  if beAt key 0 = 1 ∧ beAt sig 0 = 0 then lmsVerify pub (sig.drop 4) msg == some []
  else if beAt key 0 = 2 ∧ beAt sig 0 = 1 then
    match lmsHeight (beAt pub 0), otsShape (beAt pub 4) with
    | some h, some (_, p, _) =>
      let low := cut sig (4 + 44 + 32 * p + 32 * h) 56
      match lmsVerify pub (sig.drop 4) low with
      | some r => lmsVerify low (r.drop 56) msg == some []
      | none => false
    | _, _ => false
  else false

end Sys2Proof.Machine
end

