-- ==== Sys2Proof/Machine/LightList.lean ====
section
/-!
DEFINITION. The light-list image: where its parts lie, its digests, its records, and the image checks of Table 16-4
(chapter Boot, Light List and Security).
-/

namespace Sys2Proof.Machine

/-! ### The image (R422) -/

/-- `n` bytes of the flash from `off`; past what the board wrote, erased bytes (PRESUMED 0xFF, log 30). -/
def flashBytes (f : Flash) (off n : Nat) : List Byte :=
  let l := (f.image.drop off).take n
  l ++ List.replicate (n - l.length) 0xFF

def flashNum (f : Flash) (off n : Nat) : Nat := unle (flashBytes f off n)

def llSections (f : Flash) : Nat := flashNum f 0x06 2
def llVendorLen (f : Flash) : Nat := flashNum f 0x08 4
def llSlot (f : Flash) : Nat := flashNum f 0x0E 1
def llRevoke (f : Flash) : Nat := flashNum f 0x0F 1 % 16
def llSecVersion (f : Flash) : Nat := flashNum f 0x10 4
def llVendorKey (f : Flash) : List Byte := flashBytes f 0x20 60

/-- The configuration header follows the vendor part; the shared section, the local section and the signatures follow it. -/
def llShared (f : Flash) : Nat := llVendorLen f + 16
def llSharedLen (f : Flash) : Nat := flashNum f (llVendorLen f + 4) 4
def llLocalLen (f : Flash) : Nat := flashNum f (llVendorLen f + 8) 4
def llLocal (f : Flash) : Nat := llShared f + llSharedLen f
def llSigs (f : Flash) : Nat := llLocal f + llLocalLen f
def llVendorSigLen (f : Flash) : Nat := flashNum f (llSigs f) 4
def llOwnerSigLen (f : Flash) : Nat := flashNum f (llSigs f + 4 + llVendorSigLen f) 4
def llEnd (f : Flash) : Nat := llSigs f + 8 + llVendorSigLen f + llOwnerSigLen f
def llVendorSig (f : Flash) : List Byte := flashBytes f (llSigs f + 4) (llVendorSigLen f)
def llOwnerSig (f : Flash) : List Byte := flashBytes f (llSigs f + 8 + llVendorSigLen f) (llOwnerSigLen f)

/-- An entry of the directory. -/
structure DirEnt where
  type : Nat
  rsv  : Nat
  off  : Nat
  len  : Nat
  deriving DecidableEq, Repr

def llDir (f : Flash) : List DirEnt :=
  (List.range (llSections f)).map (fun i =>
    let o := 0x80 + 16 * i
    ⟨flashNum f o 2, flashNum f (o + 2) 2 + flashNum f (o + 12) 4, flashNum f (o + 4) 4, flashNum f (o + 8) 4⟩)

/-- The body of a vendor section. -/
def llSection (f : Flash) (type : Nat) : List Byte :=
  match (llDir f).find? (fun e => e.type == type) with
  | some e => flashBytes f e.off e.len
  | none => []

/-- The owner's public key. -/
def llOwnerKey (f : Flash) : List Byte := (llSection f 1).take 60

/-! ### Digests (R426) -/

def imageDigest (f : Flash) : List Byte := sha256 (flashBytes f 0 (llSigs f))
def vendorDigest (f : Flash) : List Byte := sha256 (flashBytes f 0 (llVendorLen f))
def sharedDigest (f : Flash) : List Byte := sha256 (flashBytes f (llShared f) (llSharedLen f))
def firmwareDigest (f : Flash) : List Byte := sha256 (llSection f 2 ++ llSection f 3 ++ llSection f 4)

/-! ### Records (R424, R425) -/

/-- The records of a section, as type and body; `none` where they do not fill it. -/
def recordsOf : Nat → List Byte → Option (List (Nat × List Byte))
  | 0, l => if l.isEmpty then some [] else none
  | fuel + 1, l =>
    if l.isEmpty then some []
    else
      let n := unle ((l.drop 2).take 2)
      if l.length < 4 + n ∨ n % 4 ≠ 0 then none
      else
        match recordsOf fuel (l.drop (4 + n)) with
        | some r => some ((unle (l.take 2), (l.drop 4).take n) :: r)
        | none => none

def sharedRecords (f : Flash) : Option (List (Nat × List Byte)) :=
  recordsOf (llSharedLen f) (flashBytes f (llShared f) (llSharedLen f))
def localRecords (f : Flash) : Option (List (Nat × List Byte)) :=
  recordsOf (llLocalLen f) (flashBytes f (llLocal f) (llLocalLen f))

/-- Byte and number of a body. -/
def bAt (b : List Byte) (i : Nat) : Nat := (b.getD i 0).toNat
def nAt (b : List Byte) (i n : Nat) : Nat := unle ((b.drop i).take n)

/-- The body of the first record of a type. -/
def bodyOf (r : Option (List (Nat × List Byte))) (type : Nat) : List Byte :=
  match r with
  | some l => match l.find? (fun e => e.1 == type) with
    | some e => e.2
    | none => []
  | none => []

/-- Entry of a link in record 0x0103: pod, package, dark, extended reach. -/
def linkEnt (b : List Byte) (l : Nat) : Nat × Nat × Bool × Bool :=
  (bAt b (4 * l), bAt b (4 * l + 1), bitsOf (bAt b (4 * l + 2)) 0 1 == 1, bitsOf (bAt b (4 * l + 2)) 1 1 == 1)

/-- The length and the field ranges of a body, by record type (Table 16-3). -/
def recordOk (s : State) (type : Nat) (b : List Byte) : Bool :=
  if type = 0x0001 then b.length == 4 && nAt b 2 2 == 0
  else if type = 0x0002 then b.length == 4 && bAt b 0 ≤ 1 && bAt b 1 ≤ 9 && bAt b 2 ≤ 1 && bAt b 3 == 0
  else if type = 0x0101 then b.length == 4 && bAt b 2 ≤ 1 && bAt b 3 == 0
  else if type = 0x0102 then b.length == 4 && bAt b 0 ≤ 7 && bAt b 1 ≤ 7 && nAt b 2 2 == 0
  else if type = 0x0103 then
    b.length == 256 && (List.range 64).all (fun l =>
      bAt b (4 * l + 2) ≤ 3 && bAt b (4 * l + 3) == 0 && (decide (l < s.nLinks) || (linkEnt b l).2.2.1))
  else if type = 0x0104 then
    b.length == 32 && (List.range 8).all (fun t =>
      if t < s.nTiles then bAt b (4 * t) ≤ 3 && bAt b (4 * t + 1) ≤ 2 && nAt b (4 * t + 2) 2 == 0 else nAt b (4 * t) 4 == 0)
  else if type = 0x0105 then
    b.length == 4 && s.capMin ≤ nAt b 0 2 && nAt b 0 2 ≤ s.limitW && 5 ≤ bAt b 2 && bAt b 2 ≤ 80 && bAt b 3 == 0
  else if type = 0x0106 then
    b.length == 64 && bAt b 0 ≤ 1 && bAt b 1 ≤ 1 && bAt b 2 ≤ 1 && bAt b 3 ≤ 7 && bAt b 4 ≤ 7 && bAt b 5 ≤ 63 && bAt b 6 ≤ 63 &&
      bAt b 7 == 0 && nAt b 8 2 ≤ 4095 && bAt b 16 ≤ 32 && bAt b 17 ≤ 128 && nAt b 18 2 == 0
  else bitsOf type 15 1 == 1

/-- A section: every record valid and of a type of this section or optional, each type once, the required ones there; host-port
records once for each port. -/
def sectionOk (s : State) (required : List Nat) (r : Option (List (Nat × List Byte))) : Bool :=
  match r with
  | none => false
  | some l =>
    let types := (l.map (fun e => e.1)).filter (fun t => t != 0x0106)
    l.all (fun e => recordOk s e.1 e.2 && (required.contains e.1 || bitsOf e.1 15 1 == 1)) &&
    types.all (fun t => types.count t == 1) &&
    (required.filter (fun t => t != 0x0106)).all (fun t => types.contains t) &&
    (!required.contains 0x0106 ||
      [0, 1].all (fun p => (l.filter (fun e => e.1 == 0x0106 && bAt e.2 0 == p)).length == 1))

/-- The directory (R423): the four types once each, further types optional and named once, sections inside the vendor part and apart
from one another; OWNER_KEY as Table 16-2 has it. -/
def dirOk (f : Flash) : Bool :=
  let d := llDir f
  d.all (fun e => e.rsv == 0 && decide (e.off + e.len ≤ llVendorLen f) && (d.filter (fun x => x.type == e.type)).length == 1 &&
    ([1, 2, 3, 4].contains e.type || bitsOf e.type 15 1 == 1)) &&
  [1, 2, 3, 4].all (fun t => d.any (fun e => e.type == t)) &&
  d.zipIdx.all (fun a => d.zipIdx.all (fun b =>
    a.2 == b.2 || decide (a.1.off + a.1.len ≤ b.1.off) || decide (b.1.off + b.1.len ≤ a.1.off))) &&
  (llSection f 1).length == 64 && unle ((llSection f 1).drop 60) == 0

/-! ### The checks of Table 16-4, each by its order; 1 and 2 at their stages -/

def check3 (f : Flash) : Bool :=
  flashNum f 0 4 == 0x54534C4B && flashNum f 5 1 == 1 && 4 ≤ llSections f && llSections f ≤ 16 &&
  llVendorLen f % 4096 == 0 && 0x80 + 16 * llSections f ≤ llVendorLen f && llVendorLen f ≤ 2 ^ 26 &&
  flashNum f (llVendorLen f) 4 == 0x4746434B && flashNum f (llVendorLen f + 12) 4 == 0 &&
  llSharedLen f % 4 == 0 && llLocalLen f % 4 == 0 && llSharedLen f + llLocalLen f ≤ 2 ^ 20 &&
  llVendorSigLen f ≤ 16384 && llOwnerSigLen f ≤ 16384 && llEnd f ≤ 2 ^ 26 && llEnd f ≤ f.size

def check4 (s : State) (f : Flash) : Bool := flashNum f 0x0C 1 == s.fuses.tiles && flashNum f 0x0D 1 == s.fuses.stepping

def check5 (s : State) (f : Flash) : Bool :=
  llSlot f ≤ 3 && bitsOf s.fuses.revoked (llSlot f) 1 == 0 &&
  (match mfind s.fuses.roots (llSlot f) with
   | some h => sha256 (llVendorKey f) == h
   | none => false)

def check6 (f : Flash) : Bool := hssVerify (llVendorKey f) (vendorDigest f) (llVendorSig f)

def check7 (f : Flash) : Bool :=
  (llDir f).any (fun e => e.type == 1 && decide (e.off + e.len ≤ llVendorLen f)) &&
  hssVerify (llOwnerKey f) (imageDigest f) (llOwnerSig f)

def check8 (s : State) (f : Flash) : Bool := s.fuses.secFused ≤ llSecVersion f && bitsOf (llRevoke f) (llSlot f) 1 == 0

def check9 (s : State) (f : Flash) : Bool :=
  dirOk f && llSecVersion f ≤ 64 && sectionOk s [0x0001, 0x0002] (sharedRecords f) &&
  sectionOk s [0x0101, 0x0102, 0x0103, 0x0104, 0x0105, 0x0106] (localRecords f)

/-- The event of the first of the checks 3 to 9 that fails, and whether the image was read again (R428). -/
def verifyImage (s : State) (f : Flash) : Option Nat × Bool :=
  if !check3 f then (some 0xA002, false)
  else if !check4 s f then (some 0xA003, false)
  else if !check5 s f then (some 0xA004, true)
  else if !check6 f then (some 0xA005, true)
  else if !check7 f then (some 0xA006, true)
  else if !check8 s f then (some 0xA007, false)
  else if !check9 s f then (some 0xA008, false)
  else (none, false)

/-- Check 10 (R432). -/
def check10 (s : State) (f : Flash) : Bool :=
  let b := bodyOf (sharedRecords f) 0x0001
  let pods := bAt b 0
  let n := bAt b 1
  let place := bodyOf (localRecords f) 0x0101
  let pod := bAt place 0
  let pkg := bAt place 1
  let lb := bodyOf (localRecords f) 0x0103
  let peers := (((List.range 64).map (linkEnt lb)).filter (fun e => !e.2.2.1)).map (fun e => (e.1, e.2.1))
  decide (pods ≠ 0) && decide (n ≠ 0) && decide (pods ≤ 33) &&
  (decide (pods ≤ 1) || (decide (s.nTiles = 8) && decide (n ≤ 33))) &&
  decide (n - 1 ≤ s.nLinks) && decide (pod < pods) && decide (pkg < n) &&
  !peers.contains (pod, pkg) && peers.all (fun p => peers.count p == 1) &&
  peers.all (fun p => p.1 == pod || p.2 == pkg) &&
  (List.range n).all (fun j => j == pkg || peers.contains (pod, j)) &&
  (List.range pods).all (fun q => q == pod || peers.contains (q, pkg))

/-! ### The light list decoded -/

def portCfgOf (b : List Byte) : PortCfg :=
  { phy := bAt b 1, tagged := bAt b 2, pfcRoce := bAt b 3, pfcEcp := bAt b 4, dscpRoce := bAt b 5, dscpEcp := bAt b 6
    vid := nAt b 8 2, ecpPort := nAt b 10 2, ip4 := nAt b 12 4, len4 := bAt b 16, len6 := bAt b 17, ip6 := nAt b 20 16
    gw4 := nAt b 36 4, gw6 := nAt b 40 16, presets := nAt b 56 8 }

def lightOf (s : State) (f : Flash) : Light :=
  let loc := localRecords f
  let mode := bodyOf (sharedRecords f) 0x0002
  let place := bodyOf loc 0x0101
  let seqs := bodyOf loc 0x0102
  let lb := bodyOf loc 0x0103
  let tb := bodyOf loc 0x0104
  let cap := bodyOf loc 0x0105
  let hosts := (loc.getD []).filter (fun e => e.1 == 0x0106)
  { primary := bAt seqs 0, standby := bAt seqs 1, pod := bAt place 0, pkg := bAt place 1
    degraded := bitsOf (bAt place 2) 0 1 == 1
    peers := (List.range s.nLinks).filterMap (fun l =>
      let e := linkEnt lb l
      if e.2.2.1 then none else some ⟨l, e.1, e.2.1⟩)
    ext := (List.range s.nLinks).filter (fun l => (linkEnt lb l).2.2.2)
    point := bAt mode 1
    tiles := (List.range s.nTiles).map (fun t => (bAt tb (4 * t), bAt tb (4 * t + 1)))
    ports := hosts.foldl (fun m e => mput m (bAt e.2 0) (portCfgOf e.2)) []
    mode := bAt mode 0, boost := bAt mode 2, cap := nAt cap 0 2, window := bAt cap 2 }

end Sys2Proof.Machine
end

