-- ==== Sys2Proof/Machine/Hubs.lean ====
section
/-!
DEFINITION. Span objects and the hubs that hold them: span IDs and who may use them, virtual maps, timeouts, and what
posting, abandoning and clearing do (chapter Synchronisation).
-/

namespace Sys2Proof.Machine

/-! ### Span IDs (Table 6-1, R175) -/

def spanIndex (id : Nat) : Nat := bitsOf id 0 11
def spanTile (id : Nat) : Nat := bitsOf id 11 3
def spanBarrier (id : Nat) : Bool := bitsOf id 14 1 == 1
def spanPkg (id : Nat) : Nat := bitsOf id 15 7
def spanPod (id : Nat) : Nat := bitsOf id 22 6
def spanVirtual (id : Nat) : Bool := bitsOf id 31 1 == 1

/-- Key of an object in its hub: counters by index, barrier slots above 4,096. -/
def spanKey (id : Nat) : Nat := if spanBarrier id then 4096 + spanIndex id else spanIndex id

/-- Where a physical span ID leads. -/
inductive SpanDest
  | here (tile key : Nat)
  | peer (pod pkg : Nat)
  | bad
  deriving DecidableEq, Repr

/-- R175: `far` admits another pod, as the target of a virtual ID may name. -/
def State.spanDest (s : State) (far : Bool) (id : Nat) : SpanDest :=
  let pkg := spanPkg id
  let pod := spanPod id
  let ownPod := pod == 0x3F || pod == s.light.pod
  if bitsOf id 28 3 ≠ 0 ∨ (spanBarrier id ∧ spanIndex id ≥ 16) then .bad
  else if ownPod ∧ (pkg = 0x7F ∨ pkg = s.light.pkg) then
    (if s.tileUp (spanTile id) then .here (spanTile id) (spanKey id) else .bad)
  else if pkg = 0x7F then .bad
  else if ownPod then
    (if s.light.peers.any (fun e => e.pod == s.light.pod && e.pkg == pkg) then .peer s.light.pod pkg else .bad)
  else if far ∧ (s.routeTo pod pkg).isSome then .peer pod pkg
  else .bad

/-- The physical ID a context's operation at the hub of `tile` names (R199); `none` without a translation. -/
def State.translate (s : State) (tile ctx id : Nat) : Option Nat :=
  if spanVirtual id then
    if bitsOf id 24 7 ≠ 0 then none
    else ((s.hub tile).vmap.find? (fun e => e.ctx == ctx && e.vid == bitsOf id 0 24)).map (·.target)
  else some id

/-- An ID through translation to its destination: the physical ID and where it leads. -/
def State.resolve (s : State) (tile ctx id : Nat) : Nat × SpanDest :=
  match s.translate tile ctx id with
  | some p => (p, s.spanDest (spanVirtual id) p)
  | none => (id, .bad)

/-! ### Timeouts (Table 6-7) -/

def timeoutOk (code : Nat) : Bool := code ≤ 0xB0 || code == 0xFF

/-- The timeout of a code in tk; 0xFF takes the hub's default. -/
def timeoutTk (deflt code : Nat) : Nat :=
  if code = 0xFF then deflt else cdiv ((8 + code % 8) * 2 ^ (code / 8) * 25) 2

/-! ### Objects -/

def State.obj (s : State) (t k : Nat) : SpanObj := mget (s.hub t).objs k {}
def State.setObj (s : State) (t k : Nat) (o : SpanObj) : State :=
  s.setHub t { s.hub t with objs := mput (s.hub t).objs k o }

/-- The span ID by which this package's events name an object of its own. -/
def spanIdOf (t k : Nat) : Nat :=
  k % 4096 + t * 2 ^ 11 + (if k ≥ 4096 then 2 ^ 14 else 0) + 0x7F * 2 ^ 15 + 0x3F * 2 ^ 22

/-- Waiter IDs (Table 6-2): an engine's is its engine number in the package. -/
def waiterIsEngine (w : Nat) : Bool := w / 2 ^ 22 == 0
def waiterHost (n : Nat) : Nat := 3 * 2 ^ 22 + n
def waiterIsHost (w : Nat) : Bool := w / 2 ^ 22 == 3
def waiterIsPeer (w : Nat) : Bool := w / 2 ^ 22 == 2
def waiterLink (w : Nat) : Nat := w / 2 ^ 12 % 64
def waiterIsService (w : Nat) : Bool := w / 2 ^ 22 == 1

/-- The serving service of a tile waits and signals as its service core 0; a barrier's own release SIGNAL goes under number 3 (DESIGN
CHOICE, log 76). -/
def waiterService (t : Nat) : Nat := 2 ^ 22 + 4 * t
def waiterHub (t : Nat) : Nat := 2 ^ 22 + 4 * t + 3
def waiterTile (w : Nat) : Nat := w / 4 % 8

/-- Table entries in use by parties other than the host, and by host watches (R184). -/
def Hub.entries (h : Hub) : Nat := (h.waiters.filter (fun w => !waiterIsHost w.waiter)).length
def Hub.watches (h : Hub) : Nat := (h.waiters.filter (fun w => waiterIsHost w.waiter)).length

/-- The lowest number of a host watch that is free at a hub. -/
def Hub.freeWatch (h : Hub) : Option Nat :=
  (List.range 64).find? (fun n => h.waiters.all (fun w => w.kind != .watch || w.waiter % 64 != n))

/-- Post an operation to a hub: it is applied in the settle of this tick (R179). -/
def State.post (s : State) (t : Nat) (op : SpanOp) : State :=
  s.setHub t { s.hub t with inbox := (s.hub t).inbox ++ [op] }

/-- The kind's code in a SYNC_OP. -/
def spanCode (k : SpanKind) : Nat :=
  match k with
  | .signal => 1
  | .wait => 2
  | .take => 3
  | .arrive => 4
  | .watch => 5

/-- Send an operation that resolved to `dest`: to a hub of this package, or across the link of its package. -/
def State.sendSpan (s : State) (dest : SpanDest) (op : SpanOp) (tcode planId : Nat) : State :=
  match dest with
  | .here t _ =>
    let d := timeoutTk (s.rg (uTile t) SYN_TIMEOUT_DEF.default_tk) tcode
    s.post t { op with expire := op.reg + d }
  | .peer pod pkg =>
    match s.routeTo pod pkg with
    | some l => s.sendLink l 0x20 [spanCode op.kind, op.obj, op.value, tcode, op.waiter, planId, op.crc]
    | none => s
  | .bad => s

/-- A waiter withdrawn unreleased; a barrier arrival leaves the count too (R181). -/
def Hub.withdraw (h : Hub) (p : SpanOp → Bool) : Hub :=
  let gone := h.waiters.filter p
  { h with
    waiters := h.waiters.filter (fun w => !p w)
    retry := h.retry.filter (fun w => !p w)
    inbox := h.inbox.filter (fun w => !p w || w.kind == .signal)
    objs := gone.foldl (fun os w =>
      if w.kind = .arrive then
        let o := mget os (spanKey w.obj) {}
        mput os (spanKey w.obj) { o with arrived := o.arrived.erase w.waiter }
      else os) h.objs }

/-- Abandon the waiters that satisfy `p` in every hub of the package (R181). -/
def State.abandon (s : State) (p : SpanOp → Bool) : State :=
  { s with hubs := s.hubs.map (fun e => (e.1, e.2.withdraw p)) }

/-- WATCH_NOTE (Table 13-4): outcome 0 met, 1 timed out, 2 cancelled. -/
def State.watchNote (s : State) (t : Nat) (w : SpanOp) (outcome value gen : Nat) : State :=
  s.notify 0x32 (le 1 t ++ le 1 (w.waiter % 64) ++ le 1 outcome ++ le 1 0 ++ le 4 w.obj ++ le 2 value ++ le 2 gen ++
    le 8 s.tick)

/-- Objects a context holds at a hub that are not as R195 asks: value, waiters, arrivals. -/
def Hub.unclean (h : Hub) (c : Nat) : List Nat :=
  (h.objs.filter (fun e => e.2.held == some c &&
    (e.2.value != e.2.init || !e.2.arrived.isEmpty ||
      (h.waiters ++ h.retry).any (fun w => spanKey w.obj == e.1)))).map (·.1)

/-- A hub with everything of a context cleared: its objects zero and released, its waiters and mappings gone (R119). What the host and
peers asked of it in this tick is refused by the settle (Table 6-11). -/
def Hub.clear (h : Hub) (c : Nat) : Hub :=
  { h with
    objs := h.objs.filter (fun e => e.2.held != some c)
    waiters := h.waiters.filter (fun w => w.ctx != c)
    retry := h.retry.filter (fun w => w.ctx != c)
    inbox := h.inbox.filter (fun w => w.ctx != c || waiterIsHost w.waiter)
    vmap := h.vmap.filter (fun e => e.ctx != c) }

/-- Every hub cleared of a context; each of its watches ends with a cancelled notification (R196). -/
def State.clearSpan (s : State) (c : Nat) : State :=
  let s := s.each (List.range s.nTiles) (fun s t =>
    s.each ((s.hub t).waiters.filter (fun w => w.ctx == c && w.kind == .watch))
      (fun s w => s.watchNote t w 2 0 0))
  { s with hubs := s.hubs.map (fun e => (e.1, e.2.clear c)) }

/-- The first unclean object of a context in index order, and how many there are (R195). -/
def State.unclean (s : State) (c : Nat) : List Nat :=
  (List.range s.nTiles).flatMap (fun t => ((s.hub t).unclean c).map (spanIdOf t))

/-! ### Barriers (Table 6-8, R190 to R193) -/

def descPkg (d : Nat) : Nat := bitsOf d 0 128
def descCore (d : Nat) : Nat := bitsOf d 128 64
def descDie (d : Nat) : Nat := bitsOf d 192 8
def descCount (d : Nat) : Nat := bitsOf d 200 16
def descRelEn (d : Nat) : Bool := bitsOf d 216 1 == 1
def descRelObj (d : Nat) : Nat := bitsOf d 224 32
def descAmt (d : Nat) : Nat := bitsOf d 256 16
def descA (d : Nat) : Nat := bitsOf d 272 32
def descB (d : Nat) : Nat := bitsOf d 304 32

/-- Reserved bits of a descriptor are 0. -/
def descReserved (d : Nat) : Bool := bitsOf d 217 7 == 0 && bitsOf d 336 176 == 0

/-- An object of this package with its fields in range (Table 6-1, R198). -/
def ownObject (s : State) (id : Nat) : Bool :=
  (spanPkg id == 0x7F || spanPkg id == s.light.pkg) && (spanPod id == 0x3F || spanPod id == s.light.pod) && bitsOf id 28 4 == 0

/-- The rules of R191 for a descriptor of context `c` whose slot is at hub `t`. -/
def descOk (s : State) (objs : List SyncE) (t d : Nat) : Bool :=
  let counterOf (id : Nat) : Bool :=
    ownObject s id && !spanBarrier id && spanTile id == t &&
      objs.any (fun e => e.kind == 1 && spanTile e.object == t && spanKey e.object == spanKey id)
  descReserved d && descCount d ≥ 1 &&
  descCount d == popcount 64 (descCore d) * popcount 8 (descDie d) * Nat.max 1 (popcount 128 (descPkg d)) &&
  (descDie d) / 2 ^ s.nTiles == 0 &&
  (descAmt d == 0 || (counterOf (descA d) && counterOf (descB d)))

/-- CRC of a descriptor's 64 bytes (R192). -/
def descCrc (d : Nat) : Nat := crc16 (le 64 d)

end Sys2Proof.Machine
end

