-- ==== Sys2Proof/Machine/Engines.lean ====
section
/-!
DEFINITION. Cores and engines: local addresses, command headers, flags, completion, the heads of the queues, the leave logic,
and stopping (chapter Cores and Engines).
-/

namespace Sys2Proof.Machine

/-! ### Command header (Table 3-3) -/

def fieldOf (w : CmdWord) (lo n : Nat) : Nat := bitsOf w.toNat lo n

def cmdClass (w : CmdWord) : Nat := fieldOf w 0 8
def cmdOp (w : CmdWord) : Nat := fieldOf w 8 8
def cmdPreObj (w : CmdWord) : Nat := fieldOf w 16 6
def cmdPreTake (w : CmdWord) : Bool := fieldOf w 22 1 == 1
def cmdPreEn (w : CmdWord) : Bool := fieldOf w 23 1 == 1
def cmdPostObj (w : CmdWord) : Nat := fieldOf w 24 6
def cmdPostFence (w : CmdWord) : Bool := fieldOf w 30 1 == 1
def cmdPostEn (w : CmdWord) : Bool := fieldOf w 31 1 == 1
def cmdPreThr (w : CmdWord) : Nat := fieldOf w 32 16
def cmdPostAdd (w : CmdWord) : Nat := fieldOf w 48 16
def cmdSeq (w : CmdWord) : Nat := fieldOf w 64 32
def cmdRecord (w : CmdWord) : Bool := fieldOf w 96 1 == 1
def cmdSafe (w : CmdWord) : Bool := fieldOf w 97 1 == 1

/-- The class an engine accepts beside control (Table 3-1). -/
def engClass (e : Nat) : Nat := if e < 4 then 1 else if e = 4 then 2 else if e < 7 then 3 else 4

/-- Parts of an engine's number in the package. -/
def keyDie (k : Nat) : Nat := k / 512
def keyCore (k : Nat) : Nat := k / 8 % 64
def keyEng (k : Nat) : Nat := k % 8
def engCore (k : Nat) : Nat := k / 8
def engOf (e : EngId) : Nat := engKey e.die e.core e.eng
def vecOf (c : CoreId) : Nat := engKey c.die c.core 4
def syncOf (c : CoreId) : Nat := engKey c.die c.core 7

/-- Register access of an engine and of its core. -/
def State.eg (s : State) (k : Nat) (f : Fld) : Nat := s.rg (uDie (keyDie k)) f (dEng (keyCore k) (keyEng k))
def State.es (s : State) (k : Nat) (f : Fld) (v : Nat) : State := s.rs (uDie (keyDie k)) f v (dEng (keyCore k) (keyEng k))
def State.einc (s : State) (k : Nat) (f : Fld) (n : Nat) : State := s.rinc (uDie (keyDie k)) f n (dEng (keyCore k) (keyEng k))
def State.dg (s : State) (k : Nat) (f : Fld) : Nat := s.rg (uDie (keyDie k)) f (dDma (keyCore k) (keyEng k))
def State.ds (s : State) (k : Nat) (f : Fld) (v : Nat) : State := s.rs (uDie (keyDie k)) f v (dDma (keyCore k) (keyEng k))

/-! ### Local addresses (R85, R87) -/

/-- A range of core store: 8-byte aligned, within its 4 MiB. -/
def csRange (la len : Nat) : Bool := la % 8 == 0 && la + len ≤ 0x400000

/-- `n` slots of the accumulator buffer from an LA of it. -/
def accRange (la n : Nat) : Bool := la % 8 == 0 && la ≥ 0x800000 && la + 32 * n ≤ 0x820000

def isAcc (la : Nat) : Bool := la ≥ 0x800000 && la ≤ 0x81FFFF
def portLa (m : Nat) : Nat := 0xC00000 + 0x10000 * m

/-- The matrix engine whose port an LA names. -/
def portOf (la : Nat) : Option Nat := (List.range 4).find? (fun m => la == portLa m)

/-- Address of a core-store LA of an engine's core. -/
def csAt (k la : Nat) : Nat := csAddr (keyDie k) (keyCore k) la

/-- Does an uncorrectable word found by the reads of the step lie in a range? -/
def hitsRange (bad : List Nat) (a len : Nat) : Option Nat := bad.find? (fun x => a ≤ x && x < a + len)

/-- The lowest of a list of uncorrectable words that a range meets. -/
def firstHit (bad : List Nat) (a len : Nat) : Option Nat :=
  (bad.filter (fun x => decide (a ≤ x) && decide (x < a + len))).foldl
    (fun m x => some (match m with | some y => min x y | none => x)) none

/-! ### Flags (R76 to R78) -/

def flagFlds : List Fld :=
  [CORE_ENG_FLAGS.invalid, CORE_ENG_FLAGS.div_zero, CORE_ENG_FLAGS.overflow, CORE_ENG_FLAGS.underflow,
   CORE_ENG_FLAGS.inexact, CORE_ENG_FLAGS.window_underflow, CORE_ENG_FLAGS.window_overflow, CORE_ENG_FLAGS.scale_clamp]

/-- Bits [7:0] of CORE_ENG_FLAGS of an engine. -/
def State.flags (s : State) (k : Nat) : Nat :=
  flagFlds.zipIdx.foldl (fun v p => v + s.eg k p.1 * 2 ^ p.2) 0

/-- Bits [7:0] written whole; without any flag set, first_valid is cleared (Table 2-9). -/
def State.putFlags (s : State) (k v : Nat) : State :=
  let s := s.each flagFlds.zipIdx (fun s p => s.es k p.1 (v / 2 ^ p.2 % 2))
  if v % 256 = 0 then s.es k CORE_ENG_FLAGS.first_valid 0 else s

/-- The bits of `v` set. -/
def State.setFlags (s : State) (k v : Nat) : State :=
  s.each (flagFlds.zipIdx.filter (fun p => v / 2 ^ p.2 % 2 == 1)) (fun s p => s.einc k p.1 1)

/-- Flags set by a command: sticky, and the first while all were clear leaves its seq (R76). -/
def State.addFlags (s : State) (k seq v : Nat) : State :=
  if v % 256 = 0 then s
  else
    let old := s.flags k
    let s := s.setFlags k v
    if old = 0 then (s.es k CORE_ENG_FLAGS.first_seq seq).es k CORE_ENG_FLAGS.first_valid 1 else s

/-! ### Leave requests (R99) -/

/-- A core in IDLE enters REQ when a matrix command stands at the head of a matrix queue. -/
def State.askLeave (s : State) (ck : Nat) : State :=
  let c := s.core ck
  let head := (List.range 4).any (fun m =>
    match (s.eng (ck * 8 + m)).queue with
    | w :: _ => cmdClass w == 1
    | [] => false)
  if c.leave = .idle ∧ head ∧ !c.inReset then s.setCore ck { c with leave := .req, reqAt := s.tick + 1 }
  else if head ∧ c.downReq.isSome ∧ !c.downHard then s.setCore ck { c with downReq := none }
  else s

/-! ### Completion (R91, R111) -/

/-- Ring size of an engine: log2 from 4 to 12, else 4 (Table 3-19). -/
def State.ringLog (s : State) (k : Nat) : Nat :=
  let v := s.eg k CORE_CPL_CFG.log2_size
  if 4 ≤ v ∧ v ≤ 12 then v else 4

/-- The 16-byte completion record (Table 3-11). -/
def recordBytes (w : CmdWord) (status flags busy tick : Nat) : List Byte :=
  le 4 (cmdSeq w) ++ le 1 status ++ le 1 flags ++ le 1 (cmdClass w) ++ le 1 (cmdOp w) ++ le 4 busy ++ le 4 tick

/-- Append to the completion ring: the oldest record is overwritten, and a slot beyond core store is not written (R111). -/
def State.appendRecord (s : State) (k : Nat) (bs : List Byte) : State :=
  if s.eg k CORE_CPL_CFG.enable = 1 then
    let size := 2 ^ s.ringLog k
    let head := s.eg k CORE_CPL_PTR.head
    let tail := s.eg k CORE_CPL_PTR.tail
    let la := s.eg k CORE_CPL_CFG.base + 16 * (head % size)
    let s := if (head + 2 ^ 16 - tail) % 2 ^ 16 ≥ size then s.einc k CORE_CPL_PTR.overrun 1 else s
    let s := if la + 16 ≤ 0x400000 then s.writeMem (csAt k la) bs else s
    s.es k CORE_CPL_PTR.head (head + 1)
  else s

/-- The completion record of a command, and CORE_ENG_STATE.last_status. -/
def State.complete (s : State) (k : Nat) (w : CmdWord) (status flags busy : Nat) : State :=
  let s := s.es k CORE_ENG_STATE.last_status status
  if cmdRecord w || status != 0 || flags != 0 then s.appendRecord k (recordBytes w status flags busy s.tick) else s

/-- Is the stream of an engine finished: an END completed, or its count fetched and every command completed (R89)? -/
def Eng.streamOver (e : Eng) : Bool := !e.fetching && e.queue.isEmpty

/-- The energy term of a matrix or vector command (Table 14-8): matrix work by operand group, narrow, 8-bit or BF16. -/
def workTerm (w : CmdWord) : Nat :=
  if cmdClass w = 2 then 4
  else if fmtCode (fieldOf w 128 8) = 7 then 2
  else if fmtCode (fieldOf w 128 8) ≤ 3 ∧ fmtCode (fieldOf w 136 8) ≤ 3 then 0 else 1

/-- The head's command is executing and finishes although a stop has come (R112): the parks of DMA and the waits of the sync unit do
not finish. -/
def Eng.finishing (e : Eng) (num : Nat) : Bool :=
  !e.queue.isEmpty && (e.phase == .done || e.phase == .fence || ((e.phase == .executing || e.phase == .port) && num < 5)) &&
    (num < 5 || num == 7)

/-- A matrix command of the core is executing (R112). -/
def State.matrixBusy (s : State) (ck : Nat) : Bool :=
  (List.range 4).any (fun m =>
    let e := s.eng (ck * 8 + m)
    match e.queue with
    | w :: _ => cmdClass w == 1 && e.finishing m
    | [] => false)

/-- The fall of a core in DOWN begins at the first tick after its last executing matrix command has finished (R102). -/
def State.beginFall (s : State) (ck : Nat) : State :=
  let c := s.core ck
  if c.leave = .down ∧ !c.falling ∧ !s.matrixBusy ck then
    s.setCore ck { c with falling := true, stepAt := s.tick + 1, level := 8 }
  else s

/-- Cycles of execution of an engine: CORE_BUSY, and the energy of matrix and vector work (R113, R401). -/
def State.worked (s : State) (k : Nat) (w : CmdWord) (n : Nat) : State :=
  let s := s.es k CORE_BUSY.cycles (s.eg k CORE_BUSY.cycles + n)
  if cmdClass w = 1 ∨ cmdClass w = 2 then s.charge (s.coreAcct (engCore k)) (keyDie k) (workTerm w) n else s

/-- The head's command has executed for a number of cycles that the spec gives no figure for: a free value. -/
def State.busyFree (s : State) (k : Nat) : State :=
  let r := s.free
  r.2.setEng k { s.eng k with busy := r.1 }

/-- What an engine sent for its head no longer belongs to a command of its queue. -/
def State.leaveOuts (s : State) (k : Nat) : State :=
  { s with
    net := s.net.map (fun r => if r.eng = some k then { r with live := false } else r)
    links := s.links.map (fun e =>
      (e.1, { e.2 with out := e.2.out.map (fun o => if o.eng = k then { o with live := false } else o) })) }

/-- The progress record of a DMA engine (R229): DMA_STATE, DMA_FAULT, the seq of the MOVE, zeros; all zeros while no MOVE has started
(DESIGN CHOICE, log 108). -/
def State.progress (s : State) (k : Nat) : Nat :=
  let e := s.eng k
  match e.queue with
  | w :: _ =>
    if e.phase = .executing ∨ e.phase = .done ∨ e.phase = .fence then
      unle (le 8 (s.dg k DMA_STATE.state + e.descIdx % 2 ^ 16 * 2 ^ 4 + e.off % 2 ^ 32 * 2 ^ 32) ++
        le 8 (s.dg k DMA_FAULT.va + s.dg k DMA_FAULT.side * 2 ^ 44 + s.dg k DMA_FAULT.cause * 2 ^ 45 + s.dg k DMA_FAULT.ctx * 2 ^ 48) ++
        le 4 (cmdSeq w) ++ le 12 0)
    else 0
  | [] => 0

/-- What a save keeps of an engine (R144): its queue's head is the first command not completed. -/
def State.saveEng (s : State) (k : Nat) : SavedEng :=
  let e := s.eng k
  { eng := keyEng k, seq := (e.queue.head?.map cmdSeq).getD 0, pos := e.fetched - e.queue.length, finished := e.finished
    safeDone := e.safeDone, dma := if keyEng k = 5 ∨ keyEng k = 6 then s.progress k else 0 }

/-- Every queued command of an engine ends with status 0x07, none signals, and the engine stops (R112). A head that was executing has
its cycles. -/
def State.stopEngine (s : State) (k : Nat) : State :=
  let s := if (s.eng k).phase = .executing then s.busyFree k else s
  let e := s.eng k
  let v := s.saveEng k
  let s := match e.queue with
    | w :: rest => (s.complete k w 7 0 e.busy).each rest (fun s w => s.complete k w 7 0 0) |>.worked k w e.busy |>.leaveOuts k
    | [] => s
  s.setEng k { e with
    queue := [], phase := .stopped, fetching := false, halting := false, status := 0, flags := 0, busy := 0, portBuf := [], portFl := []
    parked := false, walk := none, lastSeq := (e.queue.getLast?.map cmdSeq).getD e.lastSeq, saved := some v }

/-- The head command ends with a status: record, counters, and the queue moves on. Its post-signal goes only with status
0. After an END nothing more of the stream runs in this cycle, and after a stop nothing more of the queue. -/
def State.endHead (s : State) (k status : Nat) : State :=
  let e := s.eng k
  match e.queue with
  | [] => s
  | w :: rest =>
    let s := s.complete k w status e.flags e.busy
    let s := (s.worked k w e.busy).leaveOuts k
    let last := cmdClass w == 0 && cmdOp w == 1 && status == 0
    let rest := if last then [] else rest
    let e' : Eng := { e with
      queue := rest, phase := .idle, status := 0, flags := 0, busy := 0, lastSeq := cmdSeq w, portBuf := [], portFl := []
      descIdx := 0, off := 0, descOk := false, parked := false, walk := none
      safeDone := if cmdSafe w && status == 0 then e.safeDone + 1 else e.safeDone
      fetching := e.fetching && !last
      finished := e.finished || last || (!e.fetching && rest.isEmpty) }
    let s := s.setEng k e'
    let ck := engCore k
    let s := if status = 0 ∧ cmdPostEn w then
        s.setCore ck { s.core ck with sigs := (s.core ck).sigs ++ [(keyEng k, cmdPostObj w, cmdPostAdd w)] }
      else s
    let s := s.beginFall ck
    if e.halting then s.stopEngine k
    else if cmdSafe w ∧ status = 0 ∧ (s.core ck).target = some e'.safeDone then
      s.setEng k { s.eng k with phase := .stopped }
    else s.askLeave ck

/-- A context's stop reaches an engine (R112): a command that is executing is finished first, by its own rows; a span operation may still be
released in this tick's settle (Table 6-11); otherwise the queue ends with status 0x07 now. -/
def State.haltForStop (s : State) (k : Nat) : State :=
  let e := s.eng k
  if e.finishing (keyEng k) ∨ e.phase = .span then s.setEng k { e with halting := true, fetching := false } else s.stopEngine k

/-- Every engine of a core, by number in the package. -/
def coreEngs (ck : Nat) : List Nat := (List.range 8).map (fun e => ck * 8 + e)

/-- The waiters of a core's engines leave every hub unconsumed (R112, R181). -/
def State.dropWaits (s : State) (ck : Nat) : State :=
  s.abandon (fun w => waiterIsEngine w.waiter && w.waiter / 8 == ck)

/-- The sync unit of a stopped core whose operation no settle of the tick released stops now. -/
def State.endSpan (s : State) (ck : Nat) : State :=
  let e := s.eng (ck * 8 + 7)
  if e.halting ∧ e.phase = .span then (s.stopEngine (ck * 8 + 7)).dropWaits ck else s

/-- A stopped core withdraws a leave request that is not yet granted (R102). -/
def State.dropRequest (s : State) (ck : Nat) : State :=
  let c := s.core ck
  if c.leave = .req then s.setCore ck { c with leave := .idle } else s

end Sys2Proof.Machine
end

