-- ==== Sys2Proof/Machine/Paging.lean ====
section
/-!
DEFINITION. Physical addresses, page tables, walks and the regions of a context (chapter Memory, Translation and DMA).
-/

namespace Sys2Proof.Machine

/-! ### The physical map (Table 7-2) -/

/-- Bytes of the cache of a tile (R207). -/
def cacheBytes (size : Nat) : Nat := if size = 0 then 0 else 2 ^ (25 + size)

/-- The tile whose base store or stack a PA lies in, and how far its range runs from it; `none` for a reserved PA. -/
def State.paRange (s : State) (pa : Nat) : Option (Nat × Nat) :=
  if pa < 0x10000000000 then
    let t := pa / 2 ^ 32
    let top := 0x60000000 - cacheBytes (s.rg (uTile t) MMU_CACHE_CFG.size)
    if s.tileUp t ∧ pa % 2 ^ 32 < top then some (t, top - pa % 2 ^ 32) else none
  else if pa < 2 ^ 48 then
    let st := (pa - 0x10000000000) / 2 ^ 36
    let o := (pa - 0x10000000000) % 2 ^ 36
    if st < 2 * s.nTiles ∧ s.tileUp (st / 2) ∧ o < 0xC00000000 then some (st / 2, 0xC00000000 - o) else none
  else none

/-- A range lies wholly within one base-store or HBM range. -/
def State.paOk (s : State) (pa len : Nat) : Bool :=
  match s.paRange pa with
  | some r => len ≤ r.2
  | none => false

def paIsHbm (pa : Nat) : Bool := pa ≥ 0x10000000000
def paStack (pa : Nat) : Nat := (pa - 0x10000000000) / 2 ^ 36
def paTile (pa : Nat) : Nat := if paIsHbm pa then paStack pa / 2 else pa / 2 ^ 32

/-! ### The base-store cache (R208)

The cache is write-through and the one memory holds every byte, so that a line needs no data of its own: it changes the timing of
unplanned accesses only. The set of a line and the form of the pseudo-LRU are not given (PRESUMED, log 111). -/

/-- Sets of 16 lines of 128 bytes. -/
def State.cacheSets (s : State) (t : Nat) : Nat := cacheBytes (s.rg (uTile t) MMU_CACHE_CFG.size) / 2048

/-- Mark a way as used: the tree's bits on the way to it point to the other side. -/
def plruTouch (tree w : Nat) : Nat :=
  ([3, 2, 1, 0].foldl (fun (a : Nat × Nat) i =>
    let b := w / 2 ^ i % 2
    let t := if a.2 / 2 ^ a.1 % 2 = b then a.2 ^^^ 2 ^ a.1 else a.2
    (2 * a.1 + b, t)) (1, tree)).2

/-- The way that the tree points to. -/
def plruVictim (tree : Nat) : Nat := ([3, 2, 1, 0].foldl (fun (a : Nat) _ => 2 * a + tree / 2 ^ a % 2) 1) - 16

/-- An access to a line: a hit uses its way, a miss allocates one, an empty one first. -/
def CacheSet.use (c : CacheSet) (line : Nat) : CacheSet :=
  match c.ways.findIdx? (· == line + 1) with
  | some w => { c with tree := plruTouch c.tree w }
  | none =>
    let w := (c.ways.findIdx? (· == 0)).getD (plruVictim c.tree)
    { ways := c.ways.set w (line + 1), tree := plruTouch c.tree w }

/-- An unplanned read of `n` bytes of a stack by one of the cache's users passes its home tile's cache. -/
def State.cacheRead (s : State) (pa n : Nat) : State :=
  let t := paTile pa
  let sets := s.cacheSets t
  if !paIsHbm pa ∨ sets = 0 ∨ n = 0 then s
  else
    let first := pa / 128
    s.each (List.range ((pa + n - 1) / 128 + 1 - first)) (fun s i =>
      let line := first + i
      let key := t * 2 ^ 18 + line % sets
      { s with caches := mput s.caches key ((mget s.caches key {}).use line) })

/-- Every line of a tile's cache is invalid. -/
def State.dropCache (s : State) (t : Nat) : State := { s with caches := s.caches.filter (fun e => e.1 / 2 ^ 18 != t) }

/-! ### Walks (R212 to R216) -/

/-- A page found: base VA, size, PA, permissions. -/
structure Page where
  va    : Nat
  size  : Nat
  pa    : Nat
  read  : Bool
  write : Bool
  deriving DecidableEq, Repr

/-- The end of a walk: a page; a fault with its cause (R227); an uncorrectable table read at a PA. -/
inductive Walked
  | page (p : Page)
  | fault (cause : Nat)
  | ecc (pa : Nat)
  deriving DecidableEq, Repr

def pteValid (e : Nat) : Bool := bitsOf e 0 1 == 1
def pteRead (e : Nat) : Bool := bitsOf e 1 1 == 1
def pteWrite (e : Nat) : Bool := bitsOf e 2 1 == 1
def pteSize (e : Nat) : Nat := bitsOf e 4 2
def ptePa (e : Nat) : Nat := bitsOf e 16 32 * 2 ^ 16
def pteClean (e : Nat) : Bool := bitsOf e 3 1 == 0 && bitsOf e 6 10 == 0 && bitsOf e 48 16 == 0

/-- Are the page and its table within range and aligned (R215)? -/
def State.pteOk (s : State) (e size : Nat) : Bool := pteClean e && ptePa e % size == 0 && s.paOk (ptePa e) size

/-- A walk of `va` from a root, its table reads meeting the uncorrectable words `bad`. -/
def State.walkFrom (s : State) (bad : List Nat) (valid : Bool) (root va : Nat) : Walked :=
  if !valid || root % 2 ^ 17 != 0 || !s.paOk root (2 ^ 17) then .fault 3
  else
    let a1 := root + bitsOf va 30 14 * 8
    match hitsRange bad a1 8 with
    | some x => .ecc x
    | none =>
      let e1 := s.word a1 8
      if !pteValid e1 then .fault 0
      else if pteSize e1 = 3 then
        (if s.pteOk e1 (2 ^ 30) then .page ⟨va / 2 ^ 30 * 2 ^ 30, 2 ^ 30, ptePa e1, pteRead e1, pteWrite e1⟩ else .fault 3)
      else if pteSize e1 ≠ 0 ∨ !s.pteOk e1 (2 ^ 17) then .fault 3
      else
        let a2 := ptePa e1 + bitsOf va 16 14 * 8
        match hitsRange bad a2 8 with
        | some x => .ecc x
        | none =>
          let e2 := s.word a2 8
          let r := pteRead e1 && pteRead e2
          let w := pteWrite e1 && pteWrite e2
          if !pteValid e2 then .fault 0
          else if pteSize e2 = 1 then
            (if s.pteOk e2 (2 ^ 16) then .page ⟨va / 2 ^ 16 * 2 ^ 16, 2 ^ 16, ptePa e2, r, w⟩ else .fault 3)
          else if pteSize e2 = 2 then
            (if s.pteOk e2 (2 ^ 21) then .page ⟨va / 2 ^ 21 * 2 ^ 21, 2 ^ 21, ptePa e2, r, w⟩ else .fault 3)
          else .fault 3

/-- The root of a context: MMU_CTX_ROOT has one home, for it reads the same on every tile (R233). -/
def State.ctxRoot (s : State) (c : Nat) : Bool × Nat :=
  (s.rg seqHome MMU_CTX_ROOT.valid (8 * c) == 1, s.rg seqHome MMU_CTX_ROOT.root (8 * c) * 2 ^ 17)

def State.walkCtx (s : State) (bad : List Nat) (c va : Nat) : Walked :=
  s.walkFrom bad (s.ctxRoot c).1 (s.ctxRoot c).2 va

/-- The PA of a VA, for an access that needs `write` or read permission; the cause of the fault otherwise. -/
def pageFor (p : Page) (va : Nat) (write : Bool) : Except Nat Nat :=
  if write && !p.write then .error 1
  else if !write && !p.read then .error 2
  else .ok (p.pa + (va - p.va))

/-- Read `n` bytes of a VA range page by page with `fuel` pages at most; `none` at a fault. -/
def State.readVa (s : State) (valid : Bool) (root : Nat) : Nat → Nat → Nat → Option (List Byte)
  | 0, _, _ => some []
  | fuel + 1, va, n =>
    if n = 0 then some []
    else
      match s.walkFrom [] valid root va with
      | .page p =>
        match pageFor p va false with
        | .ok pa =>
          let run := min n (p.va + p.size - va)
          (s.readVa valid root fuel (va + run) (n - run)).map (fun r => s.mem.bytes pa run ++ r)
        | .error _ => none
      | _ => none

/-- Is every page of a VA range mapped with the permissions asked for (R220)? -/
def State.mappedVa (s : State) (valid : Bool) (root : Nat) (r w : Bool) : Nat → Nat → Nat → Bool
  | 0, _, _ => true
  | fuel + 1, va, n =>
    if n = 0 then true
    else
      match s.walkFrom [] valid root va with
      | .page p =>
        let run := min n (p.va + p.size - va)
        (!r || p.read) && (!w || p.write) && s.mappedVa valid root r w fuel (va + run) (n - run)
      | _ => false

/-- Write bytes to a VA range that is mapped for writing, as far as it is. -/
def State.writeVa (s : State) (valid : Bool) (root : Nat) : Nat → Nat → List Byte → State
  | 0, _, _ => s
  | fuel + 1, va, bs =>
    if bs.isEmpty then s
    else
      match s.walkFrom [] valid root va with
      | .page p =>
        if p.write then
          let run := min bs.length (p.va + p.size - va)
          (s.writeMem (p.pa + (va - p.va)) (bs.take run)).writeVa valid root fuel (va + run) (bs.drop run)
        else s
      | _ => s

/-- Leave a mapped VA range undefined. -/
def State.scrambleVa (s : State) (valid : Bool) (root : Nat) : Nat → Nat → Nat → State
  | 0, _, _ => s
  | fuel + 1, va, n =>
    if n = 0 then s
    else
      match s.walkFrom [] valid root va with
      | .page p =>
        let run := min n (p.va + p.size - va)
        (s.scramble (p.pa + (va - p.va)) run).scrambleVa valid root fuel (va + run) (n - run)
      | _ => s

/-! ### Uncorrectable and corrected words of memory (R205, R210) -/

/-- The event and count of an uncorrectable read at a PA. -/
def State.memError (s : State) (pa : Nat) : State :=
  let t := paTile pa
  if paIsHbm pa then
    (s.raise 0x4102 (uTile t) 0 0 pa).rinc (uTile t) MMU_HBM_STAT.uncorrected 1 (8 * (paStack pa % 2))
  else (s.raise 0x4101 (uTile t) 0 0 pa).rinc (uTile t) MMU_BS_ECC.uncorrected 1

/-- The counts of corrected words. -/
def State.memFixed (s : State) (pas : List Nat) : State :=
  s.each pas (fun s pa =>
    if paIsHbm pa then s.rinc (uTile (paTile pa)) MMU_HBM_STAT.corrected 1 (8 * (paStack pa % 2))
    else s.rinc (uTile (paTile pa)) MMU_BS_ECC.corrected 1)

/-- A core's counts of corrected words (R83). -/
def State.coreFixed (s : State) (ck n : Nat) : State := s.rinc (uDie (ck / 64)) CORE_ECC.corrected n (dCore (ck % 64))

/-! ### Regions (R220) -/

/-- Does a VA range lie wholly within one region with the permission? -/
def inRegion (rs : List Region) (va len : Nat) (write : Bool) : Bool :=
  rs.any (fun r => r.va ≤ va && va + len ≤ r.va + r.length && (if write then r.write else r.read))

def inPeerRegion (rs : List Region) (va len : Nat) : Bool :=
  rs.any (fun r => r.va ≤ va && va + len ≤ r.va + r.length && r.peer)

end Sys2Proof.Machine
end

