-- ==== Sys2Proof/Machine/Streams.lean ====
section
/-!
DEFINITION. What a serving instance sends: tokens and ends of requests, and the end of an instance (chapter Token Serving Service).
-/

namespace Sys2Proof.Machine

def State.serv (s : State) (t : Nat) : Serv := mget s.serving t {}
def State.setServ (s : State) (t : Nat) (v : Serv) : State := { s with serving := mput s.serving t v }

/-- The context that the open instance of a tile serves. -/
def State.srvCtx (s : State) (t : Nat) : Option Nat :=
  match mfind s.serving t with
  | some v => if v.isOpen then some v.ctx else none
  | none => none

/-- Micro-joules of an energy in 2^-48 µJ. -/
def microJ (e : Nat) : Nat := e / 2 ^ 48

/-- SRV_TOK messages for a request's tokens from an index on, at most 32 in each. -/
def tokMessages (t reqId : Nat) : Nat → Nat → List Nat → State → State
  | 0, _, _, s => s
  | fuel + 1, i, toks, s =>
    if toks.isEmpty then s
    else
      let l := toks.take 32
      tokMessages t reqId fuel (i + l.length) (toks.drop 32)
        (s.notify 0x45 (le 1 t ++ le 1 l.length ++ le 2 0 ++ le 4 reqId ++ le 4 i ++ l.flatMap (le 4)))

def State.sendToks (s : State) (t : Nat) (r : SrvRequest) (i : Nat) : State :=
  tokMessages t r.reqId (r.gen.length + 1) i (r.gen.drop i) s

/-- SRV_END (Table 8-5). -/
def State.sendEnd (s : State) (t : Nat) (r : SrvRequest) : State :=
  match r.ovr with
  | some o =>
    s.notify 0x49 (le 1 t ++ le 1 o.1 ++ le 2 0 ++ le 4 r.reqId ++ le 4 r.gen.length ++ le 4 r.steps ++ le 8 (microJ r.energy))
  | none => s

/-- The service's WAIT_TAKE 1 on cand_ready goes to the counter's hub, with that hub's default timeout (R238; DESIGN CHOICE, log 76); one
that is refused comes back to the service alone, which asks again at its next occasion. -/
def State.servWait (s : State) (t : Nat) : State :=
  let v := s.serv t
  if !v.isOpen ∨ v.waiting ∨ v.released.isSome then s
  else
    let r := s.resolve t v.ctx v.cand
    if r.2 = .bad ∨ spanBarrier r.1 then s.raise 0x3020 (uTile t) v.cand (waiterService t)
    else
      let op : SpanOp :=
        { kind := .take, obj := r.1, value := 1, waiter := waiterService t, unit := uTile t, ctx := v.ctx, reg := s.tick, expire := 0 }
      (s.setServ t { v with waiting := true }).sendSpan r.2 op 0xFF (s.ctx v.ctx).plan.planId

/-- The service that a context feeds waits for its candidates. -/
def State.servWaits (c : Nat) (s : State) : State :=
  s.each ((List.range s.nTiles).filter (fun t => s.srvCtx t == some c)) State.servWait

/-- What becomes of the service's wait: it is over, released at this tick or not. -/
def State.servDone (s : State) (t : Nat) (released : Bool) : State :=
  s.setServ t { s.serv t with waiting := false, released := if released then some s.tick else (s.serv t).released }

/-- A request ends: its unsent tokens, then SRV_END; its tokens are retained (R247, R248). -/
def State.endRequest (s : State) (t : Nat) (r : SrvRequest) (reason : Nat) : State :=
  let s := s.sendToks t r r.sent
  let r := { r with ovr := some (reason, s.tick), sent := r.gen.length, unsent := none }
  let s := s.sendEnd t r
  s.setServ t { s.serv t with done := (s.serv t).done ++ [r] }

/-- The instance closes: its registers read 0; the tokens of ended requests stay retained. -/
def State.closeServ (s : State) (t : Nat) : State :=
  let v := s.serv t
  let s := (s.setServ t { done := v.done, ctx := v.ctx }).abandon (fun w => w.waiter == waiterService t)
  s.each [SRV_STATUS.stray, SRV_LATE.steps, SRV_LATE.max_tk] (fun s f => s.rs (uTile t) f 0)

/-- Every request of the instance ends for a reason, and it closes. -/
def State.endInstance (s : State) (t reason : Nat) : State :=
  let v := s.serv t
  let s := s.each (v.active.map (·.2) ++ v.queue) (fun s r => s.endRequest t r reason)
  s.closeServ t

/-- The context of an instance aborts or leaves RUNNING other than by pre-emption: reason 0x04. -/
def State.endCtxServing (s : State) (c : Nat) : State :=
  s.each ((List.range s.nTiles).filter (fun t => s.srvCtx t == some c)) (fun s t => s.endInstance t 4)

/-- The serving tile is lost or reset: nothing is sent (R247). -/
def State.endServing (s : State) (t : Nat) : State := { s with serving := mdel s.serving t }

end Sys2Proof.Machine
end

