-- ==== Sys2Proof/Machine/Contexts.lean ====
section
/-!
DEFINITION. Contexts: their state registers, notes and copy records, what a context uses and holds, abort and return to FREE,
and the errors that end a command and with it its context (chapters Plans and Their Execution, Sequencer Lease and Failover).
-/

namespace Sys2Proof.Machine

/-! Context states (Table 4-3). -/
def cFree : Nat := 0
def cAdmitted : Nat := 1
def cRunning : Nat := 2
def cStopping : Nat := 3
def cPreempted : Nat := 4

def State.cstate (s : State) (c : Nat) : Nat := s.cg SEQ_CTX_STATE.state c

def allCtx : List Nat := List.range 64

def State.allFree (s : State) : Bool := allCtx.all (fun c => s.cstate c == cFree)

/-! ### Who acts as primary (R152) -/

/-- The tile whose sequencer holds the lease, is present, and has not reached its own expiry (R154). -/
def State.acting (s : State) : Option Nat :=
  (List.range s.nTiles).find? (fun t =>
    s.tileUp t && s.rg (uTile t) SEQ_ROLE.lease_held == 1 && decide (s.tick < (s.seq t).ownExp))

/-- The unit that raises the primary's events: the acting tile, else the tile of the lease record. -/
def State.primaryUnit (s : State) : Nat :=
  match s.acting with
  | some t => uTile t
  | none => uTile (s.rg 0 KPR_LEASE.holder)

/-- The other of the two tiles that the light list names, if present: the standby, or the one to become it (R171). -/
def State.standbyTile (s : State) : Option Nat :=
  [s.light.primary, s.light.standby].find? (fun t => s.tileUp t && s.acting != some t)

/-! ### Copy records (R159) -/

def State.copyOf (s : State) (c : Nat) : CopyCtx :=
  { ctx := c, start := s.cg SEQ_CTX_START.start c, cycles := s.cg SEQ_CTX_STATE.cycles c
    slip := s.cg SEQ_CTX_SLIP.slip_tk c, slipped := s.cg SEQ_CTX_SLIP.slipped_cycles c
    ovFlows := s.cg SEQ_CTX_OVERRUN.flows c, ovMax := s.cg SEQ_CTX_OVERRUN.max_tk c }

/-- What a context record adds: the other SEQ_CTX registers, the resources and the save-area address. -/
def State.fullCopyOf (s : State) (c : Nat) : CopyCtx :=
  let x := s.ctx c
  { s.copyOf c with
    state := s.cstate c, reason := s.cg SEQ_CTX_STATE.last_reason c
    preTk := s.cg SEQ_CTX_PREEMPT.preempted_tk c, preNo := s.cg SEQ_CTX_PREEMPT.count c, saveVa := x.saveVa
    res :=
      { cores := x.plan.cores, residues := x.plan.slots.map (fun e => (e.channel, e.res))
        positions := x.plan.optical.map (fun e => (e.link, e.pos))
        objects := (x.plan.sync.filter (fun e => e.kind ≤ 3)).map (·.object), regions := x.plan.regions.map (fun r => (r.va, r.length)) } }

/-- The path of copy records and their acknowledgements: the ring, or the base network while the ring is declared faulty (R161). -/
def State.copyPath (s : State) : Path := if s.lease.diverted then .net else .ring

/-- Send a record: one context's, or a snapshot. Nothing is sent without a holder and a standby. -/
def State.sendCopy (s : State) (kind : CopyKind) (cs : List Nat) : State :=
  match s.acting, s.standbyTile with
  | some t, some _ =>
    let q := s.seq t
    let n := (q.nextSeq + 1) % 2 ^ 16
    let m : CopyMsg :=
      { seq := n, kind := kind, epoch := s.rg (uTile t) SEQ_LEASE.epoch
        planEpoch := if kind = .snapshot then s.rg (uTile t) SEQ_EPOCH.epoch else 0
        ctxs := cs.map (if kind = .cycle then s.copyOf else s.fullCopyOf) }
    let s := { s with lease := { s.lease with sent := s.lease.sent ++ [LeaseMsg.copy m s.copyPath] } }
    (s.setSeq t { q with nextSeq := n, unacked := q.unacked ++ [⟨m, s.tick, s.copyPath⟩] }).rs (uTile t) SEQ_BEACON.copy_seq n
  | _, _ => s

/-- A change of a context's state: the register, its notes to the standby. -/
def State.setCstate (s : State) (c v : Nat) : State := (s.cs SEQ_CTX_STATE.state c v).sendCopy .context [c]

/-- CTX_NOTE (Table 13-4). -/
def State.ctxNote (s : State) (c st reason planId : Nat) : State :=
  s.notify 0x24 (le 1 c ++ le 1 st ++ le 1 reason ++ le 5 0 ++ le 8 planId ++ le 8 s.tick)

/-! ### What a context uses and holds (R119, R453) -/

/-- Cores of a plan, by number in the package. -/
def Plan.coreKeys (p : Plan) : List Nat := p.cores.flatMap (fun e => (bitsSet 64 e.2).map (fun c => coreKey e.1 c))

/-- Cores, residues and positions are held in ADMITTED, RUNNING and STOPPING. -/
def State.holdsCores (s : State) (c : Nat) : Bool := 1 ≤ s.cstate c && s.cstate c ≤ 3

def Plan.usesDie (p : Plan) (d : Nat) : Bool := p.cores.any (fun e => e.1 == d)
def Plan.usesLink (p : Plan) (l : Nat) : Bool := p.links.any (fun e => e.link == l) || p.optical.any (fun e => e.link == l)
def Plan.usesToe (p : Plan) (t : Nat) : Bool := p.links.any (fun e => e.link / 8 == t) || p.optical.any (fun e => e.link / 8 == t)
def Plan.usesTile (p : Plan) (t : Nat) : Bool :=
  p.usesDie t || p.slots.any (fun e => bitsOf e.channel 8 4 == t) ||
  p.sync.any (fun e => e.kind ≤ 3 && spanTile e.object == t) || p.usesToe t

/-- Does an engine belong to a context's cores? -/
def State.coreCtx (s : State) (ck : Nat) : Option Nat := (s.core ck).ctx

/-! ### Stopping the cores of a context (R112) -/

/-- Stop every engine of the context's cores; a halted engine keeps its head command. -/
def State.stopCores (s : State) (c : Nat) : State :=
  s.each (s.ctx c).plan.coreKeys (fun s ck =>
    if (s.core ck).ctx = some c then
      let s := s.each (coreEngs ck) (fun s k =>
        if (s.eng k).phase = .halted then
          (s.each ((s.eng k).queue.drop 1) (fun s w => s.complete k w 7 0 0)).setEng k
            { s.eng k with queue := (s.eng k).queue.take 1, fetching := false }
        else s.haltForStop k)
      s.dropRequest ck
    else s)

/-- The waits of a stopped context end unconsumed (R112, R181): those of its cores, of its peers' sync units and of the service that it
feeds. -/
def State.endWaits (s : State) (c : Nat) : State :=
  let plan := (s.ctx c).plan
  let s := s.each plan.coreKeys State.endSpan
  let s := s.abandon (fun w => !waiterIsHost w.waiter && (w.ctx == c || w.plan == some plan.planId))
  s.each ((List.range s.nTiles).filter (fun t => s.srvCtx t == some c)) (fun s t => s.setServ t { s.serv t with waiting := false })

/-- Cores of a context released. -/
def State.releaseCores (s : State) (c : Nat) : State :=
  { s with cores := s.cores.map (fun e => (e.1, if e.2.ctx = some c then { e.2 with ctx := none, target := none } else e.2)) }

/-- TLB entries of a context dropped (R217). -/
def State.dropTlb (s : State) (p : Nat → Bool) : State :=
  { s with engs := s.engs.map (fun e => (e.1, { e.2 with tlb := e.2.tlb.filter (fun x => !p x.ctx) })) }

/-- Registrations of kind 0 go, and queue pairs move to the error state with 0x8103 (R375). -/
def State.endHost (s : State) (c : Nat) : State :=
  let s := { s with mrs := s.mrs.filter (fun e => !(e.2.kind == 0 && e.2.ctx == c)) }
  s.each (s.qps.filter (fun e => e.2.ctx == c && !e.2.err)) (fun s e =>
    (s.qpErr e.1 e.2).raise 0x8103 (uPort e.2.port) e.1)

/-- The runs of a context that leaves: what is under way of it goes on as unplanned bytes of no context. -/
def State.forgetRuns (s : State) (c : Nat) : State :=
  let m (x : LinkMsg) : LinkMsg := if x.ctx = c then { x with ctx := 64 } else x
  { s with
    net := s.net.map (fun r => if r.ctx = c then { r with ctx := 64, flow := none, msg := r.msg.map m } else r)
    links := s.links.map (fun e => (e.1, { e.2 with queue := e.2.queue.map m, held := e.2.held.map m, replay := e.2.replay.map m })) }

/-- A context returns to FREE (R119, R195, R371). -/
def State.freeCtx (s : State) (c reason : Nat) : State :=
  let x := s.ctx c
  let bad := s.unclean c
  let s := match bad with
    | [] => s
    | b :: _ => s.raise 0x3040 s.primaryUnit b 0 bad.length
  let s := s.endCtxServing c
  let s := ((s.clearSpan c).releaseCores c).forgetRuns c
  let s := (s.dropTlb (· == c)).endHost c
  let s := (s.rs seqHome MMU_CTX_ROOT.valid 0 (8 * c)).rs seqHome MMU_CTX_ROOT.root 0 (8 * c)
  let s := (s.cs SEQ_CTX_STATE.last_reason c (if reason = 0 then s.cg SEQ_CTX_STATE.last_reason c else reason))
  let s := ((s.setCtx c {}).setCstate c cFree).markEnd (oCtx c)
  let s := s.ctxNote c cFree reason x.plan.planId
  { s with planReady := s.planReady.filter (fun e => e.1 != x.plan.planId) }

/-- Forward a stop or abort of a multi-package plan to its members (R148): 1 STOP at a safe point,
2 ABORT, 3 forced STOP. -/
def State.tellMembers (s : State) (c what : Nat) : State :=
  let p := (s.ctx c).plan
  if p.multi then s.each p.links (fun s e => s.sendLink e.link 0x33 [p.planId, what]) else s

/-- The primary aborts a context (R147, Table 4-11); while no sequencer holds the lease the abort waits for the next holder
(R152, R171). -/
def State.abortCtx (s : State) (c reason : Nat) : State :=
  if s.cstate c = cFree then s
  else if s.acting.isNone then
    (if s.lateAborts.any (fun a => a.1 == c) then s else { s with lateAborts := s.lateAborts ++ [(c, reason)] })
  else
    let p := (s.ctx c).plan
    let s := (s.stopCores c).endWaits c
    let s := s.raise 0x9110 s.primaryUnit c 0 (reason + p.planId % 2 ^ 56 * 2 ^ 8)
    let s := if reason = 0x17 then s else s.tellMembers c 2
    s.freeCtx c reason

/-- Abort every context that satisfies `p`, in order of number. -/
def State.abortWhere (s : State) (p : State → Nat → Bool) (reason : Nat) : State :=
  s.each (allCtx.filter (p s)) (fun s c => s.abortCtx c reason)

/-- Abort the context of a core, if it has one. -/
def State.abortCore (s : State) (ck reason : Nat) : State :=
  match s.coreCtx ck with
  | some c => s.abortCtx c reason
  | none => s

/-! ### Errors that end a command -/

/-- Rejection at the check phase (R92): the queue halts with the command at its head. Status 0x02 is the bound. -/
def State.rejectHead (s : State) (k status : Nat) : State :=
  match (s.eng k).queue with
  | [] => s
  | w :: _ =>
    let s := s.complete k w status 0 0
    let s := s.setEng k { s.eng k with phase := .halted }
    let s := s.raise (if status = 2 then 0x9101 else 0x9100) (uDie (keyDie k)) 0 k (cmdSeq w)
    s.abortCore (engCore k) 0x10

/-- An uncorrectable core-store read of a command (R83): status 0x04, event 0x4100, abort for reason 0x11. -/
def State.dataError (s : State) (k a : Nat) : State :=
  let s := (s.busyFree k).endHead k 4
  let s := s.rinc (uDie (keyDie k)) CORE_ECC.uncorrected 1 (dCore (keyCore k))
  let s := s.raise 0x4100 (uDie (keyDie k)) 0 k a
  s.abortCore (engCore k) 0x11

/-- SYN_TO_LOG of a tile (R87, R188). -/
def State.toLog (s : State) (t value thr waiter : Nat) : State :=
  ((s.rs (uTile t) SYN_TO_LOG.value value).rs (uTile t) SYN_TO_LOG.threshold thr).rs (uTile t) SYN_TO_LOG.waiter waiter

end Sys2Proof.Machine
end

