-- ==== Sys2Proof/Machine/Ecp.lean ====
section
/-!
DEFINITION. The receiving side of the Emien Control Protocol: the checks every message passes, in order, the reply cache, and the
queue of messages to the sequencer (R166, R366 to R370).
-/

namespace Sys2Proof.Machine

/-- Reserved bytes of a body: bytes `i` to `i + n - 1` of those the message holds. -/
def rsvBytes (h : EcpHdr) (i n : Nat) : List Byte := le n (bitsOf h.bodyRsv (8 * i) (8 * n))

/-- The bytes 0 to length - 33 that a tag covers (R366). -/
def ecpBytes (h : EcpHdr) (type : Nat) (body : List Byte) : List Byte :=
  le 2 h.magic ++ le 1 h.version ++ le 1 type ++ le 2 h.length ++ le 2 h.flags ++ le 8 h.seq ++ le 4 h.reqId ++
  le 4 h.code ++ le 8 h.rsv ++ (if h.short then h.tail else body ++ h.tail)

/-- Check 1 of R367. -/
def lengthOk (h : EcpHdr) : Bool := h.size ≥ 64 && 64 ≤ h.length && h.length ≤ 8192 && h.length ≤ h.size

/-- Check 4 (R368): above the highest accepted less 64, and not accepted before. -/
def ClaimSt.seqFresh (c : ClaimSt) (n : Nat) : Bool :=
  n > c.seqHi || (n + 64 > c.seqHi && !bitsOf c.seqMask (c.seqHi - n) 1 == 1)

/-- The window with `n` accepted. -/
def ClaimSt.seqTake (c : ClaimSt) (n : Nat) : ClaimSt :=
  if n > c.seqHi then
    { c with seqHi := n, seqMask := if n - c.seqHi ≥ 64 then 1 else (c.seqMask * 2 ^ (n - c.seqHi) + 1) % 2 ^ 64 }
  else { c with seqMask := c.seqMask ||| 2 ^ (c.seqHi - n) }

/-- A drop counted in HPT_ECP_DROP of the port. -/
def State.ecpDrop (s : State) (h : EcpHdr) (f : Fld) : State := s.rinc (uPort h.port) f 1

/-- An authentication drop: event 0x8020, at most once per 1 s and port. -/
def State.authDrop (s : State) (h : EcpHdr) : State :=
  let s := s.ecpDrop h HPT_ECP_DROP.auth
  let due : Bool := match mfind s.claim.authEvent h.port with
    | some t => decide (s.tick ≥ t + 100000000)
    | none => true
  if due then { s with claim := { s.claim with authEvent := mput s.claim.authEvent h.port s.tick } }.raise 0x8020 (uPort h.port)
  else s

/-- Is a request with this req_id still being executed (R369)? Such are admissions not yet answered, TLB invalidations held or under
way, span operations that wait for their settle, and messages queued for the sequencer. -/
def State.executing (s : State) (reqId : Nat) : Bool :=
  s.admits.any (fun a => a.hdr.reqId == reqId) ||
  (match s.tlbCur with
   | some r => r.hdr.any (fun h => h.reqId == reqId)
   | none => false) ||
  s.tlbHeld.any (fun r => r.hdr.any (fun h => h.reqId == reqId)) ||
  s.hubs.any (fun e => e.2.inbox.any (fun w => w.hdr.any (fun h => h.reqId == reqId))) ||
  s.claim.queued.any (fun i => match i with
    | .admitPlan h .. | .stop h .. | .abort h .. | .epochSet h .. => h.reqId == reqId
    | _ => false)

/-- The cached reply to a request, sent once more to where the request came from. -/
def State.resend (s : State) (h : EcpHdr) (o : EcpOut) : State :=
  s.sendEcp h.port h.ip h.udp o.type 1 h.reqId o.code o.body

/-- The CLAIM body without its signature field. -/
def claimBody (np pub notifyIp notifyPort rsv : Nat) (sig : List Byte) : List Byte :=
  le 16 np ++ le 32 pub ++ le 16 notifyIp ++ le 2 notifyPort ++ le 2 rsv ++ le 4 sig.length

/-- Step 4 of R364. -/
def State.claimOk (s : State) (o : Offer) (np : Nat) (body sig : List Byte) : Bool :=
  o.np == np && decide (s.tick ≤ o.at_ + 1000000000) && hssVerify (llOwnerKey s.boot.flash) (body ++ o.bytes) sig

/-- A claim message passes the checks of R367; it carries no tag. -/
def claimGood (h : EcpHdr) : Bool :=
  lengthOk h && h.magic == 0x5045 && h.version == 1 && !h.short && h.flags == 0 && h.rsv == 0

/-- A claim completes in this tick: a message of the tick under the key of before fails its tag (Table 13-8). -/
def State.claimSoon (s : State) : Bool :=
  s.soon (fun i => match i with
    | .claim h np pub ip port rsv sig =>
      s.unitUp (uPort h.port) && claimGood h &&
      (match s.claim.offer with
       | some o => s.claimOk o np (claimBody np pub ip port rsv sig) sig
       | none => false)
    | _ => false)

/-- A request passes the third check of R367. -/
def State.authentic (s : State) (h : EcpHdr) (type : Nat) (body : List Byte) : Bool :=
  s.claim.claimed && !s.claimSoon && h.tag == hmac s.claim.key (ecpBytes h type body)

/-- Everything a datagram of a type passes before the request runs. `claiming` is CLAIM_HELLO and CLAIM, which carry no tag. -/
def State.ecpIn (s : State) (h : EcpHdr) (type : Nat) (claiming : Bool) (body : List Byte) (run : State → State) : State :=
  if !s.unitUp (uPort h.port) then s
  else
  let s := s.countFec h.port h.rx
  if !lengthOk h then s.ecpDrop h HPT_ECP_DROP.len
  else if h.magic ≠ 0x5045 ∨ h.version ≠ 1 then s.ecpDrop h HPT_ECP_DROP.fmt
  else if claiming then (if claimGood h then run s else s.ecpDrop h HPT_ECP_DROP.fmt)
  else if !s.authentic h type body then s.authDrop h
  else if !s.claim.seqFresh h.seq then s.ecpDrop h HPT_ECP_DROP.replay
  else
    let s := { s with claim := s.claim.seqTake h.seq }
    if h.short ∨ h.flags ≠ 0 ∨ h.rsv ≠ 0 then s.ecpDrop h HPT_ECP_DROP.fmt
    else
      let s := { s with claim := { s.claim with notifyHpt := h.port } }
      if s.executing h.reqId then s
      else
        match s.claim.cache.find? (fun e => e.out.reqId == h.reqId && e.rtype == type) with
        | some e => s.resend h e.out
        | none => run s

/-- A message to the sequencer: run while one holds the lease, else queued at the host port, up to 64 (R166). -/
def State.toSequencer (s : State) (i : Instr) (run : State → State) : State :=
  match s.acting with
  | some _ => run s
  | none =>
    if s.claim.queued.length < 64 then { s with claim := { s.claim with queued := s.claim.queued ++ [i] } }
    else { s with claim := { s.claim with dropped := s.claim.dropped + 1 } }

end Sys2Proof.Machine
end

