-- ==== Sys2Proof/Machine/Network.lean ====
section
/-!
DEFINITION. The on-package network: its channels and their capacity, the routes between tiles, and what each channel and each bond
port sends in a tick (R129 to R134).
-/

namespace Sys2Proof.Machine

/-! ### Channels (R129, R133, R259) -/

/-- The lanes that carry data in the receive direction of a side (Table 9-2). -/
def State.dataLanes (s : State) (u m : Nat) : Nat :=
  if narrowMod u m then 64 else if s.rg u D2D_STATUS.degraded (dMod m) = 1 then 512 else 1024

/-- Unit intervals in a tick at the rate of a side: 4, 8 or 16 Gb/s for 10 ns. -/
def State.unitIntervals (s : State) (u m : Nat) : Nat := 40 * 2 ^ s.rg u D2D_STATUS.rate (dMod m)

/-- Bits per slot of a module whose receive side is `m` of unit `u`: none while it carries none; a slot whose tick ends with the
markers loses their 32 unit intervals (R259, R260). -/
def State.modBits (s : State) (u m : Nat) (marker : Bool := false) : Nat :=
  let st := s.rg u D2D_STATUS.state (dMod m)
  if st = 7 ∨ st = 8 then s.dataLanes u m * (s.unitIntervals u m - (if marker then 32 else 0)) else 0

/-- Whole cells per slot (Table 9-2), and 64-byte messages per slot of a narrow module. -/
def State.modCells (s : State) (u m : Nat) (marker : Bool := false) : Nat := s.modBits u m marker / 2048
def State.modMsgs (s : State) (u m : Nat) : Nat := s.modBits u m / 512

def portNo (n : Nat) : Port := if n = 0 then .n else if n = 1 then .e else if n = 2 then .s else .w

/-- The port that faces a port from the other side of an edge. -/
def oppPort (p : Nat) : Nat := (p + 2) % 4

/-- A channel ID's kind and tile, and the full-width capacity (Table 4-5). -/
def chKind (ch : Nat) : Nat := ch / 4096
def chTile (ch : Nat) : Nat := bitsOf ch 8 4
def chFull (ch : Nat) : Nat := if chKind ch = 2 then 160 else if chKind ch ≤ 4 then 80 else 4

def edgeChan (t p : Nat) : Nat := 0x2000 + t * 256 + p
def toEngine (t : Nat) : Nat := 0x3000 + t * 256
def fromEngine (t : Nat) : Nat := 0x4000 + t * 256
def fromHost (t : Nat) : Nat := 0x6000 + t * 256

/-- The current capacity of a channel. -/
def State.chanCap (s : State) (ch : Nat) (marker : Bool := false) : Nat :=
  let t := chTile ch
  if !s.tileUp t then 0
  else if chKind ch = 2 then
    match s.neighbour t (portNo (ch % 4)) with
    | some n =>
      if s.tileUp n then
        s.modCells (uTile n) (2 * oppPort (ch % 4)) marker + s.modCells (uTile n) (2 * oppPort (ch % 4) + 1) marker
      else 0
    | none => 0
  else if chKind ch = 3 then s.modCells (uToe t) 0 marker
  else if chKind ch = 4 then s.modCells (uTile t) 8 marker
  else 4

/-! ### Routes -/

/-- The paths of a search, each a tile and the edge channels to it, and the tiles seen: on to the neighbours that `good` channels reach,
until one path ends at `b`. -/
def State.search (s : State) (good : Nat → Bool) (b : Nat) : Nat → List Nat → List (Nat × List Nat) → Option (List Nat)
  | 0, _, _ => none
  | fuel + 1, seen, front =>
    match front.find? (fun x => x.1 == b) with
    | some x => some x.2
    | none =>
      let next := front.flatMap (fun x => [0, 1, 2, 3].filterMap (fun p =>
        match s.neighbour x.1 (portNo p) with
        | some n => if !seen.contains n && s.tileUp n && good (edgeChan x.1 p) then some (n, x.2 ++ [edgeChan x.1 p]) else none
        | none => none))
      s.search good b fuel (seen ++ next.map (·.1)) next

/-- The edge channels from tile `a` to tile `b`: those on which the flow has slots, if they lead there; else a shortest path. The spec
gives no routes (DESIGN CHOICE, log 109). -/
def State.route (s : State) (c : Nat) (flow : Option Nat) (a b : Nat) : Option (List Nat) :=
  let own (ch : Nat) : Bool := (s.ctx c).plan.slots.any (fun e => e.channel == ch && some e.flow == flow)
  match s.search own b 9 [a] [(a, [])] with
  | some p => some p
  | none => s.search (fun _ => true) b 9 [a] [(a, [])]

/-- The bond port of a core: out of it, and into it. -/
def bondOut (ck : Nat) : Nat := 0x10000 + 2 * ck
def bondIn (ck : Nat) : Nat := 0x10001 + 2 * ck

/-! ### What a station sends in a tick (R134) -/

def Run.size (r : Run) : Nat := match r.msg with
  | some m => m.data.length
  | none => r.data.length

/-- Grants of up to `left` units to the runs of a station that satisfy `p`, in order: the runs with what they have, and what is left. A
message goes whole. -/
def grant (unit : Nat) (p : Run → Bool) : Nat → List (Run × Nat) → List (Run × Nat) × Nat
  | left, [] => ([], left)
  | left, x :: l =>
    let want := if p x.1 then cdiv x.1.size unit - x.2 else 0
    let n := if x.1.msg.isSome ∧ want > left then 0 else min want left
    let r := grant unit p (left - n) l
    ((x.1, x.2 + n) :: r.1, r.2)

/-- The offset from the start of a context's cycle, once it has begun. -/
def State.cycleOff (s : State) (c : Nat) : Option Nat :=
  let at_ := s.cg SEQ_CTX_START.start c
  if s.holdsCores c ∧ (s.ctx c).started ∧ at_ ≤ s.tick then some (s.tick - at_) else none

/-- The last slot of a cycle that an entry owns. -/
def SlotE.lastSlot (e : SlotE) : Option Nat :=
  ((List.range 16).map (fun i => e.last - i)).find? (fun o => decide (e.first ≤ o) && bitsOf e.res (o % 16) 1 == 1)

/-- Planned bytes on a channel are late past the last slot that their flow owns there. -/
def State.lateRun (s : State) (ch : Nat) (r : Run) : Bool :=
  match r.flow with
  | none => false
  | some f =>
    match s.cycleOff r.ctx with
    | none => true
    | some off => ((s.ctx r.ctx).plan.slots.filter (fun e => e.channel == ch && e.flow == f)).all (fun e =>
        match e.lastSlot with
        | some o => decide (o < off)
        | none => true)

/-- The entries that own cells of a channel in this slot, with their contexts (R132). -/
def State.slotOwners (s : State) (ch : Nat) : List (Nat × SlotE) :=
  (s.ctxs.map (·.1)).flatMap (fun c =>
    match s.cycleOff c with
    | none => []
    | some off => ((s.ctx c).plan.slots.filter (fun e => e.channel == ch && decide (e.first ≤ off) && decide (off ≤ e.last) &&
        bitsOf e.res (s.tick % 16) 1 == 1)).map (fun e => (c, e)))

/-- What a channel sends in this tick: owned cells; late cells in what their context leaves unused; in residue 15 late cells of any
context; then unplanned cells. -/
def State.serveChannel (s : State) (ch : Nat) (l : List (Run × Nat)) : List (Run × Nat) :=
  let cap := s.chanCap ch (s.tick % 64 == 63)
  let own := (s.slotOwners ch).foldl (fun (a : List (Run × Nat) × Nat × List (Nat × Nat)) (x : Nat × SlotE) =>
    let n := min x.2.cells a.2.1
    let g := grant 256 (fun r => r.ctx == x.1 && r.flow == some x.2.flow) n a.1
    (g.1, a.2.1 - (n - g.2), (x.1, g.2) :: a.2.2)) (l, cap, [])
  let late := own.2.2.foldl (fun (a : List (Run × Nat) × Nat) (x : Nat × Nat) =>
    let n := min x.2 a.2
    let g := grant 256 (fun r => r.ctx == x.1 && s.lateRun ch r) n a.1
    (g.1, a.2 - (n - g.2))) (own.1, own.2.1)
  let any := if s.tick % 16 = 15 then grant 256 (s.lateRun ch) late.2 late.1 else late
  (grant 256 (fun r => r.flow.isNone) any.2 any.1).1

/-- What a bond port carries in a tick and direction, in bytes: 625 GB/s at 1.50 GHz, with the core clock. -/
def State.bondBytes (s : State) (ck : Nat) : Nat :=
  6250 * point50 (s.rg (uDie (ck / 64)) PWR_DIE.point) / (30 * (if (s.core ck).stretched then 2 else 1))

/-- What a bond port sends: in residues 0 to 14 the context's planned bytes, D0 and D1 in turn; in residue 15 unplanned ones first. -/
def State.serveBond (s : State) (st : Nat) (l : List (Run × Nat)) : List (Run × Nat) :=
  let ck := (st - 0x10000) / 2
  let cap := s.bondBytes ck
  let plan (a : List (Run × Nat) × Nat) : List (Run × Nat) × Nat :=
    let d (e : Nat) (r : Run) : Bool := r.flow.isSome && r.eng == some (ck * 8 + e)
    let d0 := grant 1 (d 5) (a.2 / 2) a.1
    let d1 := grant 1 (d 6) (a.2 - a.2 / 2 + d0.2) d0.1
    grant 1 (fun r => r.flow.isSome) d1.2 d1.1
  let other (a : List (Run × Nat) × Nat) : List (Run × Nat) × Nat := grant 1 (fun r => r.flow.isNone) a.2 a.1
  if s.tick % 16 = 15 then (plan (other (l, cap))).1 else (other (plan (l, cap))).1

/-- What stays of a run after `n` bytes of it went on, and what went on. -/
def Run.stay (r : Run) (n : Nat) : Option Run :=
  if n ≥ r.size then none else some { r with a := r.a + n, data := r.data.drop n }
def Run.gone (r : Run) (n : Nat) : Option Run :=
  if n = 0 then none else some { r with data := r.data.take n, path := r.path.tail }

/-! ### Where runs end -/

/-- Bytes delivered to a flow of this package (R137): its count, and the tick at which it is complete. -/
def State.flowAdd (s : State) (c flow n : Nat) : State :=
  let x := s.ctx c
  let need := ((x.plan.flows.find? (fun f => f.flow == flow)).map (·.bytes)).getD 0
  s.setCtx c { x with flows := x.flows.map (fun f =>
    if f.flow = flow then
      { f with got := f.got + n
               done := if f.done = none ∧ f.got + n ≥ need then some s.tick else f.done }
    else f) }

def State.setXfer (s : State) (l : Nat) (x : PeerXfer) : State :=
  s.setLink l { s.link l with xfers := x :: (s.link l).xfers.filter (fun y => y.tag != x.tag) }
def State.dropXfer (s : State) (l tag : Nat) : State :=
  s.setLink l { s.link l with xfers := (s.link l).xfers.filter (fun y => y.tag != tag) }

/-- `n` bytes of a peer's transfer reached their completion point: with the last of them DELIVERED goes back (Table 6-6). -/
def State.landedAt (s : State) (l tag n : Nat) : State :=
  match (s.link l).xfers.find? (fun x => x.tag == tag) with
  | none => s
  | some x =>
    if !x.good then s
    else if x.landed + n ≥ x.total then (s.dropXfer l tag).sendLink l 0x18 [x.pod, x.pkg, tag]
    else s.setXfer l { x with landed := x.landed + n }

/-- `n` bytes that a packet of a queue pair brought reached their completion point (R376). -/
def State.hostLanded (s : State) (qpn psn n : Nat) : State :=
  match mfind s.qps qpn with
  | none => s
  | some q => s.setQp qpn { q with ops := q.ops.map (fun o => if o.psn = psn then { o with left := o.left - n } else o) }

/-- A run at the end of its path: its bytes are written, and its flow's tracker counts them; a data message joins its link's queue. -/
def State.landRun (s : State) (r : Run) : State :=
  match r.msg with
  | some m => s.sendLink m.link m.type m.args m.data m.vc m.ctx
  | none =>
    let n := r.data.length
    let s := if r.mess then s.scramble r.a n else s.writeMem r.a r.data
    let s := match r.flow with
      | some f => if f = 0 then s else s.flowAdd r.ctx f n
      | none => s
    match r.from_, r.host with
    | some x, _ => s.landedAt x.1 x.2 n
    | none, some h => s.hostLanded h.1 h.2.1 n
    | none, none => s

/-- Bytes enter the network. -/
def State.launch (s : State) (r : Run) : State :=
  if r.path = [] then s.landRun r else { s with net := s.net ++ [r] }

/-- A tick of the network: every channel and bond port sends what it may of what waits there. -/
def State.netTick (s : State) : State :=
  match s.net with
  | [] => s
  | _ =>
    let served : List (Run × Nat) := ((s.net.filterMap (·.path.head?)).eraseDups).flatMap (fun st =>
      let l := (s.net.filter (fun r => r.path.head? == some st)).map (fun r => (r, 0))
      if st < 0x10000 then (s.serveChannel st l).map (fun x => (x.1, 256 * x.2)) else s.serveBond st l)
    let on := served.filterMap (fun x => x.1.gone x.2)
    State.each { s with net := served.filterMap (fun x => x.1.stay x.2) ++ on.filter (fun r => r.path != []) }
      (on.filter (fun r => r.path == [])) State.landRun

end Sys2Proof.Machine
end

