-- ==== Sys2Proof/Machine/Images.lean ====
section
/-!
DEFINITION. Plan images: header, directory, section entries, and the layout rules whose breach is refused with code 0x0B
(R114 to R117, R126, R142, R191, R198, R220, R361).
-/

namespace Sys2Proof.Machine

/-- `n` bytes of an image at an offset, as a number. -/
def imgNum (img : List Byte) (off n : Nat) : Nat := unle ((img.drop off).take n)

/-! ### Header and directory (Table 4-1, R115) -/

def imgMagic (i : List Byte) : Nat := imgNum i 0 4
def imgMajor (i : List Byte) : Nat := imgNum i 5 1
def imgSections (i : List Byte) : Nat := imgNum i 6 2
def imgPlanId (i : List Byte) : Nat := imgNum i 8 8
def imgEpoch (i : List Byte) : Nat := imgNum i 16 4
def imgPeriod (i : List Byte) : Nat := imgNum i 20 4
def imgCycles (i : List Byte) : Nat := imgNum i 24 4
def imgFlags (i : List Byte) : Nat := imgNum i 28 4
def imgLen (i : List Byte) : Nat := imgNum i 32 8

/-- Code 0x01. -/
def imgHeaderBad (i : List Byte) : Bool :=
  imgMagic i != 0x4E4C504B || imgMajor i != 1 || imgLen i > 2 ^ 28 || imgLen i < 128

/-- The digest, over the image with its field 0. -/
def imgDigestOk (i : List Byte) : Bool :=
  sha256 (i.take 64 ++ List.replicate 32 0 ++ i.drop 96) == (i.drop 64).take 32

structure Section where
  type : Nat
  zero : Nat
  count : Nat
  off : Nat
  deriving DecidableEq, Repr

/-- The directory, if its count is 1 to 64 and it lies in the image. -/
def directory (i : List Byte) : List Section :=
  let n := imgSections i
  if 1 ≤ n ∧ n ≤ 64 ∧ 128 + 16 * n ≤ i.length then
    (List.range n).map (fun k =>
      let o := 128 + 16 * k
      ⟨imgNum i o 2, imgNum i (o + 2) 2, imgNum i (o + 4) 4, imgNum i (o + 8) 8⟩)
  else []

def Section.within (d : Section) (i : List Byte) : Bool := d.off + 16 * d.count ≤ i.length

/-- The entries of a section, as 128-bit numbers. -/
def entriesOf (i : List Byte) (type : Nat) : List Nat :=
  match (directory i).find? (fun d => d.type == type && d.within i) with
  | some d => (List.range d.count).map (fun k => imgNum i (d.off + 16 * k) 16)
  | none => []

/-- The rules of R115. -/
def directoryOk (i : List Byte) : Bool :=
  let ds := directory i
  !ds.isEmpty &&
  ds.all (fun d => 1 ≤ d.type && d.type ≤ 10 && d.zero == 0 && d.within i) &&
  (List.range 7).all (fun t => (ds.filter (fun d => d.type == t + 1)).length == 1) &&
  (List.range 3).all (fun t => (ds.filter (fun d => d.type == t + 8)).length ≤ 1)

/-! ### Entries (Tables 4-6 to 4-8, 4-25 to 4-29, 6-9, 7-5) -/

def streamE (v : Nat) : StreamE := ⟨bitsOf v 0 3, bitsOf v 3 6, bitsOf v 9 3, bitsOf v 16 17, bitsOf v 40 24, bitsOf v 64 32⟩
def slotE (v : Nat) : SlotE := ⟨bitsOf v 0 16, bitsOf v 16 16, bitsOf v 32 20, bitsOf v 52 20, bitsOf v 72 15, bitsOf v 87 8⟩
def flowE (v : Nat) : FlowE := ⟨bitsOf v 0 16, bitsOf v 16 1 == 1, bitsOf v 24 40, bitsOf v 64 20, bitsOf v 84 16⟩
def optE (v : Nat) : OptE := ⟨bitsOf v 0 6, bitsOf v 6 2, bitsOf v 16 16, bitsOf v 32 15, bitsOf v 48 20, bitsOf v 68 20⟩
def saveE (v : Nat) : SaveE := ⟨bitsOf v 0 16, bitsOf v 16 3, bitsOf v 19 6, bitsOf v 25 2, bitsOf v 32 24, bitsOf v 64 23⟩
def linkE (v : Nat) : LinkE := ⟨bitsOf v 0 6, bitsOf v 8 6, bitsOf v 16 7⟩
def regionE (v : Nat) : Region :=
  ⟨bitsOf v 0 44, bitsOf v 48 44, bitsOf v 92 1 == 1, bitsOf v 93 1 == 1, bitsOf v 94 1 == 1, bitsOf v 95 1 == 1⟩

/-- A SYNC entry; a barrier's descriptor is read from the image. -/
def syncE (i : List Byte) (v : Nat) : SyncE :=
  let kind := bitsOf v 0 4
  let aux := bitsOf v 96 32
  ⟨kind, bitsOf v 32 32, bitsOf v 64 16, aux, if kind = 2 ∨ kind = 3 then imgNum i aux 64 else 0⟩

/-- Are the bits [lo+w-1:lo] of an entry 0, for each of a list? -/
def zeroBits (v : Nat) (l : List (Nat × Nat)) : Bool := l.all (fun p => bitsOf v p.1 p.2 == 0)

/-- The reserved bits of each section's entries. -/
def reservedOf (type : Nat) : List (Nat × Nat) :=
  match type with
  | 1 => [(12, 4), (33, 7), (96, 32)]
  | 2 => [(3, 61)]
  | 3 => [(95, 33)]
  | 4 => [(17, 7), (100, 28)]
  | 5 => [(4, 28), (80, 16)]
  | 6 => [(16, 16), (52, 76)]
  | 7 => [(44, 4), (96, 32)]
  | 8 => [(8, 8), (47, 1), (88, 40)]
  | 9 => [(27, 5), (56, 8), (87, 41)]
  | 10 => [(6, 2), (14, 2), (23, 105)]
  | _ => []

def reservedOk (i : List Byte) : Bool :=
  (List.range 10).all (fun t => (entriesOf i (t + 1)).all (fun v => zeroBits v (reservedOf (t + 1))))

/-- The plan an image holds. -/
def planOf (i : List Byte) : Plan where
  planId := imgPlanId i
  epoch := imgEpoch i
  period := imgPeriod i
  cycles := imgCycles i
  multi := imgFlags i % 2 == 1
  streams := (entriesOf i 1).map streamE
  cores := (entriesOf i 2).map (fun v => (bitsOf v 0 3, bitsOf v 64 64))
  slots := (entriesOf i 3).map slotE
  flows := (entriesOf i 4).map flowE
  sync := (entriesOf i 5).map (syncE i)
  safe := (entriesOf i 6).map (fun v => bitsOf v 32 20)
  regions := (entriesOf i 7).map regionE
  optical := (entriesOf i 8).map optE
  save := (entriesOf i 9).map saveE
  links := (entriesOf i 10).map linkE

/-! ### The rules of R117 and of the other sections -/

/-- No two of a list satisfy `bad`, whichever stands first. -/
def pairsOk {α : Type} (bad : α → α → Bool) : List α → Bool
  | [] => true
  | x :: xs => xs.all (fun y => !bad x y) && pairsOk bad xs

def clash (a al b bl : Nat) : Bool := decide (a < b + bl) && decide (b < a + al)

def Plan.coreIn (p : Plan) (die core : Nat) : Bool := p.cores.any (fun e => e.1 == die && bitsOf e.2 core 1 == 1)

def coresOk (s : State) (p : Plan) : Bool :=
  pairsOk (fun a b => a.1 == b.1) p.cores && p.cores.all (fun e => decide (e.1 < s.nTiles) && e.2 != 0)

/-- Commands with safe_after = 1 in a stream. -/
def safeMarks (i : List Byte) (e : StreamE) : Nat :=
  ((List.range e.count).filter (fun j => bitsOf (imgNum i (e.offset + 64 * j + 12) 1) 1 1 == 1)).length

def streamsOk (i : List Byte) (p : Plan) : Bool :=
  p.streams.all (fun e => p.coreIn e.die e.core && 1 ≤ e.count && e.count ≤ 65536 && e.la % 64 == 0 && e.offset % 64 == 0 &&
    e.offset + 64 * e.count ≤ i.length && e.la + 64 * e.count ≤ 0x400000 && safeMarks i e == p.safe.length) &&
  pairsOk (fun (a b : StreamE) => a.die == b.die && a.core == b.core &&
    (a.engine == b.engine || clash a.la (64 * a.count) b.la (64 * b.count))) p.streams &&
  p.coreKeys.all (fun ck => (List.range 8).all (fun e =>
    p.streams.any (fun x => coreKey x.die x.core == ck && x.engine == e)))

/-- Strictly rising, the last below `p`. -/
def risingBelow (p : Nat) : List Nat → Bool
  | [] => true
  | [x] => x < p
  | x :: y :: l => x < y && risingBelow p (y :: l)

def safeOk (i : List Byte) (p : Plan) : Bool :=
  (entriesOf i 6).zipIdx.all (fun e => bitsOf e.1 0 16 == e.2 + 1) && risingBelow p.period p.safe

/-- Code 0x0C: a gap over 5,000 tk, from s_k to the first safe point and from the last to e_k among them (R142). -/
def gapsBad (p : Plan) : Bool :=
  let pts := 0 :: p.safe ++ [p.period]
  (pts.zip (pts.drop 1)).any (fun x => decide (x.2 > x.1 + 5000))

def saveOk (p : Plan) : Bool :=
  p.save.all (fun e => p.coreIn e.die e.core && e.la % 64 == 0 && e.length % 64 == 0 && e.length != 0 && e.point ≤ p.safe.length &&
    ((e.la + e.length ≤ 0x400000 && e.engine == 0) || (e.la ≥ 0x800000 && e.la + e.length ≤ 0x820000)))

/-- A channel that SLOTS may name: edge channels with a neighbour, and those of an optical engine (R117, R361). -/
def channelOk (s : State) (ch : Nat) : Bool :=
  chTile ch < s.nTiles && bitsOf ch 2 6 == 0 &&
  ((chKind ch == 2 && (s.neighbour (chTile ch) (portNo (ch % 4))).isSome) ||
   ((chKind ch == 3 || chKind ch == 4) && ch % 4 == 0))

def slotsOk (s : State) (p : Plan) : Bool :=
  p.slots.all (fun e => channelOk s e.channel && e.flow ≥ 1 && e.first ≤ e.last && e.last < p.period &&
    1 ≤ e.cells && e.cells ≤ chFull e.channel)

def flowsOk (p : Plan) : Bool :=
  p.flows.all (fun e => e.flow ≥ 1 && e.bytes ≥ 1) && pairsOk (fun (a b : FlowE) => a.flow == b.flow) p.flows

def opticalOk (s : State) (p : Plan) : Bool :=
  p.optical.all (fun e => e.link < s.nLinks && e.vc ≤ 1 && e.first ≤ e.last && e.last < p.period &&
    p.links.any (fun l => l.link == e.link))

def linksOk (p : Plan) : Bool :=
  p.links.all (fun e => e.pod ≤ 32 && e.pkg ≤ 64) && pairsOk (fun (a b : LinkE) => a.link == b.link) p.links

/-- Bytes of the save area (R144). -/
def saveBytes (p : Plan) : Nat := 4722688 * p.coreKeys.length

/-- R220; the save area is a region too. -/
def regionsOk (saveVa : Nat) (p : Plan) : Bool :=
  p.regions.length ≤ 256 && p.regions.all (fun r => !clash r.va r.length saveVa (saveBytes p)) &&
  p.regions.all (fun r => r.va % 65536 == 0 && r.length % 65536 == 0 && r.length != 0 && r.va + r.length ≤ 2 ^ 44) &&
  pairsOk (fun (a b : Region) => clash a.va a.length b.va b.length) p.regions

def syncOk (s : State) (i : List Byte) (p : Plan) : Bool :=
  p.sync.all (fun e =>
    if e.kind = 1 then ownObject s e.object && !spanBarrier e.object && e.aux == 0
    else if e.kind = 2 ∨ e.kind = 3 then
      ownObject s e.object && spanBarrier e.object && decide (spanIndex e.object < 16) && e.init == 0 &&
        decide (e.aux + 64 ≤ i.length) && descOk s p.sync (spanTile e.object) e.desc
    else e.kind == 4 && e.init == 0 && bitsOf e.aux 27 5 == 0 && bitsOf e.object 28 4 == 0 &&
      (!spanBarrier e.object || decide (spanIndex e.object < 16)))

/-- Code 0x0B. -/
def layoutBad (s : State) (saveVa : Nat) (i : List Byte) : Bool :=
  let p := planOf i
  !(imgNum i 40 24 == 0 && imgNum i 96 32 == 0 && imgFlags i < 2 && directoryOk i && reservedOk i && coresOk s p &&
    streamsOk i p && safeOk i p && saveOk p && slotsOk s p && flowsOk p && opticalOk s p && linksOk p && regionsOk saveVa p &&
    syncOk s i p)

/-- Code 0x0A (R126). -/
def periodBad (p : Plan) : Bool := p.period % 16 != 0 || p.period < 1008 || p.period > 1000000

end Sys2Proof.Machine
end

