-- ==== Sys2Proof/Machine/Plans.lean ====
section
/-!
DEFINITION. Contexts under the primary: admission, cycles, stops, aborts, and the messages between members of a plan
(chapter Plans and Their Execution).
-/

namespace Sys2Proof.Machine

/-! ### The checks against what the part holds (Table 4-4) -/

/-- Contexts that hold cores, residues and positions, other than `me`. -/
def State.holders (s : State) (me : Option Nat) : List Nat := allCtx.filter (fun c => s.holdsCores c && some c != me)

/-- Code 0x05: a core held by another context, or on a die that does not run. -/
def State.coresBad (s : State) (me : Option Nat) (p : Plan) : Bool :=
  p.cores.any (fun e => !s.dieUp e.1) ||
  (s.holders me).any (fun c => (s.ctx c).plan.coreKeys.any (fun ck => p.coreKeys.contains ck))

/-- Code 0x06: a residue of a channel held by another context. -/
def State.residuesBad (s : State) (me : Option Nat) (p : Plan) : Bool :=
  (s.holders me).any (fun c => (s.ctx c).plan.slots.any (fun x =>
    p.slots.any (fun e => e.channel == x.channel && (e.res &&& x.res) != 0)))

/-- A characteristic received in this tick differs from the own one: the tick's end quarantines the link. -/
def State.charDiffers (s : State) (l : Nat) : Bool :=
  (s.link l).charDue && s.lg l LNK_PEER_CHAR.value != s.lg l LNK_OWN_CHAR.value

/-- Code 0x07: a position held by another context, or a link not in service with the peer that the image names. -/
def State.linksBad (s : State) (me : Option Nat) (p : Plan) : Bool :=
  (s.holders me).any (fun c => (s.ctx c).plan.optical.any (fun x =>
    p.optical.any (fun e => e.link == x.link && (e.pos &&& x.pos) != 0))) ||
  p.links.any (fun e => !s.tileUp (linkTile e.link) || s.lg e.link LNK_STATUS.state != 2 || s.charDiffers e.link ||
    !s.light.peers.any (fun l => l == e))

/-- Hub and key of a SYNC object. -/
def syncKey (e : SyncE) : Nat × Nat := (spanTile e.object, spanKey e.object)

/-- The hub a mapping goes to. -/
def vmapTile (e : SyncE) : Nat := bitsOf e.aux 24 3

/-- Code 0x08: an object held by another context, a hub that is not there, or a virtual map without room (R199). -/
def State.syncBad (s : State) (me : Option Nat) (resume : Bool) (p : Plan) : Bool :=
  p.sync.any (fun e =>
    if e.kind = 4 then !s.tileUp (vmapTile e)
    else !s.tileUp (spanTile e.object) ||
      (match (s.obj (syncKey e).1 (syncKey e).2).held with
       | some c => some c != me
       | none => false)) ||
  (!resume && (List.range 8).any (fun t =>
    decide ((s.hub t).vmap.length + (p.sync.filter (fun e => e.kind == 4 && vmapTile e == t)).length > 1024)))

/-- Code 0x09: a page of a region or of the save area without the permissions it needs (R220). -/
def State.mapsBad (s : State) (root saveVa : Nat) (p : Plan) : Bool :=
  p.regions.any (fun r => !s.mappedVa true root r.read (r.write || r.peer) (r.length / 65536 + 2) r.va r.length) ||
  decide (saveVa + saveBytes p > 2 ^ 44) ||
  !s.mappedVa true root true true (saveBytes p / 65536 + 2) saveVa (saveBytes p)

/-- Code 0x0D: the cells of some channel and slot exceed its capacity. The load of the slots of one residue, which are the plan's alone
(code 0x06), is greatest at the first slot that some entry owns. -/
def State.overCapacity (s : State) (p : Plan) : Bool :=
  p.slots.any (fun x => (bitsSet 15 x.res).any (fun r =>
    let first := x.first + (r + 16 - x.first % 16) % 16
    decide (first ≤ x.last) &&
    decide (((p.slots.filter (fun e => e.channel == x.channel && bitsOf e.res r 1 == 1 && decide (e.first ≤ first) &&
      decide (first ≤ e.last))).map (·.cells)).sum > s.chanCap x.channel)))

def codeIf (b : Bool) (n : Nat) : List Nat := if b then [n] else []

/-- Every failing code of an image whose header is good (Table 4-4). -/
def State.admitCodes (s : State) (a : Admit) (me : Option Nat) (img : List Byte) : List Nat :=
  let p := planOf img
  codeIf (!imgDigestOk img) 2 ++
  codeIf (p.epoch != s.rg s.primaryUnit SEQ_EPOCH.epoch) 3 ++
  codeIf me.isNone 4 ++
  codeIf (s.coresBad me p) 5 ++
  codeIf (s.residuesBad me p) 6 ++
  codeIf (s.linksBad me p) 7 ++
  codeIf (s.syncBad me (a.ctx != 0xFF) p) 8 ++
  codeIf (s.mapsBad a.root a.saveVa p) 9 ++
  codeIf (periodBad p) 10 ++
  codeIf (layoutBad s a.saveVa img) 11 ++
  codeIf (gapsBad p) 12 ++
  codeIf (s.overCapacity p) 13

/-- The context an admission is for: the lowest FREE one for a new plan (DESIGN CHOICE, log 21), or the PREEMPTED one it
names. -/
def State.admitCtx (s : State) (a : Admit) : Option Nat :=
  if a.ctx = 0xFF then allCtx.find? (fun c => s.cstate c == cFree)
  else if a.ctx < 64 ∧ s.cstate a.ctx = cPreempted then some a.ctx
  else none

/-! ### The decision (R122, R123, R146) -/

def admitReply (ctx planId start : Nat) : List Byte := le 1 ctx ++ le 7 0 ++ le 8 planId ++ le 8 start

/-- SEQ_ADMIT. -/
def State.noteAdmit (s : State) (ctx code : Nat) : State :=
  let u := s.primaryUnit
  ((s.rs u SEQ_ADMIT.ctx ctx).rs u SEQ_ADMIT.code code).rs u SEQ_ADMIT.tick_lo s.tick

/-- A refusal, with its code. The context that SEQ_ADMIT shows for one that names none is not stated: a free value. -/
def State.refuseAdmit (s : State) (a : Admit) (planId code : Nat) : State :=
  let r := if a.ctx < 64 then (a.ctx, s) else s.free
  let s := (r.2.noteAdmit r.1 code).raise 0x9200 s.primaryUnit 0 0 code
  let s := if a.ctx < 64 then s.cs SEQ_CTX_STATE.last_reason a.ctx code else s
  s.reply a.hdr 0x20 0x21 code (admitReply a.ctx planId 0)

/-- Step 2 of R123: the streams into core store, and CORE_STREAM. -/
def State.loadStreams (s : State) (img : List Byte) (p : Plan) : State :=
  s.each p.streams (fun s e =>
    let k := engKey e.die e.core e.engine
    ((s.writeMem (csAt k e.la) ((img.drop e.offset).take (64 * e.count))).es k CORE_STREAM.base e.la).es k CORE_STREAM.count e.count)

/-- Step 3: span objects, barriers and virtual maps at their initial values. -/
def State.loadSync (s : State) (c : Nat) (p : Plan) : State :=
  s.each p.sync (fun s e =>
    if e.kind = 4 then
      let t := vmapTile e
      s.setHub t { s.hub t with vmap := (s.hub t).vmap ++ [⟨c, bitsOf e.aux 0 24, e.object⟩] }
    else
      s.setObj (syncKey e).1 (syncKey e).2
        { value := e.init, held := some c, init := e.init, desc := e.desc, crc := descCrc e.desc })

def align16 (n : Nat) : Nat := cdiv n 16 * 16

/-- The per-context registers at 0 (R150). -/
def State.zeroCtxRegs (s : State) (c : Nat) : State :=
  s.each [SEQ_CTX_STATE.last_reason, SEQ_CTX_STATE.cycles, SEQ_CTX_START.start, SEQ_CTX_SLIP.slip_tk, SEQ_CTX_SLIP.slipped_cycles,
    SEQ_CTX_OVERRUN.flows, SEQ_CTX_OVERRUN.max_tk, SEQ_CTX_PREEMPT.preempted_tk, SEQ_CTX_PREEMPT.count]
    (fun s f => s.cs f c 0)

/-- What an agent saved of a core, back in its place (R146). -/
def State.restoreCore (s : State) (x : SavedCore) : State :=
  let s := { s with regs := x.fields.foldl (fun (m : SMap Nat) (f : Nat × Nat) => mput m f.1 f.2) s.regs }
  { s with mem := x.ranges.foldl (fun (m : Mem) (r : SavedMem) => m.graft r.base r.len r.mem) s.mem }

/-- The first start tick that the holder may issue (R165). -/
def State.floorTick (s : State) : Nat :=
  match s.acting with
  | some t => (s.seq t).notBefore
  | none => 0

/-- The first tick at which a plan may start, `ahead` ticks from now at the least. -/
def State.firstStart (s : State) (ahead : Nat) : Nat := Nat.max (align16 (s.tick + ahead)) (align16 s.floorTick)

/-- A start tick issued to the agents of a context, which accept it (R120, R164). -/
def State.issueStart (s : State) (c start : Nat) : State :=
  let s := s.cs SEQ_CTX_START.start c start
  s.each ((List.range s.nTiles).filter (fun t => s.tileUp t && (s.ctx c).plan.usesDie t)) (fun s t =>
    s.setSeq t { s.seq t with accepted := mput (s.seq t).accepted c start })

/-- The offset of a stop, rounded down to a multiple of 16 (R146). -/
def Ctx.skip (x : Ctx) : Nat := if x.resumed then x.stopOff / 16 * 16 else 0

/-- Steps 1 to 4 of R123. -/
def State.admitPlan (s : State) (a : Admit) (c copyTk : Nat) (img : List Byte) : State :=
  let p := planOf img
  let old := s.ctx c
  let resume := a.ctx != 0xFF
  let s := if resume then s else { s.zeroCtxRegs c with energy := { s.energy with acct := mdel s.energy.acct c } }
  let s := (s.rs seqHome MMU_CTX_ROOT.valid 1 (8 * c)).rs seqHome MMU_CTX_ROOT.root (a.root / 2 ^ 17) (8 * c)
  let s := s.loadStreams img p
  let s := if resume then s else s.loadSync c p
  let s := if resume then s.each old.saved State.restoreCore else s
  let x : Ctx := { old with
    plan := p, imageVa := a.imageVa, saveVa := a.saveVa, started := false, forced := false, target := 0, resumed := resume
    flows := if resume then old.flows else p.flows.map (fun f => ⟨f.flow, 0, none⟩) }
  let s := s.setCtx c x
  let s := s.each p.coreKeys (fun s ck => s.setCore ck { s.core ck with ctx := some c, target := none })
  let first := s.firstStart (copyTk + 64)
  let s := s.issueStart c (first - x.skip)
  let s := (s.setCstate c cAdmitted).noteAdmit c 0
  let s := s.reply a.hdr 0x20 0x21 0 (admitReply c p.planId first)
  if p.multi then s.each p.links (fun s e => s.sendLink e.link 0x33 [p.planId, 0]) else s

/-- The image at its VA under the root the message names: `none` where it is not mapped or is uncorrectable. -/
def State.imageAt (s : State) (bad : List Nat) (root va : Nat) : Option (List Byte) :=
  if bad.isEmpty then
    match s.readVa true root 3 va 128 with
    | some h => if imgHeaderBad h then some h else s.readVa true root (imgLen h / 65536 + 2) va (imgLen h)
    | none => none
  else none

/-- One admission (R122). The code for an image that cannot be read is not stated: a free value of Table 4-4. -/
def State.judge (s : State) (bad : List Nat) (copyTk : Nat) (a : Admit) : State :=
  match s.imageAt bad a.root a.imageVa with
  | none =>
    let r := (s.each bad State.memError).free
    r.2.refuseAdmit a 0 (1 + r.1 % 13)
  | some img =>
    if imgHeaderBad img then s.refuseAdmit a (imgPlanId img) 1
    else
      match s.admitCodes a (s.admitCtx a) img, s.admitCtx a with
      | [], some c => s.admitPlan a c copyTk img
      | n :: _, _ => s.refuseAdmit a (imgPlanId img) n
      | [], none => s.refuseAdmit a (imgPlanId img) 4

/-- ADMIT (R121): queued at the primary in order of receipt. -/
def admitEff (h : EcpHdr) (ctx imageVa saveVa root : Nat) (s : State) : State :=
  { s with admits := s.admits ++ [⟨h, ctx, imageVa, saveVa, root, s.tick⟩] }

def execAdmitPlan (h : EcpHdr) (ctx imageVa saveVa root : Nat) (s : State) : Out :=
  ok (s.ecpIn h 0x20 false (le 1 ctx ++ rsvBytes h 0 7 ++ le 8 imageVa ++ le 8 saveVa ++ le 8 root)
    (fun s => s.toSequencer (.admitPlan h ctx imageVa saveVa root) (admitEff h ctx imageVa saveVa root)))

/-- Every pending admission, in order of receipt; `bad` are uncorrectable words of the images read. -/
def State.evaluate (s : State) (bad : List Nat) (copyTk : Nat) : State :=
  { s with admits := [] }.each s.admits (fun s a => s.judge bad copyTk a)

/-- A cycle of a context was done in this tick. -/
def oCycle (c : Nat) : Nat := 0x8000 + c

/-- This tick is a cycle boundary of a RUNNING context, the end of its last cycle included: its cycle is done or the next starts (DEDUCED,
log 21); or no context is RUNNING. -/
def State.evaluationTime (s : State) : Bool :=
  allCtx.any (fun c => s.endedNow (oCycle c) || (s.cstate c == cRunning && s.cg SEQ_CTX_START.start c == s.tick)) ||
  allCtx.all (fun c => s.cstate c != cRunning)

/-- ADMISSION_EVALUATION, once what the tick frees is free (Table 4-12). -/
def execAdmissionEvaluation (ecc : EccHits) (copyTk : Nat) (s : State) : Out :=
  s.inTurn (.admissionEvaluation ecc copyTk) (fun s =>
    if s.acting.isSome ∧ s.evaluationTime then ok (s.evaluate ecc.mem copyTk) else ok s)

/-- With no context RUNNING, an admission is evaluated at the latest 1,000 tk after its receipt (R121). -/
def State.dueAdmits (s : State) : State :=
  if s.acting.isSome ∧ allCtx.all (fun c => s.cstate c != cRunning) ∧ s.admits.any (fun a => decide (a.at_ + 1000 ≤ s.tick)) then
    let r := s.free
    r.2.evaluate [] r.1
  else s

/-! ### Cycles (R125 to R128, R140) -/

/-- Every member of a multi-package plan has reported ADMITTED (R148). -/
def State.membersReady (s : State) (p : Plan) : Bool := !p.multi || p.links.all (fun e => s.planReady.contains (p.planId, e.link))

/-- Once every member is ready, a start tick that lies less than 16 tk ahead is put off (R120, R148). -/
def State.settleStart (s : State) (c : Nat) : State :=
  let x := s.ctx c
  if s.acting.isSome ∧ s.cstate c = cAdmitted ∧ x.plan.multi ∧ s.membersReady x.plan ∧
      s.cg SEQ_CTX_START.start c + x.skip < Nat.max (s.tick + 16) s.floorTick then
    s.issueStart c (s.firstStart 16 - x.skip)
  else s

/-- An engine at a cycle start: it fetches again from its stream base (R89), or from its saved position (R146). -/
def State.startEngine (s : State) (fresh : Bool) (saved : Option SavedEng) (k : Nat) : State :=
  let old := s.eng k
  let count := s.eg k CORE_STREAM.count
  let e : Eng :=
    { tlb := old.tlb, fifo := if fresh then [] else old.fifo, lastSeq := old.lastSeq, base := s.eg k CORE_STREAM.base, count := count
      fetching := true }
  match saved with
  | none => s.setEng k { e with fetching := count > 0, finished := count == 0 }
  | some v =>
    s.setEng k { e with
      fetched := v.pos, fetching := !v.finished && v.pos < count, finished := v.finished, safeDone := v.safeDone
      descIdx := bitsOf v.dma 4 16, off := bitsOf v.dma 32 32 }

/-- CYCLE_START at the start tick: every engine of the context starts; a plan of several packages starts once every member is
ready. -/
def execCycleStart (ctx : Nat) (s : State) : Out :=
  let x := s.ctx ctx
  let st := s.cstate ctx
  let first := st == cAdmitted
  if (first ∨ (st = cRunning ∧ !x.started)) ∧ s.tick % 16 = 0 ∧ s.tick = s.cg SEQ_CTX_START.start ctx + x.skip ∧
      (!first ∨ s.membersReady x.plan) then
    let keep := x.resumed && x.mid
    let s := s.each x.plan.coreKeys (fun s ck =>
      let saved := (x.saved.find? (fun v => v.key == ck)).filter (fun _ => keep)
      s.each (coreEngs ck) (fun s k =>
        s.startEngine first (saved.bind (fun v => v.engs.find? (fun e => e.eng == keyEng k))) k))
    let s := if keep then s
      else s.each (x.plan.sync.filter (fun e => e.kind == 3)) (fun s e =>
        s.setObj (syncKey e).1 (syncKey e).2 { s.obj (syncKey e).1 (syncKey e).2 with released := 0 })
    let s := s.setCtx ctx { x with
      started := true, resumed := false, saved := [], stopOff := 0, mid := false
      flows := if keep then x.flows else x.plan.flows.map (fun f => ⟨f.flow, 0, none⟩) }
    ok (State.servWaits ctx (if first then s.setCstate ctx cRunning else s))
  else ok s

/-- Every stream, flow and cycle-end barrier of the cycle is done (R127). -/
def State.cycleOver (s : State) (c : Nat) : Bool :=
  let x := s.ctx c
  x.plan.coreKeys.all (fun ck => (coreEngs ck).all (fun k => (s.eng k).finished)) &&
  x.flows.all (fun f => f.done.isSome) &&
  x.plan.sync.all (fun e => e.kind != 3 || decide ((s.obj (syncKey e).1 (syncKey e).2).released ≥ 1))

/-- The overruns of a cycle (R138). -/
def State.overruns (s : State) (c : Nat) : List Nat :=
  let x := s.ctx c
  x.flows.filterMap (fun f =>
    match x.plan.flows.find? (fun e => e.flow == f.flow), f.done with
    | some e, some d =>
      let limit := s.cg SEQ_CTX_START.start c + e.doneTk + e.slack
      if d > limit then some (d - limit) else none
    | _, _ => none)

/-- SEQ_CTX_OVERRUN and 0x9301. -/
def State.noteOverrun (s : State) (c : Nat) : State :=
  match s.overruns c with
  | [] => s
  | l =>
    let m := l.foldl Nat.max 0
    let s := s.rinc seqHome SEQ_CTX_OVERRUN.flows l.length (dCtx c)
    let s := s.rmax seqHome SEQ_CTX_OVERRUN.max_tk m (dCtx c)
    s.raise 0x9301 s.primaryUnit c 0 (min l.length 0xFFFF + min m (2 ^ 32 - 1) * 2 ^ 16)

/-- The next start (R128, R165): the smallest multiple of 16 from e_k that is late enough. -/
def nextStart (e d floor : Nat) : Nat := e + align16 (Nat.max (d + 16 - e) (floor - e))

/-- The start of the cycle after one done at `d`, with its slip; the cycle record goes to the standby before the agents have the start
(R159). -/
def State.scheduleNext (s : State) (c d : Nat) : State :=
  let e := s.cg SEQ_CTX_START.start c + (s.ctx c).plan.period
  let t := nextStart e d s.floorTick
  let s := if t > e then
      ((s.rinc seqHome SEQ_CTX_SLIP.slip_tk (t - e) (dCtx c)).rinc seqHome SEQ_CTX_SLIP.slipped_cycles 1 (dCtx c)).raise
        0x9300 s.primaryUnit c 0 ((t - e) % 2 ^ 40)
    else s
  ((s.cs SEQ_CTX_START.start c t).sendCopy .cycle [c]).issueStart c t

/-- A cycle that was done at tick `d`. A pending stop at safe point 0 takes the place of the next start (Table 4-12). -/
def State.endCycle (s : State) (c d : Nat) : State :=
  let x := s.ctx c
  let s := (s.noteOverrun c).markEnd (oCycle c)
  let n := s.cg SEQ_CTX_STATE.cycles c + 1
  let s := s.cs SEQ_CTX_STATE.cycles c n
  let s := s.setCtx c { x with started := false, doneAt := none }
  if x.plan.cycles ≠ 0 ∧ n ≥ x.plan.cycles then (s.sendCopy .cycle [c]).freeCtx c 0
  else if s.cstate c = cStopping then s.sendCopy .cycle [c]
  else s.scheduleNext c d

/-- CYCLE_DONE, after the settle of its tick. While no sequencer acts, the tick counts and the next holder goes on from it (Table 5-5). -/
def execCycleDone (ctx : Nat) (s : State) : Out :=
  s.inTurn (.cycleDone ctx) (fun s =>
    let x := s.ctx ctx
    let st := s.cstate ctx
    if x.started ∧ (st = cRunning ∨ (st = cStopping ∧ !x.forced ∧ x.target = 0)) ∧ s.cycleOver ctx then
      let d := x.doneAt.getD s.tick
      ok (if s.acting.isSome then s.endCycle ctx d else s.setCtx ctx { x with doneAt := some d })
    else ok s)

/-! ### Stops (R141 to R146) -/

/-- Register fields of a core that a save keeps, each with its repetition offset. -/
def savedFields (die core : Nat) (forced : Bool) : List (Nat × Fld × Nat) :=
  let u := uDie die
  ((List.range 48).flatMap (fun i => [SYN_COBJ.value, SYN_COBJ.overflow, SYN_COBJ.last_engine, SYN_COBJ.last_valid, SYN_COBJ.last_tick].map
    (fun f => (u, f, dObj core i)))) ++
  ((List.range 8).flatMap (fun e => (flagFlds ++ [CORE_ENG_FLAGS.first_seq, CORE_ENG_FLAGS.first_valid] ++
    (if forced then [CORE_CPL_PTR.head, CORE_CPL_PTR.tail, CORE_CPL_PTR.overrun] else [])).map (fun f => (u, f, dEng core e))))

/-- The ranges of a core that a save keeps: all of it, or those of the safe point. -/
def saveRanges (p : Plan) (forced : Bool) (point die core : Nat) : List (Nat × Nat) :=
  if forced then (csAddr die core 0, 0x400000) :: (List.range 4).map (fun m => (accAddr die core m 0, 0x20000))
  else (p.save.filter (fun e => e.die == die && e.core == core && e.point == point)).map (fun e =>
    if e.la ≥ 0x800000 then (accAddr die core e.engine (e.la - 0x800000), e.length) else (csAddr die core e.la, e.length))

def State.saveCore (s : State) (x : Ctx) (ck : Nat) : SavedCore :=
  let die := ck / 64
  let core := ck % 64
  { key := ck
    fields := (savedFields die core x.forced).map (fun f => (regKey f.1 f.2.1 f.2.2, s.rg f.1 f.2.1 f.2.2))
    engs := (coreEngs ck).map (fun k => (s.eng k).saved.getD (s.saveEng k))
    ranges := (saveRanges x.plan x.forced x.target die core).map (fun r => ⟨r.1, r.2, s.mem.sub r.1 r.2⟩) }

/-- The first safe point whose planned offset lies after the request; 0 for the cycle's end. -/
def Plan.nextSafe (p : Plan) (off : Nat) : Nat :=
  match p.safe.findIdx? (fun o => decide (o > off)) with
  | some i => i + 1
  | none => 0

/-- Safe points completed by the engine that is furthest ahead. -/
def State.furthest (s : State) (p : Plan) : Nat :=
  (p.coreKeys.flatMap (fun ck => (coreEngs ck).map (fun k => (s.eng k).safeDone))).foldl Nat.max 0

/-- The target of a safe-point stop, raised past every safe point an engine had completed at the delivery (R143). -/
def State.stopTarget (s : State) (c : Nat) : Nat :=
  let x := s.ctx c
  if !x.started then 0
  else
    let t := x.plan.nextSafe (s.tick - s.cg SEQ_CTX_START.start c)
    let f := s.furthest x.plan
    if t = 0 ∨ f < t then t else if f + 1 ≤ x.plan.safe.length then f + 1 else 0

/-- A forced stop: every engine stops under R112. -/
def State.forceStop (s : State) (c : Nat) : State :=
  let x := s.ctx c
  (s.stopCores c).setCtx c { x with
    forced := true, target := 0, saved := [], mid := x.started
    stopOff := if x.started then s.tick - s.cg SEQ_CTX_START.start c else 0 }

/-- A safe-point stop: the target to every core of the context. -/
def State.safeStop (s : State) (c : Nat) : State :=
  let x := s.ctx c
  let t := s.stopTarget c
  let s := s.setCtx c { x with forced := false, target := t, saved := [], mid := t != 0, stopOff := if t = 0 then 0 else x.plan.safe.getD (t - 1) 0 }
  s.each x.plan.coreKeys (fun s ck =>
    s.setCore ck { s.core ck with target := if t = 0 then none else some t })

/-- A stop of a context, locally requested or forwarded: the reply code of Table 13-3. -/
def stopCtx (c : Nat) (forced tell : Bool) (s : State) : State × Nat :=
  let x := s.ctx c
  if s.cstate c = cStopping ∧ forced ∧ !x.forced then ((if tell then s.tellMembers c 3 else s).forceStop c, 0)
  else if s.cstate c ≠ cRunning then (s, 1)
  else
    let s := if tell then s.tellMembers c (if forced then 3 else 1) else s
    let s := { s with planReady := s.planReady.filter (fun e => e.1 != x.plan.planId) }
    let s := if forced then s.forceStop c else s.safeStop c
    (s.setCstate c cStopping, 0)

def stopEff (h : EcpHdr) (ctx forced : Nat) (s : State) : State :=
  if ctx ≥ 64 ∨ forced ≥ 2 then s.genReply h 0x22 2
  else
    let r := stopCtx ctx (forced == 1) true s
    r.1.genReply h 0x22 r.2

/-- STOP (R141, R143, R144). -/
def execStop (h : EcpHdr) (ctx forced : Nat) (s : State) : Out :=
  ok (s.ecpIn h 0x22 false (le 1 ctx ++ le 1 forced) (fun s => s.toSequencer (.stop h ctx forced) (stopEff h ctx forced)))

/-- Every engine of a stopping context has stopped, and nothing of its DMA is still on its way. -/
def State.allStopped (s : State) (c : Nat) : Bool :=
  let x := s.ctx c
  let still := x.plan.coreKeys.all (fun ck => (coreEngs ck).all (fun k => (s.eng k).phase == .stopped)) &&
    s.net.all (fun r => r.ctx != c || r.eng.isNone)
  if x.forced ∨ x.target ≠ 0 then still else !x.started

/-- The first uncorrectable word in the ranges a save reads: `hits` are core number * 2^22 + LA. -/
def saveHit (x : Ctx) (hits : List Nat) : Option (Nat × Nat) :=
  hits.findSome? (fun a =>
    let ck := a / 2 ^ 22
    if x.plan.coreKeys.contains ck ∧ (saveRanges x.plan x.forced x.target (ck / 64) (ck % 64)).any (fun r =>
        decide (r.1 ≤ csAddr (ck / 64) (ck % 64) (a % 2 ^ 22)) && decide (csAddr (ck / 64) (ck % 64) (a % 2 ^ 22) < r.1 + r.2)) then
      some (ck, a % 2 ^ 22)
    else none)

/-- The engines of a core left without commands, streams or translations. -/
def State.emptyEngines (s : State) (ck : Nat) : State :=
  s.each (coreEngs ck) (fun s k => s.setEng k { lastSeq := (s.eng k).lastSeq })

/-- SAVE_COMPLETE: what is to be saved is saved, and the context is PREEMPTED; an uncorrectable word ends the stop with an abort
for 0x11. The save area's own bytes have no meaning outside a resume: they are left undefined. -/
def execSaveComplete (ctx : Nat) (ecc : EccHits) (s : State) : Out :=
  let x := s.ctx ctx
  if s.acting.isNone ∨ s.cstate ctx ≠ cStopping ∨ !s.allStopped ctx then ok s
  else
    match saveHit x ecc.core with
    | some h =>
      let u := uDie (h.1 / 64)
      let s := (s.rinc u CORE_ECC.uncorrected 1 (dCore (h.1 % 64))).raise 0x4100 u 0 0 h.2
      ok (s.abortCtx ctx 0x11)
    | none =>
      let saved := x.plan.coreKeys.map (fun ck => s.saveCore x ck)
      let r := s.ctxRoot ctx
      let s := s.scrambleVa r.1 r.2 (saveBytes x.plan / 65536 + 2) x.saveVa (saveBytes x.plan)
      let s := (s.endWaits ctx).each x.plan.coreKeys State.emptyEngines
      let s := (s.releaseCores ctx).dropTlb (· == ctx)
      let s := s.setCtx ctx { x with saved := saved, started := false }
      let s := s.rinc seqHome SEQ_CTX_PREEMPT.count 1 (dCtx ctx)
      let s := s.setCstate ctx cPreempted
      ok (s.ctxNote ctx cPreempted 0 x.plan.planId)

/-! ### Aborts and plan control (R147, R148) -/

def abortEff (h : EcpHdr) (ctx : Nat) (s : State) : State :=
  if ctx ≥ 64 then s.genReply h 0x23 2
  else if s.cstate ctx = cFree then s.genReply h 0x23 1
  else (s.abortCtx ctx 0x16).genReply h 0x23 0

/-- ABORT by host software. -/
def execAbort (h : EcpHdr) (ctx : Nat) (s : State) : Out :=
  ok (s.ecpIn h 0x23 false (le 1 ctx) (fun s => s.toSequencer (.abort h ctx) (abortEff h ctx)))

/-- A stop that another member of the plan asked for; while no sequencer acts it waits for the next holder (R152). -/
def State.memberStop (s : State) (c : Nat) (forced : Bool) : State :=
  if s.acting.isSome then (stopCtx c forced false s).1 else { s with lateStops := s.lateStops ++ [(c, forced)] }

/-- What a member's PLAN_CTL brings about: 0 ADMITTED, 1 STOP at a safe point, 2 ABORT, 3 forced STOP. -/
def planCtlEff (link planId what : Nat) (s : State) : State :=
  let s := if what = 0 then { s with planReady := s.planReady ++ [(planId, link)] } else s
  match allCtx.find? (fun c => s.cstate c != cFree && (s.ctx c).plan.planId == planId) with
  | some c =>
    if what = 0 then s.settleStart c
    else if what = 1 then s.memberStop c false
    else if what = 2 then s.abortCtx c 0x17
    else if what = 3 then s.memberStop c true
    else s
  | none => s

end Sys2Proof.Machine
end

