-- ==== Sys2Proof/Machine/Epoch.lean ====
section
/-!
DEFINITION. The characteristic of the package and the plan-set epoch (R124, R348).
-/

namespace Sys2Proof.Machine

/-! ### The characteristic (R348) -/

/-- The 32 bytes of one digest of CFG_DIGEST: 0 image, 1 shared section, 2 firmware, 3 owner key. -/
def State.digest (s : State) (k : Nat) : List Byte :=
  (List.range 4).flatMap (fun j => le 8 (s.rg 0 CFG_DIGEST.bytes (0x20 * k + 8 * j)))

/-- The characteristic of this package at a version. -/
def State.charOf (s : State) (major minor : Nat) : Nat :=
  unle ((sha256 (s.digest 1 ++ s.digest 2 ++ le 4 (s.rg s.primaryUnit SEQ_EPOCH.epoch) ++ le 1 major ++ le 1 minor)).take 8)

/-- The highest version of stepping B0 (R347). -/
def ownMajor : Nat := 1
def ownMinor : Nat := 1
/-- CHAR of a link, and the tick of the next. -/
def State.sendChar (s : State) (l : Nat) : State :=
  let s := s.setLink l { s.link l with charAt := s.tick + 100000 }
  s.sendLink l 0x30 [s.lg l LNK_OWN_CHAR.value]

/-! ### The plan-set epoch (R124, R348) -/

/-- The own value of every link and of the package follows its inputs, and a CHAR tells each peer at once. -/
def State.newChar (s : State) : State :=
  let s := s.rs 0 LNK_CHAR.value (s.charOf ownMajor ownMinor)
  s.each ((List.range s.nLinks).filter (fun l => s.tileUp (linkTile l))) (fun s l =>
    let st := s.lg l LNK_STATUS.state
    if st = 2 ∨ st = 3 then (s.ls l LNK_OWN_CHAR.value (s.charOf (s.lg l LNK_STATUS.major) (s.lg l LNK_STATUS.minor))).sendChar l
    else s)

def epochSetEff (h : EcpHdr) (epoch : Nat) (s : State) : State :=
  if s.allFree then
    let s := s.each ((List.range s.nTiles).filter s.tileUp) (fun s t => s.rs (uTile t) SEQ_EPOCH.epoch epoch)
    s.newChar.genReply h 0x25 0
  else s.genReply h 0x25 1

/-- EPOCH_SET. -/
def execEpochSet (h : EcpHdr) (epoch : Nat) (s : State) : Out :=
  ok (s.ecpIn h 0x25 false (le 4 epoch) (fun s => s.toSequencer (.epochSet h epoch) (epochSetEff h epoch)))

end Sys2Proof.Machine
end

