-- ==== Sys2Proof/Machine/Lease.lean ====
section
/-!
DEFINITION. The sequencer lease: beacons, renewal, the state copy, takeover, and the keeper's decisions
(chapter Sequencer Lease and Failover).
-/

namespace Sys2Proof.Machine

def State.say (s : State) (l : List LeaseMsg) : State := { s with lease := { s.lease with sent := s.lease.sent ++ l } }

/-- A safe stop has been performed: the keeper decides nothing more (R169, R458). -/
def State.safeStopped (s : State) : Bool := s.rg 0 EVT_STATUS.safe_stop == 1

/-! ### The layout of a beacon (Table 5-1) -/

def pathBit (p : Path) : Nat := match p with
  | .net => 0
  | .ring => 1

/-- CRC of the bits [111:0], as 14 little-endian bytes (R483). -/
def beaconCrc (b : BeaconMsg) : Nat :=
  crc16 (le 14 (b.tickLo % 2 ^ 32 + b.epoch % 2 ^ 32 * 2 ^ 32 + b.holder % 8 * 2 ^ 64 + pathBit b.path * 2 ^ 67 +
    b.copySeq % 2 ^ 16 * 2 ^ 68))

/-- The beacon tick: the latest tick with the beacon's low 32 bits. -/
def State.beaconTick (s : State) (b : BeaconMsg) : Nat := s.tick - (s.tick + 2 ^ 32 - b.tickLo % 2 ^ 32) % 2 ^ 32

/-! ### The holder (R153 to R155) -/

/-- Does a tile's sequencer hold the lease and still act? -/
def State.holds (s : State) (t : Nat) : Bool := s.acting == some t

/-- BEACON_SEND: on both paths, at every tick that is a multiple of 100. -/
def execBeaconSend (tile : Nat) (s : State) : Out :=
  if s.holds tile ∧ s.tick % 100 = 0 then
    let u := uTile tile
    let b (p : Path) : BeaconMsg :=
      let x : BeaconMsg := ⟨s.tick % 2 ^ 32, s.rg u SEQ_LEASE.epoch, tile, p, s.rg u SEQ_BEACON.copy_seq, 0⟩
      { x with crc := beaconCrc x }
    ok (s.say [.beacon (b .net), .beacon (b .ring)])
  else ok s

/-- ACKNOWLEDGEMENT: the own expiry is the one it carries. -/
def execAcknowledgement (tile epoch expiry : Nat) (s : State) : Out :=
  if s.holds tile ∧ epoch = s.rg (uTile tile) SEQ_LEASE.epoch then
    ok ((s.setSeq tile { s.seq tile with ownExp := expiry, lastAck := s.tick, ackRaised := false }).rs (uTile tile)
      SEQ_LEASE.expiry_lo expiry)
  else ok s

/-- ACK_MISSING for 400 tk. -/
def execAckMissing (tile : Nat) (s : State) : Out :=
  if s.holds tile ∧ s.tick ≥ (s.seq tile).lastAck + 400 ∧ !(s.seq tile).ackRaised then
    ok ((s.setSeq tile { s.seq tile with ackRaised := true }).raise 0x9404 (uTile tile))
  else ok s

/-- OWN_EXPIRY: the sequencer stops acting. -/
def execOwnExpiry (tile : Nat) (s : State) : Out :=
  let u := uTile tile
  if s.tileUp tile ∧ s.rg u SEQ_ROLE.lease_held = 1 ∧ s.tick ≥ (s.seq tile).ownExp then
    ok (((s.rs u SEQ_ROLE.role 0).rs u SEQ_ROLE.lease_held 0).rs u SEQ_LEASE.expiry_lo 0)
  else ok s

/-! ### Beacons received (R153, R156, R157) -/

/-- The keeper receives a beacon of the current epoch and holder before the expiry: the lease is renewed and acknowledged, and a TAKE
that is held is denied. At or after the expiry it renews nothing. -/
def keeperBeacon (b : BeaconMsg) (s : State) : State :=
  if s.safeStopped ∨ b.crc ≠ beaconCrc b ∨ b.epoch ≠ s.rg 0 KPR_LEASE.epoch ∨ b.holder ≠ s.rg 0 KPR_LEASE.holder then s
  else
    let t := s.beaconTick b
    let s := { s with lease := match b.path with
      | .net => { s.lease with lastNet := some t }
      | .ring => { s.lease with lastRing := some t } }
    if s.rg 0 KPR_LEASE.held = 1 ∧ s.tick < s.rg 0 KPR_LEASE_EXP.expiry then
      let e := Nat.max (s.rg 0 KPR_LEASE_EXP.expiry) (t + 3200)
      let s := (s.rs 0 KPR_LEASE_EXP.expiry e).say [.ack b.holder b.epoch e]
      match s.lease.take with
      | none => s
      | some r =>
        (({ s with lease := { s.lease with take := none } }.rs 0 KPR_LEASE.take_pending 0).say [.deny r.1]).raise 0x9403 0 0 0 3
    else s

/-- A tile receives a beacon: one of a lower epoch than it has seen is refused (R164); the standby notes the tick and path. -/
def tileBeacon (t : Nat) (b : BeaconMsg) (s : State) : State :=
  let u := uTile t
  let seen := s.rg u SEQ_LEASE.epoch
  if !s.tileUp t ∨ b.crc ≠ beaconCrc b then s
  else if b.epoch < seen then s.raise 0x9407 u
  else
    let s := s.rs u SEQ_LEASE.epoch b.epoch
    if s.rg u SEQ_ROLE.role = 2 then s.setSeq t { s.seq t with got := (s.beaconTick b, b.path) :: (s.seq t).got.take 31 } else s

/-- BEACON: at the keeper (`none`) or at a tile; an announcement of the same tick comes first (Table 5-5). -/
def execBeacon (dst : Option Nat) (b : BeaconMsg) (s : State) : Out :=
  s.inTurn (.beacon dst b) (fun s =>
    match dst with
    | none => ok (keeperBeacon b s)
    | some t => ok (tileBeacon t b s))

/-- The two tiles that alone hold the lease or the standby role (R151). -/
def State.named (s : State) (t : Nat) : Bool := t == s.light.primary || t == s.light.standby

/-- The miss count of one path after a check, and whether the path was found good: a path declared faulty does not count. -/
def missStep (got fault : Bool) (miss : Nat) : Nat := if got then 0 else if fault then miss else min 4 (miss + 1)

/-- What the standby asks of the keeper after a check that found `net` and `ring` silent, where `q` is what it knew before: TAKE once with
both silent and a complete copy, ARBITRATE once exactly one is (R162, R168). -/
def State.askKeeper (s : State) (t : Nat) (q : SeqSt) (net ring : Bool) : State :=
  let both := q.silentNet && q.silentRing
  if net && ring then
    (if s.rg (uTile t) SEQ_BEACON.ready = 1 ∧ !(s.seq t).lostRaised then
      ((s.setSeq t { s.seq t with lostRaised := true }).raise 0x9402 (uTile t)).say [.take t]
     else s)
  else if net ∧ (!q.silentNet ∨ both) ∧ !q.faultNet then s.say [.arbitrate t .net]
  else if ring ∧ (!q.silentRing ∨ both) ∧ !q.faultRing then s.say [.arbitrate t .ring]
  else s

/-- The check of beacon tick `b`: miss counts, silence, and what it asks for (R157). -/
def State.checkBeacon (s : State) (tile b : Nat) : State :=
  let u := uTile tile
  let q := s.seq tile
  let gotN := q.got.contains (b, .net)
  let gotR := q.got.contains (b, .ring)
  let mn := missStep gotN q.faultNet (s.rg u SEQ_BEACON.miss_net)
  let mr := missStep gotR q.faultRing (s.rg u SEQ_BEACON.miss_ring)
  let q' : SeqSt := { q with
    faultNet := q.faultNet && !gotN, faultRing := q.faultRing && !gotR
    goodNet := if gotN then q.goodNet + 1 else 0, goodRing := if gotR then q.goodRing + 1 else 0
    silentNet := mn == 4, silentRing := mr == 4, lostRaised := q.lostRaised && !gotN && !gotR }
  let s := (s.rs u SEQ_BEACON.miss_net mn).rs u SEQ_BEACON.miss_ring mr
  let s := { s with lease := { s.lease with diverted := s.lease.diverted && decide (q'.goodRing < 16) } }
  (s.setSeq tile q').askKeeper tile q (mn == 4) (mr == 4)

/-- BEACON_CHECK of beacon tick `b` at tick b + 90, after the beacons of that tick (Table 5-5). -/
def execBeaconCheck (tile b : Nat) (s : State) : Out :=
  s.inTurn (.beaconCheck tile b) (fun s =>
    if !s.tileUp tile ∨ s.rg (uTile tile) SEQ_ROLE.role ≠ 2 ∨ b % 100 ≠ 0 ∨ s.tick ≠ b + 90 then ok s else ok (s.checkBeacon tile b))

/-! ### The keeper's decisions (R163, R168) -/

/-- LEASE_EXPIRY: at the expiry tick. -/
def execLeaseExpiry (s : State) : Out :=
  s.inTurn .leaseExpiry (fun s =>
    if s.rg 0 KPR_LEASE.held = 1 ∧ s.tick ≥ s.rg 0 KPR_LEASE_EXP.expiry ∧ !s.safeStopped then
      ok ((s.rs 0 KPR_LEASE.held 0).raise 0x9400 0)
    else ok s)

/-- A TAKE of one of the two named tiles is held; it replaces an ARBITRATE. -/
def takeEff (tile : Nat) (s : State) : State :=
  if s.safeStopped ∨ s.lease.take.isSome ∨ !s.tileUp tile ∨ !s.named tile then s
  else { s with lease := { s.lease with take := some (tile, s.tick) } }.rs 0 KPR_LEASE.take_pending 1

/-- TAKE received by the keeper. -/
def execTake (tile : Nat) (s : State) : Out := s.inTurn (.take tile) (fun s => ok (takeEff tile s))

/-- GRANT, at tick max(arrival, expiry + 200): the next epoch goes to the standby, and is announced. -/
def execGrant (s : State) : Out :=
  s.inTurn .grant (fun s =>
    match s.lease.take with
    | none => ok s
    | some r =>
      if s.safeStopped ∨ s.tick < r.2 ∨ s.tick < s.rg 0 KPR_LEASE_EXP.expiry + 200 ∨ !s.tileUp r.1 then ok s
      else
        let old := s.rg 0 KPR_LEASE.holder
        let e := (s.rg 0 KPR_LEASE.epoch + 1) % 2 ^ 32
        let s := { s with lease := { s.lease with take := none, lastNet := none, lastRing := none } }
        let s := ((s.rs 0 KPR_LEASE.take_pending 0).rs 0 KPR_LEASE.epoch e).rs 0 KPR_LEASE.holder r.1
        let s := (s.rs 0 KPR_LEASE.held 1).rs 0 KPR_LEASE_EXP.expiry (s.tick + 3200)
        ok ((s.say [.announce e]).raise 0x9401 0 0 0 (e + old % 8 * 2 ^ 32 + r.1 % 8 * 2 ^ 35)))

/-- A beacon tick that lies at most 400 tk back. -/
def State.recent (s : State) (o : Option Nat) : Bool :=
  match o with
  | some b => decide (b + 400 ≥ s.tick)
  | none => false

/-- STAY (Table 5-2): the silent path is faulty, and copy records leave the ring if it is the ring. -/
def State.stay (s : State) (tile : Nat) (silent : Path) : State :=
  let s := (s.say [.stay tile silent]).raise 0x9403 0 0 0 (pathBit silent + 1)
  let s := s.rinc (uTile tile) SEQ_BEACON.path_faults 1
  let q := s.seq tile
  match silent with
  | .net => s.setSeq tile { q with faultNet := true, goodNet := 0 }
  | .ring => { s with lease := { s.lease with diverted := true } }.setSeq tile { q with faultRing := true, goodRing := 0 }

/-- ARBITRATE: STAY while the keeper's last valid beacon is at most 400 tk old, else as a TAKE (Table 5-2). A TAKE of the same tick
replaces it. -/
def execArbitrate (tile : Nat) (silent : Path) (s : State) : Out :=
  s.inTurn (.arbitrate tile silent) (fun s =>
    if s.safeStopped ∨ s.lease.take.isSome ∨ !s.tileUp tile ∨ !s.named tile then ok s
    else if s.recent s.lease.lastNet || s.recent s.lease.lastRing then ok (s.stay tile silent)
    else ok (takeEff tile s))

/-! ### Takeover (R164 to R166, R171) -/

/-- Run the messages that were queued for the sequencer, in order. -/
def runQueued (s : State) (i : Instr) : State :=
  match i with
  | .admitPlan h c iv sv r => admitEff h c iv sv r s
  | .stop h c f => stopEff h c f s
  | .abort h c => abortEff h c s
  | .epochSet h e => epochSetEff h e s
  | _ => s

/-- A context of which the new holder's copy knows nothing, quietly let go. -/
def State.forgetCtx (s : State) (c : Nat) : State :=
  let s := ((s.stopCores c).endWaits c).endCtxServing c
  ((((s.clearSpan c).releaseCores c).forgetRuns c).setCtx c {}).cs SEQ_CTX_STATE.state c cFree

/-- The state in which the new holder continues a context, from that of its copy; what the agents have brought to its end, FREE or PREEMPTED,
stays so, and a first start tick that has come makes it RUNNING (DEDUCED, log 112). -/
def continued (now copy : Nat) : Nat :=
  if now = cFree ∨ now = cPreempted then now
  else if now = cRunning ∧ copy = cAdmitted then now
  else copy

/-- The contexts as the copy holds them (R165). -/
def State.adoptCopies (s : State) (t : Nat) : State :=
  s.each (s.seq t).copies (fun s e =>
    let x := e.2
    let c := x.ctx
    let st := continued (s.cstate c) x.state
    if s.cstate c = cFree then s
    else if st = cFree then s.forgetCtx c
    else
      let s := if st = cPreempted then s.releaseCores c else s
      let s := (s.cs SEQ_CTX_STATE.state c st).cs SEQ_CTX_STATE.last_reason c x.reason
      let s := (s.cs SEQ_CTX_START.start c x.start).cs SEQ_CTX_STATE.cycles c x.cycles
      let s := (s.cs SEQ_CTX_SLIP.slip_tk c x.slip).cs SEQ_CTX_SLIP.slipped_cycles c x.slipped
      let s := (s.cs SEQ_CTX_OVERRUN.flows c x.ovFlows).cs SEQ_CTX_OVERRUN.max_tk c x.ovMax
      (s.cs SEQ_CTX_PREEMPT.preempted_tk c x.preTk).cs SEQ_CTX_PREEMPT.count c x.preNo)

/-- A tile becomes primary under the keeper's record: role, own expiry, and a snapshot to the other tile. -/
def State.becomePrimary (s : State) (t : Nat) : State :=
  let u := uTile t
  let exp := s.rg 0 KPR_LEASE_EXP.expiry
  let s := (s.rs u SEQ_ROLE.role 1).rs u SEQ_ROLE.lease_held 1
  let s := (s.rs u SEQ_LEASE.epoch (s.rg 0 KPR_LEASE.epoch)).rs u SEQ_LEASE.expiry_lo exp
  let s := ((s.rs u SEQ_BEACON.ready 0).rs u SEQ_BEACON.miss_net 0).rs u SEQ_BEACON.miss_ring 0
  let s := s.setSeq t { s.seq t with
    ownExp := exp, lastAck := s.tick, ackRaised := false, unacked := [], readyView := false, standbyLost := false
    nextSeq := s.rg u SEQ_BEACON.copy_seq }
  s.sendCopy .snapshot allCtx

/-- What was queued at the host ports reaches the holder (R166, R434). -/
def State.deliverQueued (s : State) : State := { s with claim := { s.claim with queued := [] } }.each s.claim.queued runQueued

/-- The new holder continues every context from its copy, aborts what is owed, and receives what was queued. -/
def State.takeOver (s : State) (t : Nat) : State :=
  let s := s.adoptCopies t
  let s := s.becomePrimary t
  let g := s.rg 0 KPR_LEASE_EXP.expiry - 3200
  let s := s.setSeq t { s.seq t with notBefore := align16 (g + 200) }
  let owed := s.lateAborts
  let stops := s.lateStops
  let s := { s with admits := [], lateAborts := [], lateStops := [] }.each owed (fun s a => s.abortCtx a.1 a.2)
  let s := (s.each stops (fun s a => s.memberStop a.1 a.2)).each allCtx State.settleStart
  s.deliverQueued

/-- What an agent reports of each context it runs (R164): the last start tick that it accepted, whether its cores have finished the cycle,
the flows delivered and the cycle-end barriers of its hub that have been released. -/
def State.reports (s : State) (t : Nat) : List LeaseMsg :=
  (allCtx.filter (fun c => s.holdsCores c && (s.ctx c).plan.usesDie t)).map (fun c =>
    let x := s.ctx c
    .report t c (mget (s.seq t).accepted c 0)
      ((x.plan.coreKeys.filter (fun ck => ck / 64 == t)).all (fun ck => (coreEngs ck).all (fun k => (s.eng k).finished)))
      (x.flows.filterMap (fun f => f.done.map (fun d => (f.flow, d))))
      ((x.plan.sync.filter (fun e => e.kind == 3 && (syncKey e).1 == t && decide ((s.obj t (syncKey e).2).released ≥ 1))).map (·.object)))

/-- An announcement received: messages of lower epochs are refused from now on; the agents report; the holder takes over. -/
def announceEff (tile epoch : Nat) (s : State) : State :=
  let u := uTile tile
  if !s.tileUp tile then s
  else if epoch < s.rg u SEQ_LEASE.epoch then s.raise 0x9407 u
  else
    let s := (s.rs u SEQ_LEASE.epoch epoch).say (s.reports tile)
    if tile = s.rg 0 KPR_LEASE.holder ∧ epoch = s.rg 0 KPR_LEASE.epoch ∧ s.rg 0 KPR_LEASE.held = 1 ∧
        s.rg u SEQ_ROLE.lease_held = 0 then s.takeOver tile
    else s

/-- EPOCH_ANNOUNCEMENT at a tile, ahead of the other sequencer messages of its tick (Table 5-5). -/
def execEpochAnnouncement (tile epoch : Nat) (s : State) : Out :=
  s.inTurn (.epochAnnouncement tile epoch) (fun s => ok (announceEff tile epoch s))

/-- AGENT_REPORT at the new holder: a later start tick than the copy's is adopted, with the counts of that one uncopied
cycle. `delivered`: flow and the tick at which it was complete. -/
def execAgentReport (tile agent ctx start : Nat) (fin : Bool) (delivered : List (Nat × Nat)) (s : State) : Out :=
  let old := s.cg SEQ_CTX_START.start ctx
  let p := (s.ctx ctx).plan
  if !s.holds tile ∨ !s.holdsCores ctx ∨ start ≤ old ∨ !p.usesDie agent then ok s
  else
    let limits := delivered.filterMap (fun d =>
      match p.flows.find? (fun e => e.flow == d.1) with
      | some e => if d.2 > old + e.doneTk + e.slack then some (d.2 - (old + e.doneTk + e.slack)) else none
      | none => none)
    let s := match limits with
      | [] => s
      | l => (s.rinc seqHome SEQ_CTX_OVERRUN.flows l.length (dCtx ctx)).rmax seqHome SEQ_CTX_OVERRUN.max_tk (l.foldl Nat.max 0) (dCtx ctx)
    let slip := start - (old + p.period)
    let s := if slip = 0 then s
      else (s.rinc seqHome SEQ_CTX_SLIP.slip_tk slip (dCtx ctx)).rinc seqHome SEQ_CTX_SLIP.slipped_cycles 1 (dCtx ctx)
    let s := s.cs SEQ_CTX_STATE.cycles ctx (s.cg SEQ_CTX_STATE.cycles ctx + 1)
    let s := s.cs SEQ_CTX_START.start ctx start
    ok (if fin then s.sendCopy .cycle [ctx] else s)

/-! ### The state copy (R159, R160) -/

/-- What a record does to the copies: a snapshot replaces them, a context record one of them, a cycle record its counts (R159). -/
def applyCopy (m : CopyMsg) (copies : SMap CopyCtx) : SMap CopyCtx :=
  match m.kind with
  | .snapshot => m.ctxs.foldl (fun l c => mput l c.ctx c) []
  | .context => m.ctxs.foldl (fun l c => mput l c.ctx c) copies
  | .cycle => m.ctxs.foldl (fun l c =>
      let old := mget l c.ctx { ctx := c.ctx }
      mput l c.ctx { old with
        start := c.start, cycles := c.cycles, slip := c.slip, slipped := c.slipped, ovFlows := c.ovFlows, ovMax := c.ovMax }) copies

/-- A copy record at the standby. A snapshot is applied whole, another record in order of copy_seq; each record that comes is acknowledged
(DEDUCED, log 113). One of a lower epoch is refused (R164). -/
def copyEff (tile : Nat) (m : CopyMsg) (s : State) : State :=
  let u := uTile tile
  let q := s.seq tile
  if !s.tileUp tile ∨ !s.named tile ∨ s.holds tile then s
  else if m.epoch < s.rg u SEQ_LEASE.epoch then s.raise 0x9407 u
  else
    let snap := m.kind == .snapshot
    let next := s.rg u SEQ_BEACON.ready == 1 && m.seq == (s.rg u SEQ_BEACON.copy_seq + 1) % 2 ^ 16
    let s := s.rs u SEQ_LEASE.epoch m.epoch
    let s := if snap then (s.rs u SEQ_ROLE.role 2).rs u SEQ_BEACON.ready 1 else s
    let s := if snap || next then
        (s.setSeq tile { q with copies := applyCopy m q.copies, copyEpoch := if snap then m.planEpoch else q.copyEpoch }).rs u
          SEQ_BEACON.copy_seq m.seq
      else s
    s.say [.copyAck tile m.seq s.copyPath]

/-- COPY_RECORD. -/
def execCopyRecord (tile : Nat) (m : CopyMsg) (s : State) : Out := s.inTurn (.copyRecord tile m) (fun s => ok (copyEff tile m s))

/-- COPY_RECORD_ACKNOWLEDGEMENT at the primary; the first after a loss of the standby brings a fresh snapshot, and with it the records that
were lost need no answer any more (R160). -/
def execCopyRecordAcknowledgement (tile seq : Nat) (s : State) : Out :=
  if !s.holds tile then ok s
  else
    let q := s.seq tile
    if q.standbyLost then
      ok ((s.setSeq tile { q with unacked := [], readyView := false, standbyLost := false }).sendCopy .snapshot allCtx)
    else
      let snap := q.unacked.any (fun r => r.msg.seq == seq && r.msg.kind == .snapshot)
      let s := s.setSeq tile { q with unacked := q.unacked.filter (fun r => r.msg.seq != seq), readyView := q.readyView || snap }
      ok (if snap then s.rs (uTile tile) SEQ_BEACON.ready 1 else s)

/-- STANDBY_LOST: a record unacknowledged for 1,000 tk. -/
def execStandbyLost (tile : Nat) (s : State) : Out :=
  let q := s.seq tile
  if s.holds tile ∧ !q.standbyLost ∧ q.unacked.any (fun r => decide (s.tick ≥ r.at_ + 1000)) then
    ok (((s.setSeq tile { q with readyView := false, standbyLost := true }).rs (uTile tile) SEQ_BEACON.ready 0).raise 0x9405
      (uTile tile))
  else ok s

/-- The keeper's grant at READY (R152): the next epoch to the primary of the light list. -/
def State.firstGrant (s : State) : State :=
  let e := (s.rg 0 KPR_LEASE.epoch + 1) % 2 ^ 32
  let p := s.light.primary
  if !s.tileUp p then s
  else
    let s := ((s.rs 0 KPR_LEASE.epoch e).rs 0 KPR_LEASE.holder p).rs 0 KPR_LEASE.held 1
    let s := s.rs 0 KPR_LEASE_EXP.expiry (s.tick + 3200)
    let s := s.each ((List.range s.nTiles).filter s.tileUp) (fun s t => s.rs (uTile t) SEQ_LEASE.epoch e)
    (s.becomePrimary p).deliverQueued

end Sys2Proof.Machine
end

