-- ==== Sys2Proof/Machine/Events.lean ====
section
/-!
DEFINITION. The event log: arrival of records at the keeper, the order of the log, suppression, notes to the owner, and forwarding
to peers (chapter Events, Resets and Fault Handling).
-/

namespace Sys2Proof.Machine

/-- The 32 bytes of a record (Table 17-1). -/
def recBytes (r : EvRec) : List Byte :=
  le 8 r.tick ++ le 2 r.code ++ le 1 r.unit ++
  le 1 (r.prec % 16 + (if r.forwarded then 16 else 0) + (if r.subsumed then 32 else 0)) ++
  le 4 r.object ++ le 3 r.waiter ++ le 1 r.pkg ++ le 1 r.pod ++ le 1 0 ++ le 2 r.repeats ++ le 8 r.detail

/-- A record into its slot of the ring (R447); one that overwrites an unconsumed record is counted for the next gap entry. -/
def State.logRaw (s : State) (r : EvRec) : State :=
  let head := s.rg 0 EVT_LOG_PTR.head
  let tail := s.rg 0 EVT_LOG_PTR.tail
  let ovr : Bool := decide ((head + 2 ^ 32 - tail) % 2 ^ 32 ≥ 8192)
  let s := if ovr then s.rinc 0 EVT_STATUS.overrun 1 else s
  let s := { s with ev := { s.ev with
    log := mput s.ev.log (head % 8192) r
    lost := if ovr then s.ev.lost + 1 else s.ev.lost } }
  s.rs 0 EVT_LOG_PTR.head (head + 1)

/-- EVENT_NOTE with the waiting records (Table 13-4, R449). -/
def State.sendNotes (s : State) : State :=
  let l := s.ev.notes.take 32
  if l.isEmpty then s
  else
    let n := s.claim.noteCount + 1
    let s := { s with
      ev := { s.ev with notes := s.ev.notes.drop 32 }
      claim := { s.claim with noteCount := n } }
    s.notify 0x19 (le 8 n ++ le 1 l.length ++ le 7 0 ++ l.flatMap (fun x => recBytes x.ev))

/-- An appended record waits for a note if its family passes the filter; 32 waiting records are sent. -/
def State.noteRec (s : State) (r : EvRec) : State :=
  if s.claim.claimed ∧ bitsOf s.claim.filter (familyOf r.code) 1 = 1 then
    let s := { s with ev := { s.ev with notes := s.ev.notes ++ [⟨r, s.tick⟩] } }
    if s.ev.notes.length ≥ 32 then s.sendNotes else s
  else s

/-- A record the package raised goes to every link whose peers take forwarded events (R450, R347). -/
def State.forward (s : State) (r : EvRec) : State :=
  if r.pkg = 0x7F ∧ 1 ≤ r.prec ∧ r.prec ≤ 6 ∧ bitsOf (s.rg 0 EVT_CTL.fwd_mask) (familyOf r.code) 1 = 1 then
    s.each (List.range s.nLinks) (fun s l =>
      let st := s.lg l LNK_STATUS.state
      if s.tileUp (linkTile l) ∧ (st = 2 ∨ st = 3) ∧ bitsOf (s.lg l LNK_PEER.features) 1 1 = 1 then
        s.sendLink l 0x34 [] (recBytes r)
      else s)
  else s

/-- One entry, with its note. -/
def State.logEntry (s : State) (r : EvRec) : State := (s.logRaw r).noteRec r

/-- The gap entry that an overrun owes (R447). -/
def State.logGap (s : State) : State :=
  if s.ev.lost = 0 then s
  else
    let g : EvRec := { tick := s.tick, code := 0x0002, unit := 0, prec := 11, detail := s.ev.lost }
    ({ s with ev := { s.ev with lost := 0 } }).logEntry g

/-- An append: the gap entry first, then the record, its note and its forwarding. -/
def State.append (s : State) (r : EvRec) : State := ((s.logGap).logEntry r).forward r

/-! ### Suppression (R448) -/

def sameWin (code unit : Nat) (w : SupWin) : Bool := w.code == code && w.unit == unit

/-- Events that suppression may hold back. -/
def suppressible (r : EvRec) : Bool := decide (r.prec ≥ 10) && !r.forwarded && familyOf r.code != 0

/-- A window that has run its time closes: the last suppressed record is appended and opens a new one. -/
def State.closeWin (s : State) (code unit : Nat) : State :=
  match s.ev.wins.find? (sameWin code unit) with
  | none => s
  | some w =>
    if s.tick < w.opened + 100000 then s
    else
      let rest := s.ev.wins.filter (fun x => !sameWin code unit x)
      match w.last with
      | none => { s with ev := { s.ev with wins := rest } }
      | some r =>
        ({ s with ev := { s.ev with wins := rest ++ [SupWin.mk code unit s.tick 0 none] } }).append
          { r with repeats := Nat.min w.count 0xFFFF }

/-- A record due for the log: appended, or suppressed in an open window of its code and unit. -/
def State.logOne (s : State) (r : EvRec) : State :=
  if suppressible r ∧ s.rg 0 EVT_CTL.suppress_en = 1 then
    let s := s.closeWin r.code r.unit
    match s.ev.wins.find? (sameWin r.code r.unit) with
    | none =>
      ({ s with ev := { s.ev with wins := s.ev.wins ++ [SupWin.mk r.code r.unit s.tick 0 none] } }).append r
    | some _ =>
      let wins := s.ev.wins.map (fun w =>
        if sameWin r.code r.unit w then { w with count := w.count + 1, last := some r } else w)
      ({ s with ev := { s.ev with wins := wins } }).rinc 0 EVT_STATUS.suppressed 1
  else s.append r

/-! ### The rows -/

/-- The order of the log: tick, then unit, then code (R446). -/
def logBefore (a b : EvRec) : Bool :=
  a.tick < b.tick || (a.tick == b.tick && (a.unit < b.unit || (a.unit == b.unit && a.code ≤ b.code)))

/-- The first of the held records in log order. -/
def firstHeld : List EvRec → Option EvRec
  | [] => none
  | r :: rs =>
    match firstHeld rs with
    | none => some r
    | some x => if logBefore r x then some r else some x

/-- EVENT_RECORD_ARRIVAL of the `i`th record under way: held, or, later than 64 tk after its stamp, appended at once and counted. -/
def execEventRecordArrival (i : Nat) (s : State) : Out :=
  match s.ev.travel[i]? with
  | none => ok s
  | some r =>
    let s := { s with ev := { s.ev with travel := s.ev.travel.eraseIdx i } }
    if s.tick > r.tick + 64 then ok ((s.rinc 0 EVT_STATUS.late 1).logOne r)
    else ok { s with ev := { s.ev with held := s.ev.held ++ [r] } }

/-- LOG_APPEND: the first held record in order, once the keeper's tick is 64 tk past its stamp. -/
def execLogAppend (s : State) : Out :=
  match firstHeld s.ev.held with
  | none => ok s
  | some r =>
    if s.tick ≥ r.tick + 64 then ok (({ s with ev := { s.ev with held := s.ev.held.erase r } }).logOne r)
    else ok s

/-- EVENT_NOTE_TIMER. -/
def execEventNoteTimer (s : State) : Out :=
  match s.ev.notes with
  | [] => ok s
  | x :: _ => if s.tick ≥ x.at_ + 10000 then ok s.sendNotes else ok s

/-- SUPPRESSION_WINDOW_CLOSE. -/
def execSuppressionWindowClose (code unit : Nat) (s : State) : Out := ok (s.closeWin code unit)

end Sys2Proof.Machine
end

