-- ==== Sys2Proof/Machine/Line.lean ====
section
/-!
DEFINITION. What a wavelength carries on the line: levels and DAC codes, the Reed-Solomon code, the scrambler, the alignment marker, the
flits of a direction as payload bits (R288 to R296, R334).
-/

namespace Sys2Proof.Machine

/-! ### Modes (Table 10-6) -/

/-- Marker period of a mode in tk. -/
def markerTk (mode : Nat) : Nat := if mode = 0 then 512 else if mode = 1 then 256 else 128

/-- Ten-bit symbols that a lane sends in a tick: 10 ns at 32, 64 and 128 Gb/s. -/
def symbolsTk (mode : Nat) : Nat := 32 * 2 ^ mode

/-! ### The modulator drive (R288, R289) -/

/-- `n / d` rounded half to even. -/
def roundHalfEven (n : Int) (d : Nat) : Int :=
  let q := n.ediv d
  let r := n.emod d
  if 2 * r < d then q else if 2 * r > d then q + 1 else if q % 2 = 0 then q else q + 1

/-- Line bits two at a time, the first the more significant, Gray-mapped to levels. -/
def pamLevels : List Bool → List Nat
  | a :: b :: l => (if a then (if b then 2 else 3) else (if b then 1 else 0)) :: pamLevels l
  | _ => []

/-- The levels of line bits in a mode. -/
def lineLevels (mode : Nat) (bits : List Bool) : List Nat := if mode = 0 then bits.map (fun b => if b then 3 else 0) else pamLevels bits

/-- The bits of a ten-bit symbol as it is sent, bit 0 first (R292). -/
def symbolBits (v : Nat) : List Bool := (List.range 10).map (fun i => v.testBit i)

/-- The DAC code of a symbol between its neighbours, from a drive set: lvl[0] to lvl[3], pre, post. All terms are taken 128 times. -/
def dacCode (drive : List Int) (prev cur next : Nat) : Nat :=
  let lvl (a : Nat) : Int := drive.getD a 0
  let pre := lvl 4
  let post := lvl 5
  let main : Int := 64 - pre.natAbs - post.natAbs
  let mid := lvl 0 + lvl 3
  let d (a : Nat) : Int := 2 * lvl a - mid
  (min 63 (max 0 (roundHalfEven (64 * mid + pre * d next + main * d cur + post * d prev) 128))).toNat

/-- The codes of a run of levels, each but the last two of which has both its neighbours. -/
def dacCodes (drive : List Int) : List Nat → List Nat
  | a :: b :: c :: l => dacCode drive a b c :: dacCodes drive (b :: c :: l)
  | _ => []

/-! ### The Reed-Solomon code (R293) -/

/-- Product in GF(2^10) over x^10 + x^3 + 1. -/
def gfMul (a b : Nat) : Nat :=
  (List.range 10).foldr (fun i r =>
    let d := if 2 * r ≥ 1024 then (2 * r) ^^^ 0x409 else 2 * r
    if b.testBit i then d ^^^ a else d) 0

/-- The power `n` of an element, by squaring. -/
def gfPow (a n : Nat) : Nat :=
  (List.range 10).foldr (fun i r => let q := gfMul r r; if n.testBit i then gfMul q a else q) 1

/-- α^n, α = x. -/
def gfExp (n : Nat) : Nat := gfPow 2 (n % 1023)
def gfInv (a : Nat) : Nat := gfPow a 1022

/-- Coefficientwise sum of two lists of elements, the shorter one ending in zeros. -/
def gfAdd : List Nat → List Nat → List Nat
  | [], l => l
  | l, [] => l
  | a :: l, b :: m => (a ^^^ b) :: gfAdd l m

/-- The generator's coefficients below x^14, from x^13 down. -/
def rsGen : List Nat :=
  ((List.range 14).foldl (fun g i => gfAdd (g ++ [0]) (0 :: g.map (gfMul (gfExp i)))) [1]).tail

/-- The parity register after one more data symbol, from x^13 down; the first data symbol is the highest coefficient. -/
def rsShift (par : List Nat) (d : Nat) : List Nat :=
  let f := d ^^^ par.headD 0
  gfAdd (par.tail ++ [0]) (rsGen.map (gfMul f))

def noParity : List Nat := List.replicate 14 0

/-- Parity of 250 data symbols. -/
def rsParity (data : List Nat) : List Nat := data.foldl rsShift noParity

/-- Value of a polynomial whose coefficients stand from x^0 up. -/
def gfEval (p : List Nat) (x : Nat) : Nat := p.foldr (fun c r => gfMul r x ^^^ c) 0

/-- Syndromes of a word. -/
def rsSyndromes (word : List Nat) : List Nat := (List.range 14).map (fun i => gfEval word.reverse (gfExp i))

/-- The search for the error locator, coefficients from x^0 up (Berlekamp and Massey). -/
structure RsSearch where
  loc  : List Nat := [1]
  prev : List Nat := [1]
  len  : Nat := 0
  gap  : Nat := 1
  last : Nat := 1
  deriving DecidableEq, Repr

def rsStep (syn : List Nat) (x : RsSearch) (n : Nat) : RsSearch :=
  let d := (List.range (x.len + 1)).foldl (fun r i => r ^^^ gfMul (x.loc.getD i 0) (syn.getD (n - i) 0)) 0
  if d = 0 then { x with gap := x.gap + 1 }
  else
    let loc := gfAdd x.loc (List.replicate x.gap 0 ++ x.prev.map (gfMul (gfMul d (gfInv x.last))))
    if 2 * x.len ≤ n then { loc := loc, prev := x.loc, len := n + 1 - x.len, gap := 1, last := d }
    else { x with loc := loc, gap := x.gap + 1 }

/-- The first 14 coefficients of a product. -/
def gfProduct (p q : List Nat) : List Nat :=
  (List.range 14).map (fun k => (List.range (k + 1)).foldl (fun r i => r ^^^ gfMul (p.getD i 0) (q.getD (k - i) 0)) 0)

/-- The value of an error at a locator: Forney's rule for roots from α^0. -/
def rsValue (loc omega : List Nat) (x : Nat) : Nat :=
  let y := gfInv x
  let slope := (List.range loc.length).foldl (fun r i => if i % 2 = 1 then r ^^^ gfMul (loc.getD i 0) (gfPow y (i - 1)) else r) 0
  gfMul x (gfMul (gfEval omega y) (gfInv slope))

/-- A received codeword decoded: the symbols with at most 7 errors put right and their number, or none where it is uncorrectable. -/
def rsDecode (word : List Nat) : Option (List Nat × Nat) :=
  let syn := rsSyndromes word
  if syn.all (· == 0) then some (word, 0)
  else
    let x := (List.range 14).foldl (rsStep syn) {}
    let omega := gfProduct syn x.loc
    let fixed := word.zipIdx.map (fun c =>
      let p := gfExp (word.length - 1 - c.2)
      if gfEval x.loc (gfInv p) = 0 then c.1 ^^^ rsValue x.loc omega p else c.1)
    if x.len ≤ 7 ∧ (rsSyndromes fixed).all (· == 0) then some (fixed, x.len) else none

/-! ### The scrambler (R293) -/

def scrSeed (mcount lam : Nat) : Nat := 0x40000000 + mcount % 2 ^ 16 * 16 + lam

/-- One bit of the stream: the newest bit is the sum of those 31 and 28 places back (DESIGN CHOICE, log 114). -/
def scrBit (r : Nat) : Nat :=
  (2 * r + (if r.testBit 30 != r.testBit 27 then 1 else 0)) % 2 ^ 31

/-- A symbol under the stream, bit 0 first, and the state after it. -/
def scramble10 (r v : Nat) : Nat × Nat :=
  (List.range 10).foldl (fun x i => (x.1 ^^^ (scrBit x.2 % 2 * 2 ^ i), scrBit x.2)) (v, r)

/-- A run of symbols under the stream: scrambling and descrambling are one. -/
def scrambleRun : Nat → List Nat → List Nat
  | _, [] => []
  | r, v :: l => (scramble10 r v).1 :: scrambleRun (scramble10 r v).2 l

/-! ### What a lane sends (R292) -/

/-- The next symbol of a lane: data where the codeword takes data, then parity; scrambled. -/
def TxLine.next (x : TxLine) (d : Nat) : Nat × TxLine :=
  let v := if x.n < 250 then d else x.par.getD (x.n - 250) 0
  let y := scramble10 x.scr v
  (y.1, { x with
    scr := y.2
    n := if x.n = 263 then 0 else x.n + 1
    par := if x.n = 263 then noParity else if x.n < 250 then rsShift x.par d else x.par })

/-- The symbols of a tick, from symbol `i` of the period on: the marker's, then codewords whose data `data` gives in order. -/
def TxLine.run (marker seed : Nat) (data : Nat → Nat) : Nat → Nat → Nat → TxLine → List Nat × TxLine
  | 0, _, _, x => ([], x)
  | fuel + 1, i, j, x =>
    if i < 8 then
      let r := TxLine.run marker seed data fuel (i + 1) j { x with scr := seed }
      (bitsOf marker (10 * i) 10 :: r.1, r.2)
    else
      let y := x.next (data j)
      let r := TxLine.run marker seed data fuel (i + 1) (if x.n < 250 then j + 1 else j) y.2
      (y.1 :: r.1, r.2)

/-- Data symbols of a lane in the first `d` ticks at PAM64 from a boundary at which its codewords begin. -/
def dataBy (d : Nat) : Nat :=
  let n := 128 * d - 8 * ((d + 127) / 128)
  n / 264 * 250 + min 250 (n % 264)

/-- Flits begun by `d` ticks after the width boundary at width `w`: flit k starts at payload bit 2,048 k (R296, R297). -/
def flitsBy (w d : Nat) : Nat := (10 * w * dataBy d + 2047) / 2048

/-! ### What a lane receives (R292 to R294) -/

/-- Codewords of 264 symbols in a row, and what is left over. -/
def codewords : Nat → List Nat → List (List Nat) × List Nat
  | 0, l => ([], l)
  | fuel + 1, l =>
    if l.length < 264 then ([], l)
    else
      let r := codewords fuel (l.drop 264)
      (l.take 264 :: r.1, r.2)

/-- Corrected symbols and uncorrectable codewords of some codewords. -/
def rsCount (ws : List (List Nat)) : Nat × Nat :=
  ws.foldl (fun a w => match rsDecode w with
    | some x => (a.1 + x.2, a.2)
    | none => (a.1, a.2 + 1)) (0, 0)

/-! ### The alignment marker (R295, Table 10-5) -/

def markerWord (lane lam epoch mode : Nat) (go ready : Bool) (rxGood mcount : Nat) : Nat :=
  let b := 0xC35A + lane * 2 ^ 16 + lam * 2 ^ 20 + epoch * 2 ^ 24 + mode * 2 ^ 32 + (if go then 2 ^ 34 else 0) +
    (if ready then 2 ^ 35 else 0) + rxGood * 2 ^ 36 + mcount * 2 ^ 48
  b + crc16 (le 8 b) * 2 ^ 64

/-! ### Flits as bytes (R334, R335) -/

/-- CRC-32 (polynomial 0x04C11DB7, no reflection), most significant bit first. -/
def crc32Bit (r : Nat) (b : Bool) : Nat :=
  let x := (r / 2 ^ 31 % 2 == 1) != b
  let r2 := r * 2 % 2 ^ 32
  if x then r2 ^^^ 0x04C11DB7 else r2

def crc32Byte (r : Nat) (b : Byte) : Nat :=
  [7, 6, 5, 4, 3, 2, 1, 0].foldl (fun r i => crc32Bit r (b.toNat / 2 ^ i % 2 == 1)) r

def crc32 (bs : List Byte) : Nat := bs.foldl crc32Byte 0xFFFFFFFF ^^^ 0xFFFFFFFF

def padTo (n : Nat) (bs : List Byte) : List Byte := (bs ++ List.replicate (n - bs.length) 0).take n

/-- Bits [31:0] of a flit header (Table 12-1): `hdr` is 0 and the ack, or 1, the channel and the entries freed. -/
def headerWord (seq vc : Nat) (hdr : List Nat) : Nat :=
  seq + vc * 2 ^ 16 +
  (if listAt hdr 0 = 0 then listAt hdr 1 % 2 ^ 12 * 2 ^ 19 else 2 ^ 18 + listAt hdr 1 * 2 ^ 19 + listAt hdr 2 % 2 ^ 11 * 2 ^ 21)

/-- Payload bytes 8 to 255 of a message. The places of the fields in the bodies of most control messages are not stated: free bytes. -/
def LinkMsg.payload (m : LinkMsg) : List Byte :=
  let a (i : Nat) : Nat := listAt m.args i
  let head (len : Nat) : List Byte := le 1 m.type ++ le 1 len ++ List.replicate 14 0
  let data (n : Nat) : List Byte :=
    le 8 (m.type + n * 2 ^ 8 + a 0 * 2 ^ 16 + a 1 * 2 ^ 32 + a 2 * 2 ^ 48 + a 3 * 2 ^ 54) ++ le 8 (a 4)
  padTo 248 (
    if m.type = 0 then []
    else if m.type = 1 then
      head 28 ++ ((List.range 8).flatMap (fun i => le 1 (a i))) ++ le 4 (a 8) ++ le 1 (a 9) ++ le 1 (a 10) ++ le 1 (a 11) ++ le 1 (a 12) ++
        le 4 (a 13) ++ le 8 (a 14)
    else if m.type ≤ 3 then head 8 ++ le 8 (a 0)
    else if m.type = 0x10 then data m.data.length ++ m.data
    else if m.type = 0x11 then
      data m.data.length ++ le 8 (a 5) ++ le 4 (a 6) ++ le 1 (a 7) ++ le 1 (a 8) ++ le 2 0 ++ m.data
    else Config.controlBody m.type m.args)

/-- A flit as it goes on the line: its header, with its CRC over the rest, and its payload. -/
def LinkMsg.flit (m : LinkMsg) : List Byte :=
  let h := le 4 (headerWord m.seq m.vc m.hdr)
  h ++ le 4 (crc32 (h ++ m.payload)) ++ m.payload

end Sys2Proof.Machine

namespace Sys2Proof

/-! ### The fields of a received marker (Table 10-5) -/

def OptMarker.crcOk (m : OptMarker) : Bool := Machine.crc16 (le 8 (bitsOf m.word 0 64)) == bitsOf m.word 64 16
def OptMarker.lane (m : OptMarker) : Nat := bitsOf m.word 16 4
def OptMarker.lambda (m : OptMarker) : Nat := bitsOf m.word 20 4
def OptMarker.epoch (m : OptMarker) : Nat := bitsOf m.word 24 8
def OptMarker.mode (m : OptMarker) : Nat := bitsOf m.word 32 2
def OptMarker.go (m : OptMarker) : Bool := bitsOf m.word 34 1 == 1
def OptMarker.ready (m : OptMarker) : Bool := bitsOf m.word 35 1 == 1
def OptMarker.rxGood (m : OptMarker) : Nat := bitsOf m.word 36 10
def OptMarker.mcount (m : OptMarker) : Nat := bitsOf m.word 48 16

end Sys2Proof
end

