-- ==== Sys2Proof/Machine/D2d.lean ====
section
/-!
DEFINITION. The Ruino-D modules: training, lane maps, runtime repair, degraded width, margin sets (chapter Ruino-D Die-to-Die
Adapter).
-/

namespace Sys2Proof.Machine

/-- Number of a side of a module. -/
def modKey (u m : Nat) : Nat := u * 16 + m

/-- Physical lanes of a direction (R256), and logical lanes at full width (Table 9-1). -/
def physLanes (u m : Nat) : Nat := if narrowMod u m then 68 else 1088
def fullLanes (u m : Nat) : Nat := if narrowMod u m then 64 else 1024

/-- Forwarded clocks of a direction, and the one that serves a physical lane (R255, R256). -/
def clockGroups (u m : Nat) : Nat := if narrowMod u m then 2 else 32
def clockOf (lane : Nat) : Nat := lane / 34

/-- The fused bad lanes of a direction (R269): 0 receive, 1 transmit. -/
def State.fusedBad (s : State) (u m dir : Nat) : Nat := mget s.fuses.lanes (modKey u m * 2 + dir) 0 % 2 ^ physLanes u m

/-- A side as its die's reset leaves it: no map agreed, the bad lanes those fused (R269). -/
def State.freshMod (s : State) (u m : Nat) : D2dSt := { rx := { bad := s.fusedBad u m 0 }, tx := { bad := s.fusedBad u m 1 } }

def State.mod (s : State) (u m : Nat) : D2dSt := mget s.d2d (modKey u m) (s.freshMod u m)
def State.setMod (s : State) (u m : Nat) (x : D2dSt) : State := { s with d2d := mput s.d2d (modKey u m) x }
def State.mg (s : State) (u m : Nat) (f : Fld) : Nat := s.rg u f (dMod m)
def State.ms (s : State) (u m : Nat) (f : Fld) (v : Nat) : State := s.rs u f v (dMod m)
def State.minc (s : State) (u m : Nat) (f : Fld) (n : Nat) : State := s.rinc u f n (dMod m)

/-- A set of lanes as a bit map. -/
def laneMask (l : List Nat) : Nat := l.foldl (fun m x => m ||| 2 ^ x) 0

def laneBad (bad x : Nat) : Bool := bad / 2 ^ x % 2 == 1

/-- Good physical lanes, in increasing order. -/
def goodLanes (u m bad : Nat) : List Nat := (List.range (physLanes u m)).filter (fun x => !laneBad bad x)

/-- The width for a number of good lanes (R265): 0 where the direction cannot carry cells. A narrow module is DOWN with more than
4 bad lanes. -/
def widthOf (u m good : Nat) : Nat :=
  if good ≥ fullLanes u m then fullLanes u m
  else if narrowMod u m then 0
  else if good ≥ 512 then 512 else 0

/-- The map of R269 over a set of bad lanes. -/
def laneMapOf (u m bad epoch : Nat) : LaneMap :=
  let good := goodLanes u m bad
  { table := good.take (widthOf u m good.length), bad := bad, epoch := epoch }

/-- Epochs run from 1 to 255 and wrap to 1 (R268). -/
def nextMapEpoch (e : Nat) : Nat := if e ≥ 255 then 1 else e + 1

/-- The map digest (R268): the table, two bytes a lane, then the epoch. -/
def LaneMap.digest (x : LaneMap) : Nat := crc32 (x.table.flatMap (fun l => le 2 l) ++ le 1 x.epoch)

/-- Free spares of a direction: good lanes that the table leaves over (R269). -/
def LaneMap.spares (u m : Nat) (x : LaneMap) : List Nat := (goodLanes u m x.bad).filter (fun l => !x.table.contains l)

/-- `s` with the receive map of a side, and what its registers show of it. -/
def State.setRx (s : State) (u m : Nat) (x : LaneMap) : State :=
  let s := s.setMod u m { s.mod u m with rx := x }
  let s := s.ms u m D2D_STATUS.rx_epoch x.epoch
  let s := s.ms u m D2D_STATUS.rx_good (goodLanes u m x.bad).length
  let s := s.ms u m D2D_STATUS.spare_free (x.spares u m).length
  let s := s.ms u m D2D_STATUS.degraded (if x.table.length = 512 then 1 else 0)
  s.ms u m D2D_DIGEST.rx_digest x.digest

/-- `s` with the transmit map of a side. -/
def State.setTx (s : State) (u m : Nat) (x : LaneMap) : State :=
  let s := s.setMod u m { s.mod u m with tx := x }
  (s.ms u m D2D_STATUS.tx_epoch x.epoch).ms u m D2D_DIGEST.tx_digest x.digest

def State.modState (s : State) (u m : Nat) : Nat := s.mg u m D2D_STATUS.state
def State.setModState (s : State) (u m st : Nat) : State := s.ms u m D2D_STATUS.state st

/-- Where bit `j` of a cell goes under a map (R259): the physical lane that carries logical lane j mod L, and the unit interval of the cell. -/
def LaneMap.place (x : LaneMap) (j : Nat) : Nat × Nat := (x.table.getD (j % x.table.length) 0, j / x.table.length)

/-! ### Markers (R260) -/

/-- CRC-6 of Table 9-3 over 26 bits, bit 0 entering first, as it is sent (DEDUCED, log 104). -/
def crc6 (v : Nat) : Nat :=
  (List.range 26).foldl (fun r i =>
    let x := (r / 2 ^ 5 % 2 == 1) != (v / 2 ^ i % 2 == 1)
    let r2 := r * 2 % 2 ^ 6
    if x then r2 ^^^ 0x03 else r2) 0

/-- The lane field of a lane that carries no data. -/
def idleLane : Nat := 0x7FF

/-- The marker of a lane (Table 9-3): `odd`, the bits sent since the last marker hold an odd number of ones, so that the parity bit makes
them even. -/
def alignMarker (lane epoch : Nat) (odd : Bool) : Nat :=
  let body := 0x2D + lane * 2 ^ 6 + epoch * 2 ^ 17 + (if odd then 2 ^ 25 else 0)
  body + crc6 body * 2 ^ 26

/-- What the transmit side puts into the marker of a physical lane: its logical lane and the epoch; a spare that copies a lane carries
that lane and the epoch to come (Table 9-7). -/
def D2dSt.txMark (x : D2dSt) (now l : Nat) : Nat × Nat :=
  match x.txFix with
  | some f => if f.y = l ∧ now > f.m then (f.x, f.epoch)
    else if x.tx.table.contains l then (x.tx.table.idxOf l, x.tx.epoch) else (idleLane, x.tx.epoch)
  | none => if x.tx.table.contains l then (x.tx.table.idxOf l, x.tx.epoch) else (idleLane, x.tx.epoch)

/-- The marker that a side sends on a physical lane. -/
def State.sentMarker (s : State) (u m l : Nat) (odd : Bool) : Nat :=
  let k := (s.mod u m).txMark s.tick l
  alignMarker k.1 k.2 odd

/-- The lane and epoch fields that the receive side's map lets a marker carry: the spare of a repair carries the lane it is to take; for the
one period after a switch the epoch before it is still sent (DEDUCED, log 69). -/
def D2dSt.rxMarks (x : D2dSt) (now l : Nat) : List (Nat × Nat) :=
  let lane := if x.rx.table.contains l then x.rx.table.idxOf l else idleLane
  let was := match x.rxWas with
    | some w => if now ≤ w.2 then [(lane, w.1), (idleLane, w.1)] else []
    | none => []
  match x.rxFix with
  | some f => if f.y = l ∧ now > f.m + 64 then [(f.x, f.epoch)] else (lane, x.rx.epoch) :: was
  | none => (lane, x.rx.epoch) :: was

/-- Is a lane errored for the period just ended (R261)? In TEST no map is in force, and the lane and epoch fields are not compared
(DEDUCED, log 104); a lane whose forwarded clock is absent is not received at all. -/
def laneErrored (test : Bool) (now : Nat) (x : D2dSt) (o : LaneObs) : Bool :=
  x.noClk.contains (clockOf o.lane) ||
  (if test then o.word != alignMarker (bitsOf o.word 6 11) (bitsOf o.word 17 8) o.odd
   else !(x.rxMarks now o.lane).any (fun k => o.word == alignMarker k.1 k.2 o.odd))

/-! ### Messages and events -/

/-- An adapter message as a side sends it now: on the sideband lane of message lane 0, or in-band, on all 68 lanes in CLOCK and TEST (R257). -/
def State.modOut (s : State) (u m : Nat) (x : D2dMsg) : D2dOut :=
  { mod := modKey u m
    lane := if narrowMod u m then none else (s.mod u m).side.head?
    copies := if narrowMod u m && (s.modState u m == 1 || s.modState u m == 2) then physLanes u m else 1
    msg := x }

/-- An adapter message to the other side. -/
def State.sendMod (s : State) (u m : Nat) (x : D2dMsg) : State := { s with d2dSent := s.d2dSent ++ [s.modOut u m x] }

/-- An event of a module. -/
def State.raiseMod (s : State) (code u m : Nat) (detail : Nat := 0) : State :=
  s.raise code u m 0 detail (s.endedNow (oModule u m) || s.unitEnded u)

/-! ### Discovery (R34): who holds an ID, and who is told -/

/-- A warm reset without a lost tile finds the tiles of the last discovery (R433). -/
def State.rediscovers (s : State) : Bool := !s.boot.warm || s.boot.lostAny

/-- Discovery is under way for a tile: for all in stage D2D, or for one that a tile reset brings back. -/
def State.discovering (s : State) (t : Nat) : Bool :=
  s.running && decide (t < s.nTiles) && ((s.stage == 4 && s.rediscovers && !s.boot.stuck) || (s.stage == 8 && s.tileSt t == 3))

/-- The ID a tile position holds. -/
def State.idOf (s : State) (t : Nat) : Option Nat := mfind s.boot.ids t

/-- A side has passed its 4 Gb/s training and carries messages, if not yet cells. -/
def State.modUp (s : State) (u m : Nat) : Bool :=
  4 ≤ s.modState u m && s.modState u m ≤ 8 && (s.otherSide u m).isSome

/-- The number of an edge port: its bit in an edge set, and half its first module. -/
def edgeNo (p : Port) : Nat := match p with
  | .n => 0
  | .e => 1
  | .s => 2
  | .w => 3

/-- The ports of a tile on which a module has trained (R34 step 3). -/
def State.edgeSet (s : State) (t : Nat) : Nat :=
  [0, 1, 2, 3].foldl (fun e p => if s.modUp (uTile t) (2 * p) || s.modUp (uTile t) (2 * p + 1) then e + 2 ^ p else e) 0

/-- The ports on which a position has a neighbour (R14, R15). -/
def State.gridEdges (s : State) (t : Nat) : Nat :=
  [Port.n, Port.e, Port.s, Port.w].foldl (fun e p => if (s.neighbour t p).isSome then e + 2 ^ edgeNo p else e) 0

/-- The ID that an advertisement of `id` on a port gives (R34 step 5). -/
def idFrom (p : Port) (id cols : Nat) : Int :=
  match p with
  | .w => id + 1
  | .e => (id : Int) - 1
  | .n => id + cols
  | .s => (id : Int) - cols

/-- A tile advertises its ID and C on an edge: on the lower of its modules that has trained (DESIGN CHOICE, log 103). -/
def State.advertise (s : State) (t id p : Nat) : State :=
  s.sendMod (uTile t) (if s.modUp (uTile t) (2 * p) then 2 * p else 2 * p + 1) (.advertise id s.cols)

/-- A tile takes an ID, and advertises it on every edge of its edge set (R34 steps 4 and 5). -/
def State.takeId (s : State) (t id : Nat) : State :=
  let s := { s with boot := { s.boot with ids := mput s.boot.ids t id } }
  s.each (bitsSet 4 (s.edgeSet t)) (fun s p => s.advertise t id p)

/-- Both sides of a keeper module have trained. -/
def State.keeperUp (s : State) (k : Nat) : Bool := s.modUp 0 k && s.modUp (uTile (s.portTile k)) 9

/-- The keeper's step of discovery (R34 step 2, R36): ID 0 and C over K0, C alone over K1; where nothing trains on K0, ID C over K1. -/
def State.keeperAssign (s : State) : State :=
  let first (s : State) : State := { s with boot := { s.boot with assignAt := some (s.boot.assignAt.getD s.tick) } }
  let s :=
    if s.keeperUp 0 && s.discovering 0 && (s.idOf 0).isNone then
      ((first s).sendMod 0 0 (.assign 0 s.cols)).takeId 0 0
    else s
  if s.keeperUp 1 && s.discovering s.cols then
    if s.modState 0 0 = 9 ∧ s.stage = 4 ∧ s.idOf 0 = none ∧ s.idOf s.cols = none then
      ((first s).sendMod 0 1 (.assign s.cols s.cols)).takeId s.cols s.cols
    else if s.boot.toldC.contains 1 then s
    else { s.sendMod 0 1 (.columns s.cols) with boot := { s.boot with toldC := 1 :: s.boot.toldC } }
  else s

/-- A side has trained at 4 Gb/s: an edge joins its tile's edge set, and a tile that holds an ID advertises it there, once for the edge; a
keeper module lets the keeper assign. -/
def State.trained (s : State) (u m : Nat) : State :=
  if u / 16 = 1 ∧ m < 8 then
    match s.idOf (u % 16) with
    | some i =>
      if !s.discovering (u % 16) ∧ !s.discovering ((((s.otherSide u m).map (·.1)).getD u) % 16) then s else if s.modUp u (m / 2 * 2) && s.modUp u (m / 2 * 2 + 1) then s else s.advertise (u % 16) i (m / 2)
    | none => s
  else if narrowMod u m then s.keeperAssign
  else s

/-! ### Training (R263) -/

/-- Repairs and degrades in progress are discarded (R272, R274). -/
def D2dSt.noFix (x : D2dSt) : D2dSt :=
  { x with rxFix := none, txFix := none, rxDeg := none, txDeg := none, rxWas := none, want := [], low := [], heard := none }

/-- Entry of one side to DOWN. -/
def State.modDown (s : State) (u m : Nat) : State :=
  let s := s.setMod u m { (s.mod u m).noFix with downAt := s.tick }
  let s := ((s.setModState u m 9).ms u m D2D_STATUS.repairing 0).minc u m D2D_COUNTS.downs 1
  if narrowMod u m then s.keeperAssign else s

/-- The module is DOWN: both of its sides, but for one that is OFF or DOWN already. -/
def State.bothDown (s : State) (u m : Nat) : State :=
  let s := s.modDown u m
  match s.otherSide u m with
  | some (v, n) => if s.modState v n = 0 ∨ s.modState v n = 9 then s else s.modDown v n
  | none => s

/-- Training starts at CLOCK at 4 Gb/s, from the fused maps (R263, R272); `cold`: it stops in HOLD (R266). -/
def State.trainMod (s : State) (u m : Nat) (cold : Bool) : State :=
  if (s.otherSide u m).isNone then s
  else
    let x := s.mod u m
    let s := s.setMod u m { x.noFix with
      trial := 0
      own := s.mg u m D2D_CTL.max_rate
      again := false
      differed := false
      cold := cold
      noClock := false
      noClk := [] }
    let s := s.setRx u m (laneMapOf u m (s.fusedBad u m 0) x.rx.epoch)
    let s := s.setTx u m (laneMapOf u m (s.fusedBad u m 1) x.tx.epoch)
    let s := ((s.setModState u m 1).ms u m D2D_STATUS.rate 0).ms u m D2D_STATUS.repairing 0
    s.minc u m D2D_COUNTS.trainings 1

/-- In one of the states of a training. -/
def trainingState (st : Nat) : Bool := 1 ≤ st && st ≤ 6

/-- A training request as a side sees it: it starts a training unless one is under way, or the side is OFF (R263, R274). -/
def trainRequestEff (u m : Nat) (s : State) : State :=
  let st := s.modState u m
  if st = 0 ∨ trainingState st then s else s.trainMod u m false

/-- The side that finds a reason to train sends the request and trains. -/
def State.requestTraining (s : State) (u m : Nat) : State :=
  let st := s.modState u m
  if st = 0 ∨ trainingState st then s else (s.sendMod u m .trainingRequest).trainMod u m false

/-- TRAINING_REQUEST. -/
def execTrainingRequest (u m : Nat) (s : State) : Out := ok (if s.unitUp u then trainRequestEff u m s else s)

/-- The effect of D2D_CTL.retrain = 1. -/
def d2dRetrainEff (u m : Nat) (s : State) : State := s.requestTraining u m

/-- D2D_CTL_RETRAIN. -/
def execD2dCtlRetrain (u m : Nat) (s : State) : Out := ok (if s.unitUp u then d2dRetrainEff u m s else s)

/-- FORWARDED_CLOCK_LOSS: the clock groups of `absent` were absent for 16 reference periods. On more than half of the groups (16 of 32;
a narrow module has two, DEDUCED, log 105) the module is DOWN; on fewer, the lanes of those groups are not received. -/
def execForwardedClockLoss (u m : Nat) (absent : List Nat) (s : State) : Out := s.inTurn (.forwardedClockLoss u m absent) (fun s =>
    let st := s.modState u m
    let gone := (List.range (clockGroups u m)).filter (fun c => absent.contains c)
    if st = 0 then ok s
    else if gone.length ≤ clockGroups u m / 2 then ok (s.setMod u m { s.mod u m with noClk := gone })
    else if st = 9 then ok (s.setMod u m { s.mod u m with noClock := true, noClk := gone })
    else
      let s := s.raiseMod 0x5005 u m
      let s := s.modDown u m
      ok (s.setMod u m { s.mod u m with noClock := true, noClk := gone }))

/-- FORWARDED_CLOCK_RETURN: a module that is DOWN for want of its clocks trains, and tells the other side. -/
def execForwardedClockReturn (u m : Nat) (s : State) : Out :=
  if s.modState u m = 9 ∧ (s.mod u m).noClock = true then ok (s.requestTraining u m)
  else ok (s.setMod u m { s.mod u m with noClk := [] })

/-! ### The stages (R264 to R267, R272) -/

/-- Sideband lanes of a side that can carry messages: 0 to 6, and lane 7 on an edge module (R257). -/
def sideLanes (u m : Nat) : List Nat := if u / 16 = 3 ∨ m = 8 then List.range 7 else List.range 8

/-- The sideband lanes that carry the four message lanes: the good ones in order; `none` with fewer than 4 (R257). -/
def sideMap (u m : Nat) (bad : List Nat) : Option (List Nat) :=
  let good := (sideLanes u m).filter (fun l => !bad.contains l)
  let own := (List.range 4).filter (fun l => !bad.contains l)
  let stand := good.filter (fun l => 4 ≤ l)
  let l := (List.range 4).foldl (fun (r : List Nat × List Nat) i =>
    if own.contains i then (r.1 ++ [i], r.2)
    else match r.2 with
      | y :: ys => (r.1 ++ [y], ys)
      | [] => r) ([], stand)
  if l.1.length = 4 then some l.1 else none

/-- What a side advertises at AGREE. -/
def State.advOf (s : State) (u m : Nat) : D2dAdv :=
  let x := s.mod u m
  { rate := x.own, rxBad := s.fusedBad u m 0 ||| x.rxFound, txBad := s.fusedBad u m 1 ||| x.txFound
    rxEpoch := x.rx.epoch, txEpoch := x.tx.epoch }

/-- Entry to the next stage: TEST starts its periods over, and AGREE sends the advertisement, which the other side, in training too, hears. -/
def State.toStage (s : State) (u m st : Nat) : State :=
  let s := s.setMod u m { s.mod u m with again := false }
  let s := if st = 2 then s.setMod u m { s.mod u m with periods := 0, rxFound := 0 } else s
  let s := s.setModState u m st
  if st = 3 then
    let a := s.advOf u m
    let s := s.sendMod u m (.agree a)
    match s.otherSide u m with
    | some (v, n) => if trainingState (s.modState v n) then s.setMod v n { s.mod v n with heard := some a } else s
    | none => s
  else s

/-- A stage that fails is repeated once; then the module is DOWN. -/
def State.stageFails (s : State) (u m : Nat) : State :=
  let x := s.mod u m
  if x.again then (s.raiseMod 0x5002 u m).bothDown u m
  else
    let s := s.toStage u m (s.modState u m)
    s.setMod u m { s.mod u m with again := true }

/-- After an AGREE that stands: HOLD at cold reset, a step, or ALIGN. -/
def State.afterAgree (s : State) (u m : Nat) : State :=
  let x := s.mod u m
  if x.cold then s.toStage u m 4
  else if x.trial < x.goal then
    (s.setMod u m { x with trial := x.trial + 1, rxPrev := x.rx, txPrev := x.tx }).toStage u m 5
  else s.toStage u m 6

/-- The keeper's release (R266, R34): a module in HOLD goes on. -/
def State.releaseHold (s : State) (u m : Nat) : State :=
  if s.modState u m = 4 then (s.setMod u m { s.mod u m with cold := false }).afterAgree u m else s

/-- Both sides of a module go back to TEST: their digests differed once (R272 step 6). -/
def State.retest (s : State) (u m : Nat) : State :=
  let back (s : State) (u m : Nat) : State := (s.setMod u m { s.mod u m with differed := true, heard := none }).toStage u m 2
  let s := back s u m
  match s.otherSide u m with
  | some (v, n) => if trainingState (s.modState v n) then back s v n else s
  | none => s

/-- The maps that a side builds from its own advertisement and the other's: a lane is good where both find it good, and the epoch follows
the larger of the two (R272 step 4). The other side's receive direction is this side's transmit direction. -/
def State.agreedMaps (s : State) (u m : Nat) (a : D2dAdv) : LaneMap × LaneMap :=
  let own := s.advOf u m
  (laneMapOf u m (own.rxBad ||| a.txBad) (nextMapEpoch (Nat.max own.rxEpoch a.txEpoch)),
   laneMapOf u m (own.txBad ||| a.rxBad) (nextMapEpoch (Nat.max own.txEpoch a.rxEpoch)))

/-- The step is given up: the module keeps the rate and the maps it held before, and goes on to ALIGN (R265). -/
def State.stepBack (s : State) (u m : Nat) : State :=
  let x := s.mod u m
  let s := (s.setRx u m x.rxPrev).setTx u m x.txPrev
  let s := s.setMod u m { s.mod u m with trial := x.trial - 1, heard := none }
  let s := (s.ms u m D2D_STATUS.rate (x.trial - 1)).raiseMod 0x5007 u m
  s.toStage u m 6

/-- The end of AGREE, once the other side's advertisement is there: the maps, and the digests sent. The other side's digests, over the
same two advertisements, are equal unless they arrive altered. -/
def State.agreeEnd (s : State) (u m : Nat) (garbled : Bool) : State :=
  let x := s.mod u m
  match x.heard with
  | none => s
  | some a =>
    let maps := s.agreedMaps u m a
    if maps.1.table.isEmpty ∨ maps.2.table.isEmpty then
      if x.trial = 0 then s.bothDown u m else s.stepBack u m
    else
      let s := s.sendMod u m (.digests maps.1.digest maps.2.digest)
      if !garbled then
        let s := (s.setRx u m maps.1).setTx u m maps.2
        let goal := if narrowMod u m then 0 else Nat.min x.own (Nat.min a.rate 2)
        let s := (s.setMod u m { s.mod u m with goal := goal, differed := false, heard := none }).afterAgree u m
        if x.trial = 0 then s.trained u m else s
      else if x.differed then (s.raiseMod 0x5006 u m).bothDown u m
      else s.retest u m

/-- The latency that ALIGN fixes (Table 9-6). -/
def modLat (u m : Nat) : Nat := if narrowMod u m then 4 else if u / 16 = 3 ∨ m = 8 then 2 else 1

/-- Marker periods of a TEST (R264). -/
def testPeriods : Nat := 16

/-- TRAINING_STAGE_END: a TEST ends after its marker periods. -/
def execTrainingStageEnd (u m : Nat) (o : StageObs) (s : State) : Out :=
  let st := s.modState u m
  let x := s.mod u m
  if st = 0 ∨ st = 4 ∨ st ≥ 7 then ok s
  else if !o.ok then ok (s.stageFails u m)
  else if st = 1 then
    (if narrowMod u m then ok (s.toStage u m 2)
     else
       match sideMap u m o.sideBad with
       | some l => ok ((s.setMod u m { x with side := l }).toStage u m 2)
       | none => ok (s.stageFails u m))
  else if st = 2 then
    (if x.periods < testPeriods then ok s
     else ok ((s.setMod u m { x with txFound := laneMask o.loopBad % 2 ^ physLanes u m }).toStage u m 3))
  else if st = 3 then ok (s.agreeEnd u m o.garbled)
  else if st = 5 then ok ((s.ms u m D2D_STATUS.rate x.trial).toStage u m 2)
  else
    let deg : Bool := decide (x.rx.table.length = 512) || decide (x.tx.table.length = 512)
    let s := (s.ms u m D2D_LAT.lat_tk (modLat u m)).ms u m D2D_LAT.fifo_depth o.depth
    ok (s.toStage u m (if deg then 8 else 7))

/-! ### Markers received, repair, degraded width (R261, R270, R271) -/

/-- A marker ends in this tick. -/
def State.markerTick (s : State) : Bool := s.tick % 64 == 63

/-- What one lane's period does in service: the margin, the run of low periods, and the list of lanes that qualify. -/
def laneObs (minM : Nat) (en : Bool) (x : D2dSt) (o : LaneObs) (bad : Bool) : D2dSt :=
  let run := if o.margin < minM then mget x.low o.lane 0 + 1 else 0
  let x := { x with margins := mput x.margins o.lane o.margin, low := mput x.low o.lane run }
  let busy := match x.rxFix with
    | some f => x.rx.table.getD f.x 0 == o.lane
    | none => false
  if en && (bad || decide (run ≥ 8)) && x.rx.table.contains o.lane && !busy && !x.want.contains o.lane then
    { x with want := x.want ++ [o.lane] }
  else x

/-- What one lane's period does in TEST: a lane passes without an errored period and with the margin in every period (R264). -/
def laneTest (minM : Nat) (x : D2dSt) (o : LaneObs) (bad : Bool) : D2dSt :=
  let x := { x with margins := mput x.margins o.lane o.margin }
  if bad || decide (o.margin < minM) then { x with rxFound := x.rxFound ||| 2 ^ o.lane } else x

/-- The lowest of a list of lanes. -/
def lowestLane : List Nat → Option Nat
  | [] => none
  | a :: l => match lowestLane l with
    | none => some a
    | some b => some (Nat.min a b)

/-- The free spares have become few. -/
def State.fewSpares (s : State) (u m : Nat) : State :=
  if s.mg u m D2D_STATUS.spare_free < 8 then s.raiseMod 0x5008 u m (s.mg u m D2D_STATUS.spare_free) else s

/-- The next repair of the receive direction starts at this marker: with a free spare a substitution, else the degraded width; a
narrow module with no spare left is DOWN, and a degraded direction with none goes on as it is. -/
def State.startFix (s : State) (u m : Nat) : State :=
  let x := s.mod u m
  let want := x.want.filter (fun l => x.rx.table.contains l)
  match lowestLane want with
  | none => s.setMod u m { x with want := [] }
  | some l =>
    match (x.rx.spares u m).head? with
    | some y =>
      let lx := x.rx.table.idxOf l
      let e := nextMapEpoch x.rx.epoch
      let s := s.setMod u m { x with
        want := want.filter (fun a => a != l)
        rxFix := some { x := lx, y := y, epoch := e, m := s.tick } }
      let s := (s.ms u m D2D_STATUS.repairing 1).sendMod u m (.repair lx y e)
      s.raiseMod 0x5003 u m l
    | none =>
      if narrowMod u m then s.bothDown u m
      else if x.rx.table.length = 512 then s.setMod u m { x with want := [] }
      else
        let e := nextMapEpoch x.rx.epoch
        let s := s.setMod u m { x with want := want, rxDeg := some (e, s.tick + 128) }
        let s := (s.ms u m D2D_STATUS.repairing 1).sendMod u m (.degrade e)
        s.raiseMod 0x5004 u m

/-- The observations of a marker, of physical lanes; the lanes of an absent clock show nothing. -/
def lanesSeen (u m : Nat) (noClk : List Nat) (obs : List LaneObs) : List LaneObs :=
  (obs.filter (fun o => decide (o.lane < physLanes u m) && !noClk.contains (clockOf o.lane))) ++
  (noClk.flatMap (fun c => (List.range 34).map (fun i => LaneObs.mk (34 * c + i) 0 false 0)))

/-- The period that a marker ends, lane by lane: a lane not listed sent the marker that was expected and kept its margin. -/
def State.takePeriod (s : State) (u m : Nat) (obs : List LaneObs) : State :=
  let st := s.modState u m
  let x := s.mod u m
  let minM := s.mg u m D2D_CTL.margin_min
  let en : Bool := s.mg u m D2D_CTL.repair_en == 1 && decide (st ≥ 7)
  let seen := lanesSeen u m x.noClk obs
  let bad := seen.filter (laneErrored (st == 2) s.tick x)
  let s := s.minc u m D2D_COUNTS.errored bad.length
  let y := seen.foldl (fun y o => if st = 2 then laneTest minM y o (bad.contains o) else laneObs minM en y o (bad.contains o)) x
  s.setMod u m { y with errs := bad.map (·.lane), periods := if st = 2 then y.periods + 1 else y.periods }

/-- ALIGNMENT_MARKER: the period that ended at this marker, and the repair that it lets start. -/
def execAlignmentMarker (u m : Nat) (obs : List LaneObs) (s : State) : Out :=
  let st := s.modState u m
  if !s.markerTick ∨ st < 2 ∨ st = 9 then ok s
  else
    let s := s.takePeriod u m obs
    let x := s.mod u m
    if s.mg u m D2D_CTL.repair_en = 1 ∧ st ≥ 7 ∧ x.rxFix = none ∧ x.rxDeg = none ∧ s.tick ≥ x.nextAt then ok (s.startFix u m) else ok s

/-- The first marker boundary after tick `t`. -/
def markerAfter (t : Nat) : Nat := (t + 1) / 64 * 64 + 63

/-- REPAIR at the transmit side. A second one of the same epoch tells that the first spare failed. -/
def execRepair (u m x y epoch : Nat) (s : State) : Out :=
  let d := s.mod u m
  let st := s.modState u m
  if st ≠ 7 ∧ st ≠ 8 then ok s
  else
    let tx := match d.txFix with
      | some f => if f.epoch = epoch then { d.tx with bad := d.tx.bad ||| 2 ^ f.y } else d.tx
      | none => d.tx
    ok (s.setMod u m { d with tx := tx, txFix := some { x := x, y := y, epoch := epoch, m := markerAfter s.tick } })

/-- A map with one lane moved. -/
def LaneMap.moved (t : LaneMap) (f : LaneFix) : LaneMap := { t with table := t.table.set f.x f.y, epoch := f.epoch }

/-- The receive side at a boundary of its repair: a restart sends its REPAIR; the spare is judged by the marker of this tick; then it is
switched in. A spare that fails is marked bad, and the repair of the same lane starts again with the next one at the following
boundary; with none left the lane waits for the degraded width. -/
def State.rxBoundary (s : State) (u m : Nat) (f : LaneFix) : State :=
  let x := s.mod u m
  if s.tick = f.m ∧ !f.sent then
    (s.setMod u m { x with rxFix := some { f with sent := true } }).sendMod u m (.repair f.x f.y f.epoch)
  else if s.tick = f.m + 128 then
    if !x.errs.contains f.y then s.setMod u m { x with rxFix := some { f with told := true } }
    else
      let rx := { x.rx with bad := x.rx.bad ||| 2 ^ f.y }
      match (rx.spares u m).head? with
      | some y =>
        let s := s.setMod u m { x with rxFix := some { f with y := y, m := f.m + 192, sent := false } }
        (s.setRx u m rx).fewSpares u m
      | none =>
        let s := s.setMod u m { x with rxFix := none, want := x.rx.table.getD f.x 0 :: x.want, nextAt := f.m + 192 }
        ((s.setRx u m rx).ms u m D2D_STATUS.repairing 0).fewSpares u m
  else if s.tick = f.m + 192 ∧ f.told then
    let old := x.rx.table.getD f.x 0
    let rx := x.rx.moved f
    let rx := { rx with bad := rx.bad ||| 2 ^ old }
    let s := s.setMod u m { x with rxFix := none, nextAt := f.m + 256, rxWas := some (x.rx.epoch, f.m + 256) }
    let s := (s.setRx u m rx).minc u m D2D_COUNTS.repairs 1
    let s := (s.ms u m D2D_STATUS.repairing 0).sendMod u m (.ack f.epoch rx.digest)
    s.fewSpares u m
  else s

/-- The transmit side at the boundary that ends its repair: the map of the new epoch is in force, and the old lane is bad (R260, Table 9-7). -/
def State.txBoundary (s : State) (u m : Nat) (f : LaneFix) : State :=
  let x := s.mod u m
  if s.tick = f.m + 192 ∧ f.told then
    let tx := x.tx.moved f
    (s.setMod u m { x with txFix := none }).setTx u m { tx with bad := tx.bad ||| 2 ^ x.tx.table.getD f.x 0 }
  else s

/-- The map of a direction at 512 lanes (R271). -/
def LaneMap.half (u m : Nat) (t : LaneMap) (epoch : Nat) : LaneMap :=
  { t with table := (goodLanes u m t.bad).take 512, epoch := epoch }

/-- The switches to 512 lanes that are due. -/
def State.halve (s : State) (u m : Nat) : State :=
  let x := s.mod u m
  let s := match x.rxDeg with
    | some (e, at_) =>
      if s.tick = at_ then
        let s := s.setMod u m { x with rxDeg := none, nextAt := at_ + 64 }
        ((s.setRx u m (x.rx.half u m e)).ms u m D2D_STATUS.repairing 0).setModState u m 8
      else s
    | none => s
  let x := s.mod u m
  match x.txDeg with
  | some (e, at_) =>
    if s.tick = at_ then
      let s := s.setMod u m { x with txDeg := none }
      (s.setTx u m (x.tx.half u m e)).setModState u m 8
    else s
  | none => s

/-- REPAIR_BOUNDARY. -/
def execRepairBoundary (u m : Nat) (s : State) : Out :=
  let st := s.modState u m
  if st ≠ 7 ∧ st ≠ 8 then ok s
  else
    let s := match (s.mod u m).rxFix with
      | some f => s.rxBoundary u m f
      | none => s
    let s := match (s.mod u m).txFix with
      | some f => s.txBoundary u m f
      | none => s
    ok (s.halve u m)

/-- ACK at the transmit side: with equal digests the map of the new epoch takes effect at the boundary that ends the repair; else the
side sends a training request. -/
def execAck (u m epoch digest : Nat) (s : State) : Out :=
  let x := s.mod u m
  match x.txFix with
  | none => ok s
  | some f =>
    if f.epoch ≠ epoch then ok s
    else
      let tx := x.tx.moved f
      if tx.digest = digest then ok (s.setMod u m { x with txFix := some { f with told := true } })
      else ok (s.requestTraining u m)

/-- DEGRADE at the transmit side: it switches at the second marker boundary after the request. -/
def execDegrade (u m epoch : Nat) (s : State) : Out :=
  let st := s.modState u m
  if st ≠ 7 ∧ st ≠ 8 then ok s
  else ok (s.setMod u m { s.mod u m with txDeg := some (epoch, markerAfter s.tick + 64) })

/-! ### Margin sets (R273) -/

/-- The band of the die that holds a side: its tile's THM_STATUS. No chapter gives the keeper die a sensor: its set stays. -/
def State.bandOf (s : State) (u : Nat) (now : Nat) : Nat :=
  if u / 16 = 1 then s.rg u THM_STATUS.band_tile
  else if u / 16 = 3 then s.rg (uTile (u % 16)) THM_STATUS.band_toe
  else now

/-- The fused sample phase of a lane under a margin set, in 1/64 UI. -/
def State.fusedPhase (s : State) (u m set lane : Nat) : Int := mget s.fuses.phases ((modKey u m * 4 + set) * 2048 + lane) 0

/-- The sample phase of a lane now: on its way, or that of the set in use. -/
def State.phaseOf (s : State) (u m lane : Nat) : Int :=
  mget (s.mod u m).phases lane (s.fusedPhase u m (s.mg u m D2D_STATUS.band) lane)

/-- A phase moved towards another by at most 1/16 UI. -/
def phaseStep (p goal : Int) : Int := if goal - p > 4 then p + 4 else if goal - p < -4 then p - 4 else goal

/-- BAND_SET_STEP: every lane's phase moves towards the set of the band; the drive set is the new one from the first boundary on; when every
lane has arrived, the new set is the one in use. -/
def execBandSetStep (u m : Nat) (s : State) : Out :=
  let now := s.mg u m D2D_STATUS.band
  let b := s.bandOf u now
  let x := s.mod u m
  if !s.markerTick ∨ (b = now ∧ x.phases = []) then ok s
  else
    let l := (List.range (physLanes u m)).map (fun l => (l, phaseStep (s.phaseOf u m l) (s.fusedPhase u m b l)))
    if l.all (fun p => p.2 == s.fusedPhase u m b p.1) then
      ok ((s.setMod u m { x with phases := [], drive := b }).ms u m D2D_STATUS.band b)
    else ok (s.setMod u m { x with phases := l, drive := b })

end Sys2Proof.Machine
end

