-- ==== Sys2Proof/Machine/Elementary.lean ====
section
/-!
DEFINITION. The vector functions EXP, LOG, TANH, SIGMOID, SIN and COS (R104, Table 3-9). Each is computed to 320 fraction bits;
the result is one of the FP32 values within the bound of Table 3-9 of that, which one being open.
-/

namespace Sys2Proof.Machine

/-! ### Fixed point with 320 fraction bits -/

def fxOne : Int := 2 ^ 320

def fxMul (a b : Int) : Int := a * b / fxOne

def fxDiv (a b : Int) : Int := a * fxOne / b

/-- `m * 2^e` for `e` of at least −320. -/
def fxOf (m : Nat) (e : Int) : Int := (m : Int) * 2 ^ (e + 320).toNat

/-- The terms of a power series from the `k`-th on: each is the last one times `x` over `d k`. -/
def fxSeries (x : Int) (d : Nat → Int) : Nat → Nat → Int → Int
  | 0, _, _ => 0
  | n + 1, k, t => t + fxSeries x d n (k + 1) (fxMul t x / d k)

/-- `v` squared `n` times. -/
def fxSquares (v : Int) : Nat → Int
  | 0 => v
  | n + 1 => fxSquares (fxMul v v) n

/-- e to a power from 0 to 200. -/
def fxExp (x : Int) : Int := fxSquares (fxSeries (x / 2 ^ 10) (fun k => (k : Int)) 80 1 fxOne) 10

/-- The odd powers of `z`, each over its exponent: `s` is the square of `z`, or its negative. -/
def fxOdd (s : Int) : Nat → Nat → Int → Int
  | 0, _, _ => 0
  | n + 1, k, p => p / (k : Int) + fxOdd s n (k + 2) (fxMul p s)

/-- The logarithm of a value from 1 to 2. -/
def fxLog (t : Int) : Int :=
  let z := fxDiv (t - fxOne) (t + fxOne)
  2 * fxOdd (fxMul z z) 105 1 z

def fxLn2 : Int := fxLog (2 * fxOne)

/-- The arc tangent of `1 / n`. -/
def fxAtanInv (n fuel : Nat) : Int := fxOdd (-(fxOne / (n * n : Nat))) fuel 1 (fxOne / n)

/-- Twice π, by Machin's formula. -/
def fxTwoPi : Int := 8 * (4 * fxAtanInv 5 75 - fxAtanInv 239 24)

/-- Sine and cosine of a value from 0 to twice π. -/
def fxSin (r : Int) : Int := fxSeries (-(fxMul r r)) (fun k => ((2 * k) * (2 * k + 1) : Nat)) 90 1 r
def fxCos (r : Int) : Int := fxSeries (-(fxMul r r)) (fun k => ((2 * k - 1) * (2 * k) : Nat)) 90 1 fxOne

/-- The result for a computed value, which is never exact. -/
def fxWithin (op w bits : Nat) (neg : Bool) (v : Int) : Nat × Nat := within op w bits neg (2 * v.natAbs + 1) (-321)

/-- A function that is a hair below its operand near 0: for a magnitude below 2^−32. -/
def justBelow (op w bits : Nat) (neg : Bool) (m : Nat) (e : Int) : Nat × Nat := within op w bits neg (m * 2 ^ 64 - 1) (e - 64)

/-- A magnitude, and not more than a whole number. -/
def fxCap (m : Nat) (e : Int) (n : Nat) : Int := min (fxOf m e) (n * fxOne)

/-! ### The functions -/

def expNum (bits : Nat) (a : Num) : Nat × Nat :=
  match a with
  | .nan => (nan32, 0)
  | .inf s => (if s then 0 else infCode fp32 false, 0)
  | .fin s m e =>
    if m = 0 then (one32, 0)
    else fxWithin 2 2 bits false (if s then fxDiv fxOne (fxExp (fxCap m e 200)) else fxExp (fxCap m e 200))

def logNum (bits : Nat) (a : Num) : Nat × Nat :=
  match a with
  | .nan => (nan32, 0)
  | .inf s => if s then (nan32, fInvalid) else (infCode fp32 false, 0)
  | .fin s m e =>
    if m = 0 then (infCode fp32 true, fDivZero)
    else if s then (nan32, fInvalid)
    else if bits = one32 then (0, 0)
    else
      let k : Int := Nat.log2 m
      let v := fxLog (fxOf m (-k)) + (e + k) * fxLn2
      fxWithin 3 2 bits (v < 0) v

def tanhNum (bits : Nat) (a : Num) : Nat × Nat :=
  match a with
  | .nan => (nan32, 0)
  | .inf s => (signed fp32 s one32, 0)
  | .fin s m e =>
    if m = 0 then (signed fp32 s 0, 0)
    else if fxOf m e < 2 ^ 288 then justBelow 4 4 bits s m e
    else
      let v := fxExp (2 * fxCap m e 50)
      fxWithin 4 4 bits s (fxDiv (v - fxOne) (v + fxOne))

def sigmoidNum (bits : Nat) (a : Num) : Nat × Nat :=
  match a with
  | .nan => (nan32, 0)
  | .inf s => (if s then 0 else one32, 0)
  | .fin s m e =>
    if m = 0 then within 5 4 bits false 1 (-1)
    else
      let v := fxExp (fxCap m e (if s then 200 else 100))
      fxWithin 5 4 bits false (fxDiv (if s then fxOne else v) (fxOne + v))

/-- Magnitude above 2^20 (Table 3-9, SIN and COS). -/
def above20 (bits : Nat) : Bool := bits % 2 ^ 31 > 0x49800000

def sinNum (bits : Nat) (a : Num) : Nat × Nat :=
  match a with
  | .nan => (nan32, 0)
  | .inf _ => (nan32, fInvalid)
  | .fin s m e =>
    if above20 bits then (nan32, fInvalid)
    else if m = 0 then (signed fp32 s 0, 0)
    else if fxOf m e < 2 ^ 288 then justBelow 6 4 bits s m e
    else
      let v := fxSin (fxOf m e % fxTwoPi)
      fxWithin 6 4 bits (s != decide (v < 0)) v

def cosNum (bits : Nat) (a : Num) : Nat × Nat :=
  match a with
  | .nan => (nan32, 0)
  | .inf _ => (nan32, fInvalid)
  | .fin _ m e =>
    if above20 bits then (nan32, fInvalid)
    else if m = 0 then (one32, 0)
    else
      let v := fxCos (fxOf m e % fxTwoPi)
      fxWithin 7 4 bits (v < 0) v

end Sys2Proof.Machine
end

