-- ==== Sys2Proof/Machine/Cores.lean ====
section
/-!
DEFINITION. The issue unit, the check and pre-wait of every command, the control ops, completion, core objects, and the steps of
the leave logic (chapter Cores and Engines; core objects: chapter Synchronisation).
-/

namespace Sys2Proof.Machine

/-! ### Check and pre-wait (R91, R92) -/

/-- The ops an engine accepts (R79, R93, R104, R108 to R110). -/
def opKnown (e cls op : Nat) : Bool :=
  if cls = 0 then op ≤ 4 && (op != 2 || e < 5) && (op != 3 || e < 4)
  else if cls ≠ engClass e then false
  else if cls = 1 then op == 1
  else if cls = 2 then
    (1 ≤ op && op ≤ 7) || (0x10 ≤ op && op ≤ 0x18) || (0x20 ≤ op && op ≤ 0x22) || op == 0x30 || op == 0x31 || op == 0x40
  else if cls = 3 then op == 1
  else 1 ≤ op && op ≤ 4

/-- Header checks: class and op accepted, object numbers up to 47, reserved bits 0. -/
def headerOk (e : Nat) (w : CmdWord) : Bool :=
  opKnown e (cmdClass w) (cmdOp w) && cmdPreObj w ≤ 47 && cmdPostObj w ≤ 47 && fieldOf w 98 30 == 0

/-- How far a row for `(cls, op)` brings an engine's head: the state where it stays, or the command that may now execute. -/
inductive Gate
  | stay (s : State)
  | run (s : State) (w : CmdWord)

/-- Check phase, pre-wait, and for a matrix command the leave grant. `chk` gives the status of a rejection. -/
def State.gate (s : State) (k cls op : Nat) (chk : State → CmdWord → Option Nat) : Gate :=
  let e := s.eng k
  if !s.dieUp (keyDie k) ∨ (e.cut ∧ e.phase ≠ .executing) then .stay s
  else
    match e.queue with
    | [] => .stay s
    | w :: _ =>
      let start (s : State) : Gate :=
        if cls = 1 then
          let l := (s.core (engCore k)).leave
          if l = .ramp ∨ l = .full then .run s w
          else .stay ((s.setEng k { s.eng k with phase := .leave }).askLeave (engCore k))
        else .run s w
      if e.phase = .idle then
        if !headerOk (keyEng k) w then .stay (s.rejectHead k 1)
        else if cmdClass w ≠ cls ∨ cmdOp w ≠ op then .stay s
        else
          match chk s w with
          | some st => .stay (s.rejectHead k st)
          | none =>
            if cmdPreEn w then .stay (s.setEng k { e with phase := .preWait, since := s.tick })
            else start s
      else if e.phase = .ready ∨ e.phase = .leave ∨ (e.phase = .executing ∧ cls = 0) then
        (if cmdClass w = cls ∧ cmdOp w = op then start s else .stay s)
      else .stay s

/-- The command has issued its outputs: it waits for completion with these flags and busy cycles. Its record has every flag that it set, one
that an earlier command had already set included (R78; DESIGN CHOICE, log 106). -/
def State.issued (s : State) (k flags busy : Nat) : State :=
  let s := match (s.eng k).queue with
    | w :: _ => s.addFlags k (cmdSeq w) flags
    | [] => s
  s.setEng k { s.eng k with phase := .done, status := 0, flags := flags % 256, busy := busy }

/-- Issued, with cycles of execution the spec gives no figure for. -/
def State.issuedFree (s : State) (k : Nat) : State :=
  let r := s.free
  r.2.issued k 0 r.1

def noCheck (_ : State) (_ : CmdWord) : Option Nat := none

/-! ### The issue unit (R88) -/

/-- May the issue unit fetch for an engine? -/
def Eng.wantsFetch (e : Eng) : Bool :=
  e.fetching && e.queue.length < 16 && e.fetched < e.count && e.phase != .halted && e.phase != .stopped && !e.cut

/-- A fetch that places no command: the stream halts, with a status, and no further command of the engine starts; one that executes
is finished (R88; DEDUCED, log 107). -/
def State.haltStream (s : State) (k status : Nat) : State :=
  (s.setEng k { s.eng k with fetching := false, cut := true }).es k CORE_ENG_STATE.last_status status

def commandFetchEff (c : CoreId) (ecc : EccHits) (s : State) : State :=
  let ck := coreKey c.die c.core
  let rr := (s.core ck).rr
  match ((List.range 8).map (fun i => (rr + i) % 8)).find? (fun e => (s.eng (ck * 8 + e)).wantsFetch) with
  | none => s
  | some e =>
    if !s.dieUp c.die then s
    else
      let k := ck * 8 + e
      let x := s.eng k
      let la := x.base + 64 * x.fetched
      let s := s.setCore ck { s.core ck with rr := (e + 1) % 8 }
      if la + 64 > 0x400000 then
        let s := (s.haltStream k 3).raise 0x9100 (uDie c.die) 0 k ((x.queue.getLast?.map cmdSeq).getD x.lastSeq)
        s.abortCore ck 0x10
      else
      let s := s.coreFixed ck ecc.coreFixed
      match hitsRange ecc.core la 64 with
      | some a =>
        let s := (s.haltStream k 4).rinc (uDie c.die) CORE_ECC.uncorrected 1 (dCore c.core)
        (s.raise 0x4100 (uDie c.die) 0 k a).abortCore ck 0x11
      | none =>
        let w : CmdWord := BitVec.ofNat 512 (s.word (csAt k la) 64)
        let ovr := (cmdClass w == 0 && cmdOp w == 1) || x.fetched + 1 == x.count
        (s.setEng k { x with queue := x.queue ++ [w], fetched := x.fetched + 1, fetching := !ovr }).askLeave ck

/-- COMMAND_FETCH (R88). -/
def execCommandFetch (c : CoreId) (ecc : EccHits) (s : State) : Out := ok (commandFetchEff c ecc s)

/-! ### Control ops (R110) -/

/-- NOP. -/
def execNop (e : EngId) (s : State) : Out :=
  match s.gate (engOf e) 0 0 noCheck with
  | .stay s => ok s
  | .run s _ => ok (s.issuedFree (engOf e))

/-- END: its completion finishes the stream (R89). -/
def execEndStream (e : EngId) (s : State) : Out :=
  match s.gate (engOf e) 0 1 noCheck with
  | .stay s => ok s
  | .run s _ => ok (s.issuedFree (engOf e))

/-- FLAG_CLEAR: in queue order. -/
def execFlagClear (e : EngId) (s : State) : Out :=
  match s.gate (engOf e) 0 2 noCheck with
  | .stay s => ok s
  | .run s w =>
    let k := engOf e
    ok ((s.putFlags k (s.flags k &&& (255 - fieldOf w 128 8))).issuedFree k)

/-- A down request, sampled at the next tick (R389). -/
def State.askDown (s : State) (ck : Nat) (hard : Bool) : State :=
  let c := s.core ck
  match c.downReq with
  | some _ => s.setCore ck { c with downHard := c.downHard || hard }
  | none => s.setCore ck { c with downReq := some (s.tick + 1), downHard := hard }

/-- LEAVE_RELEASE: waits for FULL and for the executing matrix commands; no effect in IDLE, REQ and DOWN. -/
def execLeaveRelease (e : EngId) (s : State) : Out :=
  let k := engOf e
  match s.gate k 0 3 noCheck with
  | .stay s => ok s
  | .run s _ =>
    let ck := engCore k
    let l := (s.core ck).leave
    if l = .idle ∨ l = .req ∨ l = .down then ok (s.issuedFree k)
    else if l = .full ∧ !s.matrixBusy ck then ok ((s.askDown ck true).issuedFree k)
    else ok (s.setEng k { s.eng k with phase := .executing })

/-- TICK_MARK: the tick counter to an LA of core store. -/
def execTickMark (e : EngId) (s : State) : Out :=
  let k := engOf e
  match s.gate k 0 4 (fun _ w => if csRange (fieldOf w 128 24) 8 then none else some 3) with
  | .stay s => ok s
  | .run s w => ok ((s.writeMem (csAt k (fieldOf w 128 24)) (le 8 s.tick)).issuedFree k)

/-! ### Completion (R91, R185, R87) -/

/-- COMMAND_COMPLETE: FENCE.DATA first if the command asks for it, else post-signal and completion record. -/
def execCommandComplete (e : EngId) (s : State) : Out :=
  let k := engOf e
  let x := s.eng k
  match x.queue with
  | [] => ok s
  | w :: _ =>
    if x.phase ≠ .done ∨ !s.dieUp e.die then ok s
    else if cmdPostFence w then ok (s.setEng k { x with phase := .fence })
    else ok (s.endHead k x.status)

/-- Every write that an engine has issued, in this command and in earlier ones, has reached its completion point (R185, Table 6-6):
nothing of it is on the network, and DELIVERED has come for what went to peers. -/
def State.writesDone (s : State) (k : Nat) : Bool :=
  s.net.all (fun r => r.eng != some k) && s.links.all (fun e => e.2.out.all (fun o => o.eng != k))

/-- FENCE_DATA_COMPLETE. -/
def execFenceDataComplete (e : EngId) (s : State) : Out :=
  let k := engOf e
  let x := s.eng k
  if x.phase = .fence ∧ s.writesDone k ∧ s.dieUp e.die then ok (s.endHead k x.status) else ok s

/-! ### Core objects (R179, R180) -/

def State.objAdd (s : State) (ck : Nat) (sig : Nat × Nat × Nat) : State :=
  let u := uDie (ck / 64)
  let d := dObj (ck % 64) sig.2.1
  let v := s.rg u SYN_COBJ.value d + sig.2.2
  let s := (s.rs u SYN_COBJ.value (min v 65535) d).rs u SYN_COBJ.last_engine sig.1 d
  let s := (s.rs u SYN_COBJ.last_valid 1 d).rs u SYN_COBJ.last_tick s.tick d
  if v > 65535 then
    ((s.rinc u SYN_COBJ.overflow 1 d).raise 0x3001 u sig.2.1 (ck * 8 + sig.1)).rinc (uTile (ck / 64)) SYN_COUNTS.overflows 1
  else s

/-- The head commands of a core's engines that wait with or without taking: engine, object, threshold, registration. -/
def State.coreWaits (s : State) (ck : Nat) (take : Bool) : List (Nat × Nat × Nat × Nat) :=
  (coreEngs ck).filterMap (fun k =>
    let e := s.eng k
    match e.queue with
    | w :: _ => if e.phase = .preWait ∧ cmdPreTake w = take then some (k, cmdPreObj w, cmdPreThr w, e.since) else none
    | [] => none)

/-- Consuming waiters of one object, in order of registration, then of waiter ID (R180). -/
def takeOrder (l : List (Nat × Nat × Nat × Nat)) : List (Nat × Nat × Nat × Nat) :=
  l.foldr (fun x acc =>
    let lt (a b : Nat × Nat × Nat × Nat) : Bool := a.2.2.2 < b.2.2.2 || (a.2.2.2 == b.2.2.2 && a.1 ≤ b.1)
    acc.takeWhile (fun y => lt y x && !lt x y) ++ x :: acc.dropWhile (fun y => lt y x && !lt x y)) []

/-- Release takers of object `i` from the head of their queue, as far as the value reaches. -/
def State.releaseTakes (s : State) (ck i : Nat) : List (Nat × Nat × Nat × Nat) → State
  | [] => s
  | x :: rest =>
    let u := uDie (ck / 64)
    let d := dObj (ck % 64) i
    let v := s.rg u SYN_COBJ.value d
    if x.2.2.1 ≤ v then
      ((s.rs u SYN_COBJ.value (v - x.2.2.1) d).setEng x.1 { s.eng x.1 with phase := .ready }).releaseTakes ck i rest
    else s

def coreObjectSettleEff (ck : Nat) (s : State) : State :=
  let sigs := (s.core ck).sigs
  let s := s.each sigs (fun s x => s.objAdd ck x)
  let s := s.setCore ck { s.core ck with sigs := [] }
  let s := s.each (s.coreWaits ck false) (fun s x =>
    if x.2.2.1 ≤ s.rg (uDie (ck / 64)) SYN_COBJ.value (dObj (ck % 64) x.2.1) then
      s.setEng x.1 { s.eng x.1 with phase := .ready }
    else s)
  s.each (List.range 48) (fun s i =>
    s.releaseTakes ck i (takeOrder ((s.coreWaits ck true).filter (fun x => x.2.1 == i))))

/-- CORE_OBJECT_SETTLE: signals, then WAIT, then WAIT_TAKE (R179). -/
def execCoreObjectSettle (c : CoreId) (s : State) : Out :=
  s.inTurn (.coreObjectSettle c) (fun s => if s.dieUp c.die then ok (coreObjectSettleEff (coreKey c.die c.core) s) else ok s)

/-! ### The steps of the leave logic (R101, R102) -/

/-- RAMP_STEP: level j in step j; FULL at the end of step 8. -/
def execRampStep (c : CoreId) (s : State) : Out :=
  let ck := coreKey c.die c.core
  let x := s.core ck
  if x.leave = .ramp ∧ s.tick ≥ x.stepAt + 25 * x.level ∧ s.dieUp c.die then
    if x.level < 8 then ok (s.setCore ck { x with level := x.level + 1 })
    else
      let s := s.setCore ck { x with leave := .full, level := 8 }
      ok (if x.inReset then s.askDown ck true else s)
  else ok s

/-- IDLE_RELEASE: `cycles` without a matrix command at any head, at least the release count (0 counts as 1). -/
def execIdleRelease (c : CoreId) (cycles : Nat) (s : State) : Out :=
  let ck := coreKey c.die c.core
  let busy := (List.range 4).any (fun m =>
    match (s.eng (ck * 8 + m)).queue with
    | w :: _ => cmdClass w == 1
    | [] => false)
  let need := max 1 (s.rg (uDie c.die) CORE_LEAVE.idle_release (dCore c.core))
  if (s.core ck).leave = .full ∧ !busy ∧ cycles ≥ need ∧ s.dieUp c.die then ok (s.askDown ck false) else ok s

/-- FALL_STEP: the level falls every 25 tk from the start of the fall (R102); IDLE 200 tk after it began. A core in reset leaves it with
its fall (R484). -/
def execFallStep (c : CoreId) (s : State) : Out :=
  let ck := coreKey c.die c.core
  let x := s.core ck
  if x.leave ≠ .down ∨ !x.falling then ok s
  else if s.tick < x.stepAt + 25 * (9 - x.level) then ok s
  else if x.level > 1 then ok (s.setCore ck { x with level := x.level - 1 })
  else ok ((s.setCore ck { x with leave := .idle, level := 0, falling := false, inReset := false }).askLeave ck)

end Sys2Proof.Machine
end

