-- ==== Sys2Proof/Machine/Sync.lean ====
section
/-!
DEFINITION. Span operations: the sync unit's commands, the settle of a hub, timeouts, retries and the debug snapshot
(chapter Synchronisation).
-/

namespace Sys2Proof.Machine

/-! ### Issue by a sync unit (R109, R182, R183) -/

def syncObj (w : CmdWord) : Nat := fieldOf w 128 32
def syncVal (w : CmdWord) : Nat := fieldOf w 160 16
def syncTo (w : CmdWord) : Nat := fieldOf w 176 8
def syncDesc (w : CmdWord) : Nat := fieldOf w 184 24

/-- Reserved bits and timeout code of a sync command (R109, R187). -/
def syncCheck (arrive : Bool) (w : CmdWord) : Option Nat :=
  if fieldOf w 208 304 ≠ 0 ∨ !timeoutOk (syncTo w) ∨ (!arrive ∧ syncDesc w ≠ 0) then some 1 else none

/-- Refusal of a sync unit's operation before its command has completed (R183): event 0x3020, then as a rejection. -/
def State.refuseSync (s : State) (k tile obj : Nat) : State :=
  let seq := match (s.eng k).queue with
    | w :: _ => cmdSeq w
    | [] => 0
  (s.raise 0x3020 (uTile tile) obj k seq).rejectHead k 1

/-- A sync unit issues an operation: the issuing hub's checks, then the posting (R183). -/
def State.issueSpan (s : State) (k : Nat) (w : CmdWord) (kind : SpanKind) (crc : Nat) : State :=
  let tile := keyDie k
  match s.coreCtx (engCore k) with
  | none => s.refuseSync k tile (syncObj w)
  | some c =>
    let r := s.resolve tile c (syncObj w)
    let barrier := spanBarrier r.1
    if r.2 = .bad ∨ barrier ≠ decide (kind = .arrive) then s.refuseSync k tile (syncObj w)
    else
      let op : SpanOp :=
        { kind := kind, obj := r.1, value := syncVal w, waiter := k, unit := uDie tile, ctx := c, reg := s.tick, expire := 0
          crc := crc, seq := cmdSeq w }
      let s := s.sendSpan r.2 op (syncTo w) (s.ctx c).plan.planId
      if kind = .signal then s.issuedFree k
      else s.setEng k { s.eng k with phase := .span }

/-- SIGNAL: posted, it ends at issue (R178). -/
def execSignal (c : CoreId) (s : State) : Out :=
  match s.gate (syncOf c) 4 1 (fun _ w => syncCheck false w) with
  | .stay s => ok s
  | .run s w => ok (s.issueSpan (syncOf c) w .signal 0)

/-- WAIT. -/
def execWait (c : CoreId) (s : State) : Out :=
  match s.gate (syncOf c) 4 2 (fun _ w => syncCheck false w) with
  | .stay s => ok s
  | .run s w => ok (s.issueSpan (syncOf c) w .wait 0)

/-- WAIT_TAKE. -/
def execWaitTake (c : CoreId) (s : State) : Out :=
  match s.gate (syncOf c) 4 3 (fun _ w => syncCheck false w) with
  | .stay s => ok s
  | .run s w => ok (s.issueSpan (syncOf c) w .take 0)

/-- The copy of the descriptor that a BARRIER_ARRIVE names. -/
def State.barrierDescAt (s : State) (k la : Nat) : Nat := s.word (csAt k la) 64

/-- Does a descriptor copy select the issuing core (R192)? An ID that leads nowhere is the issuing hub's to refuse (R183). -/
def State.descSelects (s : State) (k d obj : Nat) : Bool :=
  let r := match s.coreCtx (engCore k) with
    | some c => s.resolve (keyDie k) c obj
    | none => (obj, .bad)
  bitsOf (descCore d) (keyCore k) 1 == 1 && bitsOf (descDie d) (keyDie k) 1 == 1 &&
  (if descPkg d = 0 then
    (match r.2 with
     | .here _ _ => true
     | .peer _ _ => false
     | .bad => true)
   else
    bitsOf (descPkg d) s.light.pkg 1 == 1 &&
    (match r.2 with
     | .here _ _ => true
     | .peer pod _ => pod == s.light.pod
     | .bad => true))

/-- Checks of BARRIER_ARRIVE: its LA, its copy's reserved bits, and that it selects the issuer. -/
def arriveCheck (k : Nat) (s : State) (w : CmdWord) : Option Nat :=
  match syncCheck true w with
  | some st => some st
  | none =>
    if !csRange (syncDesc w) 64 then some 3
    else
      let d := s.barrierDescAt k (syncDesc w)
      if !descReserved d ∨ !s.descSelects k d (syncObj w) then some 1 else none

/-- BARRIER_ARRIVE; an uncorrectable word of the copy is a data error (R83). -/
def execBarrierArrive (c : CoreId) (ecc : EccHits) (s : State) : Out :=
  let k := syncOf c
  let head := match (s.eng k).queue with
    | w :: _ => if cmdClass w = 4 ∧ cmdOp w = 4 ∧ (s.eng k).phase = .idle ∧ s.dieUp c.die then hitsRange ecc.core (syncDesc w) 64 else none
    | [] => none
  match head with
  | some a => ok (s.dataError k a)
  | none =>
    match s.gate k 4 4 (arriveCheck k) with
    | .stay s => ok s
    | .run s w =>
      ok ((s.coreFixed (engCore k) ecc.coreFixed).issueSpan k w .arrive (descCrc (s.barrierDescAt k (syncDesc w))))

/-! ### The settle of a hub (R179, R180, R193) -/

/-- The context that an operation acts for at its home hub: a peer's by plan_id (R177). -/
def State.opCtx (s : State) (op : SpanOp) : Option Nat :=
  match op.plan with
  | none => some op.ctx
  | some p => allCtx.find? (fun c => s.cstate c != cFree && (s.ctx c).plan.planId == p)

/-- May the operation use its object here (R177)? -/
def State.opHeld (s : State) (t : Nat) (op : SpanOp) : Bool :=
  match s.opCtx op, (s.obj t (spanKey op.obj)).held with
  | some c, some h => c == h
  | _, _ => false

/-- Outcome codes of a SYNC_RESULT (Table 12-2). -/
def rReleased : Nat := 0
def rTimedOut : Nat := 1
def rRefused : Nat := 2

def watchReply (tile n : Nat) : List Byte := le 1 tile ++ le 1 n

/-- The settle's answer to a request of the host. -/
def State.answerHost (s : State) (op : SpanOp) (code tile : Nat) : State :=
  match op.hdr with
  | none => s
  | some h =>
    if op.kind = .watch then s.reply h 0x30 0x31 code (if code = 0 then watchReply tile (op.waiter % 64) else watchReply 0 0)
    else s.genReply h 0x33 code

/-- A refusal at the home hub (R183): a peer's is returned over its link, a posted SIGNAL of a sync unit or of a barrier's release aborts
its context, an engine's wait is rejected; one of the service or of the host is returned to it alone. -/
def State.refuseHome (s : State) (t : Nat) (op : SpanOp) : State :=
  let s := s.raise 0x3020 (uTile t) op.obj op.waiter (if op.kind = .signal then op.seq else 0)
  if waiterIsPeer op.waiter then s.sendLink (waiterLink op.waiter) 0x21 [op.origin, op.obj, rRefused, s.tick]
  else if waiterIsEngine op.waiter then
    (if op.kind = .signal then s.abortCtx op.ctx 0x10
     else if (s.eng op.waiter).phase = .span then s.rejectHead op.waiter 1 else s)
  else if waiterIsHost op.waiter then s.answerHost op 3 t
  else if op.kind = .take then s.servDone (waiterTile op.waiter) false
  else if op.waiter % 4 = 3 then s.abortCtx op.ctx 0x10
  else s

/-- Step 1: a SIGNAL of the tick (R178). -/
def State.applySignal (s : State) (t : Nat) (op : SpanOp) : State :=
  let k := spanKey op.obj
  if !s.opHeld t op then s.refuseHome t op
  else
    let o := s.obj t k
    let v := o.value + op.value
    let s := s.setObj t k { o with
      value := min v 65535, overflow := o.overflow || decide (v > 65535)
      lastUnit := op.unit, lastSig := op.waiter, lastTick := s.tick }
    let s := s.answerHost op 0 t
    if v > 65535 then (s.raise 0x3001 (uTile t) op.obj op.waiter).rinc (uTile t) SYN_COUNTS.overflows 1 else s

/-- Step 2: registration of a waiter, watch or arrival (R177, R184, R192). -/
def State.register (s : State) (t : Nat) (op : SpanOp) : State :=
  let k := spanKey op.obj
  let o := s.obj t k
  if !s.opHeld t op then s.refuseHome t op
  else if op.kind = .arrive ∧ (op.crc ≠ o.crc ∨ op.waiter ∈ o.arrived) then s.refuseHome t op
  else if !waiterIsHost op.waiter ∧ (s.hub t).entries ≥ 960 then
    (s.raise 0x3030 (uTile t) op.obj op.waiter).setHub t { s.hub t with retry := (s.hub t).retry ++ [op] }
  else if op.kind = .watch then
    match (s.hub t).freeWatch with
    | none => s.answerHost op 4 t
    | some n =>
      let op := { op with waiter := waiterHost n }
      (s.setHub t { s.hub t with waiters := (s.hub t).waiters ++ [{ op with reg := s.tick, hdr := none }] }).answerHost op 0 t
  else
    let s := s.setHub t { s.hub t with waiters := (s.hub t).waiters ++ [{ op with reg := s.tick, ctx := (s.opCtx op).getD op.ctx }] }
    if op.kind = .arrive then s.setObj t k { o with arrived := o.arrived ++ [op.waiter] } else s

/-- A waiter is released: its engine's command issues its end, a peer or the service hears of it. -/
def State.releaseWaiter (s : State) (op : SpanOp) : State :=
  if waiterIsPeer op.waiter then
    (if op.kind = .arrive then s else s.sendLink (waiterLink op.waiter) 0x21 [op.origin, op.obj, rReleased, s.tick])
  else if waiterIsService op.waiter then s.servDone (waiterTile op.waiter) true
  else if waiterIsEngine op.waiter ∧ (s.eng op.waiter).phase = .span then s.issuedFree op.waiter
  else s

/-- Re-alignment of a counter, clamped at 0 (R193). -/
def State.realign (s : State) (t id amt : Nat) : State :=
  let k := spanKey id
  let o := s.obj t k
  if o.value < amt then
    (s.setObj t k { o with value := 0, underflow := true }).raise 0x3002 (uTile t) id
  else s.setObj t k { o with value := o.value - amt }

/-- Peer members of a released barrier: a BARRIER_REL per link they arrived on, naming the slot as they did (Table 12-2). -/
def State.releasePeers (s : State) (ops : List SpanOp) (gen mask : Nat) : State :=
  let ls := (ops.filter (fun w => waiterIsPeer w.waiter)).map (fun w => (waiterLink w.waiter, w.obj))
  s.each ls.eraseDups (fun s x => s.sendLink x.1 0x22 [x.2, gen, mask])

/-- Step 3 for one slot: release when every member has arrived (R193). -/
def State.releaseBarrier (s : State) (t k : Nat) : State :=
  let o := s.obj t k
  if o.held = none ∨ o.arrived.length ≠ descCount o.desc ∨ descCount o.desc = 0 then s
  else
    let members := (s.hub t).waiters.filter (fun w => w.kind == .arrive && spanKey w.obj == k)
    let s := s.setHub t { s.hub t with waiters := (s.hub t).waiters.filter (fun w => !(w.kind == .arrive && spanKey w.obj == k)) }
    let s := s.setObj t k { o with arrived := [], gen := (o.gen + 1) % 2 ^ 16, released := o.released + 1 }
    let s := s.each members State.releaseWaiter
    let s := s.releasePeers members ((o.gen + 1) % 2 ^ 16) (descCore o.desc)
    let s := if descAmt o.desc = 0 then s else (s.realign t (descA o.desc) (descAmt o.desc)).realign t (descB o.desc) (descAmt o.desc)
    let s := match o.held with
      | some c =>
        if descRelEn o.desc then
          let r := s.resolve t c (descRelObj o.desc)
          let op : SpanOp :=
            { kind := .signal, obj := r.1, value := 1, waiter := waiterHub t, unit := uTile t, ctx := c, reg := s.tick, expire := 0 }
          if r.2 = .bad ∨ spanBarrier r.1 then
            (s.raise 0x3020 (uTile t) (descRelObj o.desc) op.waiter).abortCtx c 0x10
          else s.sendSpan r.2 op 0 (s.ctx c).plan.planId
        else s
      | none => s
    s

/-- Step 4 for one counter: every WAIT that is met, then the takers from the head of their queue (R179, R180). -/
def takersFirst (a b : SpanOp) : Bool := a.reg < b.reg || (a.reg == b.reg && a.waiter < b.waiter)

/-- Waiters in release order. -/
def orderOps (l : List SpanOp) : List SpanOp :=
  l.foldr (fun x acc => acc.takeWhile (fun y => takersFirst y x) ++ x :: acc.dropWhile (fun y => takersFirst y x)) []

/-- How many takers the value releases, and what is left. -/
def takeRun : Nat → List SpanOp → List SpanOp × Nat
  | v, [] => ([], v)
  | v, w :: ws => if w.value ≤ v then let r := takeRun (v - w.value) ws; (w :: r.1, r.2) else ([], v)

def State.releaseCounter (s : State) (t k : Nat) : State :=
  let o := s.obj t k
  let mine := (s.hub t).waiters.filter (fun w => spanKey w.obj == k)
  let waits := mine.filter (fun w => w.kind == .wait && w.value ≤ o.value)
  let takes := takeRun o.value (orderOps (mine.filter (fun w => w.kind == .take)))
  let gone := waits ++ takes.1
  let s := s.setHub t { s.hub t with waiters := (s.hub t).waiters.filter (fun w => w ∉ gone) }
  let s := if takes.1.isEmpty then s else s.setObj t k { o with value := takes.2 }
  s.each gone State.releaseWaiter

/-- Step 5: host watches against the values left; a barrier watch is met by a release of this settle. -/
def State.runWatches (s : State) (t : Nat) (released : List Nat) : State :=
  let met := (s.hub t).waiters.filter (fun w => w.kind == .watch &&
    (if spanBarrier w.obj then released.contains (spanKey w.obj) else w.value ≤ (s.obj t (spanKey w.obj)).value))
  let s := s.setHub t { s.hub t with waiters := (s.hub t).waiters.filter (fun w => w ∉ met) }
  s.each met (fun s w =>
    let o := s.obj t (spanKey w.obj)
    s.watchNote t w 0 o.value (if spanBarrier w.obj then (o.gen + 2 ^ 16 - 1) % 2 ^ 16 else 0))

/-- The snapshot that a write of SYN_DBG_SEL asks for (R202). -/
def State.takeSnap (s : State) (t : Nat) : State :=
  if !(s.hub t).snap then s
  else
    let u := uTile t
    let k := s.rg u SYN_DBG_SEL.index + (if s.rg u SYN_DBG_SEL.barrier = 1 then 4096 else 0)
    let o := s.obj t k
    let ws := (s.hub t).waiters.filter (fun w => spanKey w.obj == k)
    let order := orderOps (ws.filter (fun w => w.kind == .take)) ++ ws.filter (fun w => w.kind != .take)
    let s := s.rs u SYN_DBG_SEL.snap_tick s.tick
    let s := (s.rs u SYN_DBG_OBJ.value (if k ≥ 4096 then o.arrived.length else o.value)).rs u SYN_DBG_OBJ.overflow (flagIf o.overflow 1)
    let s := (s.rs u SYN_DBG_OBJ.underflow (flagIf o.underflow 1)).rs u SYN_DBG_OBJ.held (flagIf o.held.isSome 1)
    let s := (s.rs u SYN_DBG_OBJ.ctx (o.held.getD 0)).rs u SYN_DBG_OBJ.nwait ws.length
    let s := s.rs u SYN_DBG_OBJ.generation (if k ≥ 4096 then o.gen else 0)
    let s := ((s.rs u SYN_DBG_LAST.unit o.lastUnit).rs u SYN_DBG_LAST.signaller o.lastSig).rs u SYN_DBG_LAST.tick_lo o.lastTick
    let s := match order[s.rg u SYN_DBG_SEL.widx]? with
      | some w =>
        (((s.rs u SYN_DBG_WAITER.waiter w.waiter).rs u SYN_DBG_WAITER.take (flagIf (w.kind == SpanKind.take) 1)).rs u
          SYN_DBG_WAITER.valid 1).rs u SYN_DBG_WAITER.threshold w.value |>.rs u SYN_DBG_WAITER.reg_tick w.reg
      | none =>
        (((s.rs u SYN_DBG_WAITER.waiter 0).rs u SYN_DBG_WAITER.take 0).rs u SYN_DBG_WAITER.valid 0).rs u
          SYN_DBG_WAITER.threshold 0 |>.rs u SYN_DBG_WAITER.reg_tick 0
    s.setHub t { s.hub t with snap := false }

/-- The steps 1 to 5 of a settle, in order. -/
def settleEff (t : Nat) (s : State) : State :=
  let inbox := (s.hub t).inbox
  let s := s.setHub t { s.hub t with inbox := [] }
  let s := s.each (inbox.filter (fun w => w.kind == .signal)) (fun s op => s.applySignal t op)
  let s := s.each (inbox.filter (fun w => w.kind != .signal)) (fun s op => s.register t op)
  let slots := ((s.hub t).objs.filter (fun e => e.1 ≥ 4096)).map (·.1)
  let gens := slots.map (fun k => (k, (s.obj t k).gen))
  let s := s.each slots (fun s k => s.releaseBarrier t k)
  let released := (gens.filter (fun g => (s.obj t g.1).gen != g.2)).map (·.1)
  let counters := ((s.hub t).waiters.filter (fun w => !spanBarrier w.obj)).map (fun w => spanKey w.obj)
  let s := s.each counters.eraseDups (fun s k => s.releaseCounter t k)
  (s.runWatches t released).takeSnap t

/-- SETTLE of a hub, at the end of the tick (R179). -/
def execSettle (tile : Nat) (s : State) : Out :=
  s.inTurn (.settle tile) (fun s => if s.tileUp tile then ok (settleEff tile s) else ok s)

/-! ### Timeouts and retries (R184, R188) -/

/-- A waiter of a hub times out: event, log, and what its party learns. -/
def State.timeoutSpan (s : State) (t : Nat) (w : SpanOp) : State :=
  let k := spanKey w.obj
  let v := if k ≥ 4096 then (s.obj t k).arrived.length else (s.obj t k).value
  let code := match w.kind with
    | .arrive => 0x3012
    | .watch => 0x3013
    | _ => 0x3011
  let s := s.raise code (uTile t) w.obj w.waiter
  let s := (s.toLog t v w.value w.waiter).rinc (uTile t) SYN_COUNTS.timeouts 1
  let s := s.setHub t ((s.hub t).withdraw (fun x => x == w))
  if waiterIsHost w.waiter then s.watchNote t w 1 v 0
  else if waiterIsPeer w.waiter then s.sendLink (waiterLink w.waiter) 0x21 [w.origin, w.obj, rTimedOut, s.tick]
  else if waiterIsService w.waiter then (s.servDone (waiterTile w.waiter) false).servWait (waiterTile w.waiter)
  else if waiterIsEngine w.waiter then (s.endHead w.waiter 6).abortCtx w.ctx 0x13
  else s

/-- A timeout of a waiter: `obj` is the span ID, or the core object of an engine's pre-wait. A timeout of a waiter that is gone
has no effect (R445). -/
def waiterTimeoutEff (tile waiter obj : Nat) (s : State) : Out :=
  match ((s.hub tile).waiters ++ (s.hub tile).retry).find? (fun w => w.waiter == waiter && w.obj == obj) with
  | some w => if s.tileUp tile ∧ s.tick ≥ w.expire then ok (s.timeoutSpan tile w) else ok s
  | none =>
    let e := s.eng waiter
    match e.queue with
    | [] => ok s
    | w :: _ =>
      if waiterIsEngine waiter ∧ keyDie waiter = tile ∧ s.dieUp tile ∧ e.phase = .preWait ∧ cmdPreObj w = obj ∧
          s.tick ≥ e.since + s.rg (uTile tile) SYN_CORE_TIMEOUT.core_tk then
        let v := s.rg (uDie tile) SYN_COBJ.value (dObj (keyCore waiter) obj)
        let s := s.endHead waiter 6
        let s := s.raise 0x3010 (uDie tile) obj waiter
        let s := (s.toLog tile v (cmdPreThr w) waiter).rinc (uTile tile) SYN_COUNTS.timeouts 1
        ok (s.abortCore (engCore waiter) 0x13)
      else ok s

/-- The settle of a tick takes what has come to the hub, and to the core of an engine that waits. -/
def State.settled (s : State) (tile waiter : Nat) : State :=
  let s := if (s.hub tile).inbox.isEmpty ∨ !s.tileUp tile then s else settleEff tile s
  if waiterIsEngine waiter ∧ !(s.core (engCore waiter)).sigs.isEmpty ∧ s.dieUp (keyDie waiter) then coreObjectSettleEff (engCore waiter) s
  else s

/-- WAITER_TIMEOUT, after the settle of its tick (R179 step 6). -/
def execWaiterTimeout (tile waiter obj : Nat) (s : State) : Out :=
  s.inTurn (.waiterTimeout tile waiter obj) (fun s => waiterTimeoutEff tile waiter obj (s.settled tile waiter))

/-- WAITER_RETRY: an operation that found the table full is issued again, every 16 tk from its first attempt. -/
def execWaiterRetry (tile : Nat) (s : State) : Out :=
  if s.tileUp tile then
    let due := (s.hub tile).retry.filter (fun w => s.tick > w.reg && (s.tick - w.reg) % 16 == 0)
    ok (s.setHub tile { s.hub tile with
      retry := (s.hub tile).retry.filter (fun w => w ∉ due), inbox := (s.hub tile).inbox ++ due })
  else ok s

/-- The effect of a write to SYN_DBG_SEL: a snapshot at the settle of the tick. -/
def dbgSelWrite (tile v : Nat) (s : State) : State :=
  let u := uTile tile
  let s := ((s.rs u SYN_DBG_SEL.index (bitsOf v 0 11)).rs u SYN_DBG_SEL.barrier (bitsOf v 11 1)).rs u SYN_DBG_SEL.widx (bitsOf v 12 10)
  s.setHub tile { s.hub tile with snap := true }

/-- SYN_DBG_SEL_WRITE. -/
def execSynDbgSelWrite (tile : Nat) (v : Word) (s : State) : Out :=
  ok (if s.tileUp tile then dbgSelWrite tile v.toNat s else s)

end Sys2Proof.Machine
end

