-- ==== Sys2Proof/Machine/Serving.lean ====
section
/-!
DEFINITION. Token serving: opening, requests, the window procedure, sampling, streaming (chapter Token Serving Service).
-/

namespace Sys2Proof.Machine

/-! ### Opening (R236) -/

/-- The serving header at a VA of a context (Table 8-1): its fixed part, then one word a slot. -/
def State.blockBytes (s : State) (c va n : Nat) : Option (List Byte) :=
  s.readVa (s.ctxRoot c).1 (s.ctxRoot c).2 (n / 65536 + 2) va n

def at4 (l : List Byte) (i n : Nat) : Nat := unle ((l.drop i).take n)

/-- The instance that a header describes. -/
def servOf (ctx va : Nat) (h : List Byte) : Serv :=
  { isOpen := true, ctx := ctx, block := va, b := at4 h 6 1, c := at4 h 8 2, q := at4 h 0xA 2, vocab := at4 h 0xC 4
    cand := at4 h 0x18 4, tok := at4 h 0x1C 4, window := at4 h 0x20 2, inOff := at4 h 0x24 4, preOff := at4 h 0x28 4
    candOff := at4 h 0x2C 4
    slots := (List.range (at4 h 6 1)).map (fun i => (at4 h (0x40 + 4 * i) 3, at4 h (0x43 + 4 * i) 1)) }

/-- Ranges and reserved fields of Table 8-1. -/
def headerRanges (h : List Byte) (v : Serv) : Bool :=
  1 ≤ v.b && v.b ≤ 64 && 1 ≤ v.c && v.c ≤ 256 && v.q ≤ 1024 && 1 ≤ v.vocab && v.vocab ≤ 2 ^ 24 &&
  at4 h 7 1 == 0 && at4 h 0x22 2 == 0 && at4 h 0x30 16 == 0 &&
  v.slots.all (fun x => 1 ≤ x.1 && x.1 ≤ 1048576 && x.2 ≤ 1)

/-- The block is in a region of the context with read and write set, in the base store of the tile (R236). -/
def State.blockOk (s : State) (c t va : Nat) : Bool :=
  (s.ctx c).plan.regions.any (fun r => r.va ≤ va && va < r.va + r.length && r.read && r.write) &&
  (match s.walkCtx [] c va with
   | .page p =>
     let pa := p.pa + (va - p.va)
     !paIsHbm pa && paTile pa == t
   | _ => false)

/-- The code of SRV_OPEN_REPLY. -/
def State.openCode (s : State) (c t va : Nat) : Nat × Serv :=
  if c ≥ 64 ∨ s.cstate c ≠ cRunning then (1, {})
  else
    match s.blockBytes c va 0x140 with
    | none => (3, {})
    | some h =>
      let v := servOf c va h
      if !s.tileUp t ∨ !s.blockOk c t va then (3, v)
      else if at4 h 0x10 8 ≠ (s.ctx c).plan.planId then (2, v)
      else if at4 h 0 4 ≠ 0x5652534B ∨ at4 h 4 2 ≠ 1 ∨ !headerRanges h v then (3, v)
      else if (s.srvCtx t).isSome then (4, v)
      else if (List.range s.nTiles).any (fun x => s.srvCtx x == some c) then (5, v)
      else (0, v)

def srvOpenEff (h : EcpHdr) (ctx tile va : Nat) (s : State) : State :=
  let r := s.openCode ctx tile va
  let s := if r.1 = 0 then
      let s := s.setServ tile { r.2 with done := (s.serv tile).done, lastE := mget s.energy.acct ctx 0 }
      (s.each [SRV_STATUS.stray, SRV_LATE.steps, SRV_LATE.max_tk] (fun s f => s.rs (uTile tile) f 0)).servWait tile
    else s
  s.reply h 0x40 0x41 r.1 (le 1 tile ++ le 1 r.1)

/-- SRV_OPEN. -/
def execSrvOpen (h : EcpHdr) (ctx tile blockVa : Nat) (s : State) : Out :=
  ok (s.ecpIn h 0x40 false (le 1 ctx ++ le 1 tile ++ rsvBytes h 0 6 ++ le 8 blockVa) (srvOpenEff h ctx tile blockVa))

/-- SRV_CLOSE: at the next window. -/
def srvCloseEff (tile : Nat) (s : State) : State :=
  if (s.srvCtx tile).isSome then s.setServ tile { s.serv tile with closing := true } else s

def execSrvClose (h : EcpHdr) (tile : Nat) (s : State) : Out :=
  ok (s.ecpIn h 0x42 false (le 1 tile) (srvCloseEff tile))

/-! ### Requests (R252) -/

/-- Parameters out of range (Table 8-6). -/
def badParams (v : Serv) (h : EcpHdr) (r : SrvFrag) : Bool :=
  r.flags / 2 != 0 || r.mode > 2 || r.nStop > 8 || r.temp ≥ 0x7F800000 && r.temp != 0x80000000 ||
  r.topP == 0 || r.topP > 0x3F800000 || r.topK == 0 || r.topK > v.c || r.chunk == 0 || r.chunk > 32 || r.maxNew == 0 ||
  r.len == 0 || bitsOf h.bodyRsv 0 32 != 0

def requestOf (r : SrvFrag) (now : Nat) : SrvRequest :=
  { reqId := r.reqId, mode := r.mode, stops := r.stops.take r.nStop, seed := r.seed, temp := r.temp, topP := r.topP, topK := r.topK
    chunk := r.chunk, maxNew := r.maxNew, len := r.len, prompt := r.tokens, at_ := now }

def Serv.inUse (v : Serv) (id : Nat) : Bool := v.queue.any (fun x => x.reqId == id) || v.active.any (fun x => x.2.reqId == id)

/-- The request with a fragment's tokens, or the code that refuses it. -/
def Serv.takeFrag (v : Serv) (h : EcpHdr) (r : SrvFrag) (now : Nat) : SrvRequest ⊕ Nat :=
  let last := r.flags % 2 == 1
  let done (q : SrvRequest) : SrvRequest ⊕ Nat :=
    if q.prompt.any (fun t => t ≥ v.vocab) then .inr 5
    else if q.prompt.length > q.len ∨ (last ∧ q.prompt.length ≠ q.len) then .inr 7
    else .inl q
  match v.asm.find? (fun x => x.reqId == r.reqId) with
  | some q =>
    if r.off ≠ q.prompt.length then .inr 7
    else if last ∧ v.queue.length ≥ 1024 then .inr 6
    else done { q with prompt := q.prompt ++ r.tokens, at_ := now }
  | none =>
    if v.inUse r.reqId then .inr 2
    else if badParams v h r then .inr 3
    else if v.slots.all (fun x => r.len + r.maxNew > x.1) then .inr 4
    else if r.off ≠ 0 then .inr 7
    else if (last ∧ v.queue.length ≥ 1024) ∨ (!last ∧ v.asm.length ≥ 16) then .inr 6
    else done (requestOf r now)

/-- SRV_REQ_REPLY: the queue position is the number of requests ahead. -/
def State.reqReply (s : State) (h : EcpHdr) (r : SrvFrag) (code pos : Nat) : State :=
  s.reply h 0x43 0x44 code (le 1 r.tile ++ le 1 code ++ le 2 0 ++ le 4 r.reqId ++ le 4 pos)

def srvReqEff (h : EcpHdr) (r : SrvFrag) (s : State) : State :=
  if (s.srvCtx r.tile).isNone then s.reqReply h r 1 0
  else
    let v := s.serv r.tile
    let rest := v.asm.filter (fun x => x.reqId != r.reqId)
    match v.takeFrag h r s.tick with
    | .inr code =>
      (s.setServ r.tile { v with asm := if code = 2 then v.asm else rest }).reqReply h r code 0
    | .inl q =>
      if r.flags % 2 = 1 then
        (s.setServ r.tile { v with asm := rest, queue := v.queue ++ [q] }).reqReply h r 0 v.queue.length
      else (s.setServ r.tile { v with asm := rest ++ [q] }).reqReply h r 0 0

def fragBytes (h : EcpHdr) (r : SrvFrag) : List Byte :=
  le 1 r.tile ++ le 1 r.flags ++ le 1 r.mode ++ le 1 r.nStop ++ le 4 r.reqId ++ le 8 r.seed ++ le 4 r.temp ++ le 4 r.topP ++
  le 2 r.topK ++ le 2 r.chunk ++ le 4 r.maxNew ++ le 4 r.len ++ le 4 r.off ++ le 4 r.tokens.length ++ rsvBytes h 0 4 ++
  (List.range 8).flatMap (fun i => le 4 (r.stops.getD i 0)) ++ r.tokens.flatMap (le 4)

/-- SRV_REQ. -/
def execSrvReq (h : EcpHdr) (r : SrvFrag) (s : State) : Out := ok (s.ecpIn h 0x43 false (fragBytes h r) (srvReqEff h r))

/-- FRAGMENT_TIMEOUT: 100 ms without the next fragment. -/
def execFragmentTimeout (tile reqId : Nat) (s : State) : Out :=
  match (s.serv tile).asm.find? (fun x => x.reqId == reqId) with
  | some q =>
    if s.tick ≥ q.at_ + 10000000 then
      ok (s.setServ tile { s.serv tile with asm := (s.serv tile).asm.filter (fun x => x.reqId != reqId) })
    else ok s
  | none => ok s

/-! ### Acknowledging, resending, cancelling (R247, R248, R253) -/

/-- Does a predicate hold of some request that the service knows, queued, active or retained? -/
def Serv.knows (v : Serv) (id : Nat) : Bool := v.inUse id || v.done.any (fun x => x.reqId == id)

/-- A change made to every request of an ID. -/
def Serv.update (v : Serv) (id : Nat) (f : SrvRequest → SrvRequest) : Serv :=
  let g (x : SrvRequest) : SrvRequest := if x.reqId = id then f x else x
  { v with queue := v.queue.map g, active := v.active.map (fun e => (e.1, g e.2)), done := v.done.map g }

/-- A message that names no request the service knows; a tile without an instance counts none (R254). -/
def State.srvStray (s : State) (t : Nat) : State := if (s.srvCtx t).isSome then s.rinc (uTile t) SRV_STATUS.stray 1 else s

def srvAckEff (t id index : Nat) (s : State) : State :=
  if (s.serv t).knows id then
    s.setServ t ((s.serv t).update id (fun r => { r with acked := Nat.min (Nat.max r.acked index) r.sent }))
  else s.srvStray t

/-- SRV_ACK. -/
def execSrvAck (h : EcpHdr) (tile reqId index : Nat) (s : State) : Out :=
  ok (s.ecpIn h 0x46 false (le 1 tile ++ rsvBytes h 0 3 ++ le 4 reqId ++ le 4 index) (srvAckEff tile reqId index))

def srvResendEff (t id index : Nat) (s : State) : State :=
  let v := s.serv t
  if v.knows id then
    s.each ((v.active.map (·.2) ++ v.done).filter (fun r => r.reqId == id)) (fun s r =>
      let s := s.sendToks t { r with gen := r.gen.take r.sent } (Nat.max index r.acked)
      s.sendEnd t r)
  else s.srvStray t

/-- SRV_RESEND. -/
def execSrvResend (h : EcpHdr) (tile reqId index : Nat) (s : State) : Out :=
  ok (s.ecpIn h 0x47 false (le 1 tile ++ rsvBytes h 0 3 ++ le 4 reqId ++ le 4 index) (srvResendEff tile reqId index))

def srvCancelEff (t id : Nat) (s : State) : State :=
  if (s.serv t).knows id then s.setServ t ((s.serv t).update id (fun r => { r with cancel := true }))
  else s.srvStray t

/-- SRV_CANCEL: at the next window. -/
def execSrvCancel (h : EcpHdr) (tile reqId : Nat) (s : State) : Out :=
  ok (s.ecpIn h 0x48 false (le 1 tile ++ rsvBytes h 0 3 ++ le 4 reqId) (srvCancelEff tile reqId))

/-- SRV_TOK_TIMEOUT: the unsent tokens of a request, 1,000 tk after the oldest. -/
def execSrvTokTimeout (tile reqId : Nat) (s : State) : Out :=
  let v := s.serv tile
  match v.active.find? (fun e => e.2.reqId == reqId) with
  | some (k, r) =>
    (match r.unsent with
     | some t =>
       if s.tick ≥ t + 1000 then
         let s := s.sendToks tile r r.sent
         ok (s.setServ tile { v with active := mput v.active k { r with sent := r.gen.length, unsent := none } })
       else ok s
     | none => ok s)
  | none => ok s

/-- RETENTION_END: 100 ms after SRV_END. -/
def execRetentionEnd (tile reqId : Nat) (s : State) : Out :=
  let v := s.serv tile
  let old (r : SrvRequest) : Bool := r.reqId == reqId && (match r.ovr with
    | some o => decide (s.tick ≥ o.2 + 10000000)
    | none => false)
  ok (s.setServ tile { v with done := v.done.filter (fun r => !old r) })

/-! ### Sampling (R245), in FP32, round to nearest even -/

def f32 (op : Num → Num → Nat × Nat) (a b : Nat) : Nat := (op (dec32 a) (dec32 b)).1
def f32Add (a b : Nat) : Nat := f32 addNum a b
def f32Sub (a b : Nat) : Nat := f32 (fun x y => addNum x (negNum y)) a b
def f32Div (a b : Nat) : Nat := f32 divNum a b
def f32Mul (a b : Nat) : Nat := f32 mulNum a b
def f32Exp (a : Nat) : Nat := (expNum a (dec32 a)).1

/-- `a < b`, false with a NaN; zeros are equal. -/
def f32Lt (a b : Nat) : Bool :=
  !isNan32 a && !isNan32 b && !(a % 2 ^ 31 == 0 && b % 2 ^ 31 == 0) && decide (orderKey a < orderKey b)

/-- Weights added in index order. -/
def f32Sum : List Nat → Nat
  | [] => 0
  | w :: ws => ws.foldl f32Add w

/-- How many candidates top-p keeps. -/
def topKeep (limit : Nat) : Nat → List Nat → Nat
  | _, [] => 0
  | acc, w :: ws => if f32Lt acc limit then 1 + topKeep limit (f32Add acc w) ws else 0

/-- The first index whose running sum exceeds `t`. -/
def pickAt (t : Nat) : Nat → Nat → List Nat → Option Nat
  | _, _, [] => none
  | i, acc, w :: ws =>
    let a := f32Add acc w
    if f32Lt t a then some i else pickAt t (i + 1) a ws

/-- The token of generation `g` from a slot's candidates (logit bits, token); `none` where a NaN ends the request. -/
def sampleToken (r : SrvRequest) (cand : List (Nat × Nat)) (g : Nat) : Option Nat :=
  let greedy := r.mode = 0 ∨ r.temp % 2 ^ 31 = 0
  let n := if greedy then 1 else if r.mode = 1 then r.topK else cand.length
  let used := cand.take n
  if used.any (fun x => isNan32 x.1) then none
  else if greedy then cand.head?.map (·.2)
  else
    let top := (cand.headD (0, 0)).1
    let w := used.map (fun x => f32Exp (f32Div (f32Sub x.1 top) r.temp))
    let w := if r.mode = 2 then w.take (topKeep (f32Mul r.topP (f32Sum w)) 0 w) else w
    let t := f32Mul (round32 false (srDraw r.seed g 0) (-32)).1 (f32Sum w)
    let i := (pickAt t 0 0 w).getD (w.length - 1)
    (used[i]?).map (·.2)

/-! ### The window procedure (R241, R242) -/

/-- The candidates of a slot. -/
def State.candsOf (s : State) (v : Serv) (slot : Nat) : List (Nat × Nat) :=
  match s.blockBytes v.ctx (v.block + v.candOff + 8 * v.c * slot) (8 * v.c) with
  | some l => (List.range v.c).map (fun i => (at4 l (8 * i) 4, at4 l (8 * i + 4) 4))
  | none => []

/-- Steps 1 and 2 for one slot: the sampled token, then the first reason of Table 8-3. -/
def State.windowSlot (s : State) (t slot : Nat) : State :=
  let v := s.serv t
  match mfind v.active slot with
  | none => s
  | some r =>
    let r := { r with steps := r.steps + 1 }
    let tok := if r.run then some (sampleToken r (s.candsOf v slot) r.gen.length) else none
    let free (s : State) : State :=
      s.setServ t { s.serv t with
        active := mdel (s.serv t).active slot
        lane := (s.serv t).lane.filter (fun x => x != slot) }
    if r.cancel then free (s.endRequest t r 3)
    else if v.closing then free (s.endRequest t r 6)
    else
      match tok with
      | none => s.setServ t { v with active := mput v.active slot r }
      | some none => free ((s.raise 0x8601 (uTile t) 0 0 0).endRequest t r 5)
      | some (some x) =>
        let r := { r with gen := r.gen ++ [x], unsent := some (r.unsent.getD s.tick) }
        if r.stops.contains x then free (s.endRequest t r 0)
        else if r.gen.length ≥ r.maxNew then free (s.endRequest t r 1)
        else if r.gen.length - r.sent ≥ r.chunk then
          (s.sendToks t r r.sent).setServ t
            { v with active := mput v.active slot { r with sent := r.gen.length, unsent := none } }
        else s.setServ t { v with active := mput v.active slot r }

/-- Queued requests that a cancel or the closing ends. -/
def State.windowQueue (s : State) (t : Nat) : State :=
  let v := s.serv t
  let gone := v.queue.filter (fun r => r.cancel || v.closing)
  let s := s.each gone (fun s r => s.endRequest t r (if r.cancel then 3 else 6))
  s.setServ t { s.serv t with queue := v.queue.filter (fun r => !(r.cancel || v.closing)) }

/-- The slot a request takes: the lowest free one of tier 0, else of tier 1, that is long enough. -/
def Serv.slotFor (v : Serv) (r : SrvRequest) : Option Nat :=
  let fits (tier : Nat) : Option Nat := (List.range v.b).find? (fun i =>
    let x := v.slots.getD i (0, 0)
    x.2 == tier && x.1 ≥ r.len + r.maxNew && (mfind v.active i).isNone)
  match fits 0 with
  | some i => some i
  | none => fits 1

/-- Step 3: requests in order of receipt, until one does not fit. -/
def Serv.assign : Nat → Serv → Serv
  | 0, v => v
  | fuel + 1, v =>
    match v.queue with
    | [] => v
    | r :: rest =>
      match v.slotFor r with
      | none => v
      | some i =>
        Serv.assign fuel { v with
          queue := rest, active := mput v.active i r
          lane := if v.q > 0 ∧ r.len > 1 then v.lane ++ [i] else v.lane }

/-- The input of a slot (Table 8-2): token, position, flags; and the request after it. -/
def slotInput (q : Nat) (r : SrvRequest) : (Nat × Nat × Nat) × SrvRequest :=
  if r.fed < r.len - 1 then
    (if q > 0 then ((0, 0, 1), { r with run := false })
     else ((r.prompt.getD r.fed 0, r.fed, 2), { r with fed := r.fed + 1, run := false }))
  else if r.gen.isEmpty then ((r.prompt.getD (r.len - 1) 0, r.len - 1, 0), { r with run := true })
  else ((r.gen.getLastD 0, r.len - 1 + r.gen.length, 0), { r with run := true })

def inputBytes (x : Nat × Nat × Nat) : List Byte := le 4 x.1 ++ le 4 x.2.1 ++ le 4 x.2.2 ++ le 4 0

def State.blockWrite (s : State) (v : Serv) (off : Nat) (bs : List Byte) : State :=
  s.writeVa (s.ctxRoot v.ctx).1 (s.ctxRoot v.ctx).2 (bs.length / 65536 + 2) (v.block + off) bs

/-- Step 4 for the slots. -/
def State.windowInput (s : State) (t slot : Nat) : State :=
  let v := s.serv t
  match mfind v.active slot with
  | none => s.blockWrite v (v.inOff + 16 * slot) (inputBytes (0, 0, 1))
  | some r =>
    let x := slotInput v.q r
    (s.setServ t { v with active := mput v.active slot x.2 }).blockWrite v (v.inOff + 16 * slot) (inputBytes x.1)

/-- Step 4 for the prefill lane: the next tokens of the first request in it. -/
def State.windowLane (s : State) (t : Nat) : State :=
  let v := s.serv t
  let none_ := le 4 0xFFFFFFFF ++ le 4 0 ++ le 4 0 ++ le 4 0
  match v.lane with
  | [] => s.blockWrite v v.preOff none_
  | slot :: rest =>
    match mfind v.active slot with
    | none => s.blockWrite v v.preOff none_
    | some r =>
      let n := Nat.min v.q (r.len - 1 - r.fed)
      let r' := { r with fed := r.fed + n }
      let s := s.setServ t { v with
        active := mput v.active slot r'
        lane := if r'.fed ≥ r.len - 1 then rest else v.lane }
      s.blockWrite v v.preOff
        (le 4 slot ++ le 4 r.fed ++ le 4 n ++ le 4 0 ++ ((r.prompt.drop r.fed).take n).flatMap (le 4))

/-- The step's energy, shared among the slots (R249). -/
def State.windowEnergy (s : State) (t : Nat) : State :=
  let v := s.serv t
  let now := mget s.energy.acct v.ctx 0
  let share := (now - v.lastE) / Nat.max 1 v.b
  s.setServ t { v with
    lastE := now
    idle := v.idle + share * (v.b - v.active.length)
    active := v.active.map (fun e => (e.1, { e.2 with energy := e.2.energy + share })) }

/-- Step 8 of R238: SIGNAL 1 on tok_ready; what cannot be posted is refused to the service alone (R183). -/
def State.sendTok (s : State) (t : Nat) : State :=
  let v := s.serv t
  let r := s.resolve t v.ctx v.tok
  if r.2 = .bad ∨ spanBarrier r.1 then s.raise 0x3020 (uTile t) v.tok (waiterService t)
  else
    s.sendSpan r.2 { kind := .signal, obj := r.1, value := 1, waiter := waiterService t, unit := uTile t, ctx := v.ctx, reg := s.tick, expire := 0 }
      0 (s.ctx v.ctx).plan.planId

/-- The whole procedure once cand_ready is released. -/
def windowEff (t released : Nat) (s : State) : State :=
  let s := s.windowEnergy t
  let b := (s.serv t).b
  let s := s.each (List.range b) (fun s i => s.windowSlot t i)
  let s := s.windowQueue t
  if (s.serv t).closing then s.closeServ t
  else
    let s := s.setServ t ((s.serv t).assign ((s.serv t).queue.length + 1))
    let s := s.each (List.range b) (fun s i => s.windowInput t i)
    let s := s.windowLane t
    let v := s.serv t
    let s := (s.sendTok t).servWait t
    let late := s.tick - released
    if late > v.window then
      let s := s.rinc (uTile t) SRV_LATE.steps 1
      let s := s.rmax (uTile t) SRV_LATE.max_tk (late - v.window)
      s.raise 0x8600 (uTile t)
    else s

/-- WINDOW_PROCEDURE, once the service's wait on cand_ready has been released. -/
def execWindowProcedure (tile : Nat) (s : State) : Out :=
  match s.srvCtx tile, (s.serv tile).released with
  | some c, some r =>
    if s.tileUp tile ∧ (s.cstate c = cRunning ∨ s.cstate c = cStopping) then
      ok (windowEff tile r (s.setServ tile { s.serv tile with released := none }))
    else ok s
  | _, _ => ok s

end Sys2Proof.Machine
end

