-- ==== Sys2Proof/Machine/Dma.lean ====
section
/-!
DEFINITION. DMA: descriptors, transfers, walks, faults and their resolution; TLB invalidation; the base-store cache and HBM
(chapter Memory, Translation and DMA).
-/

namespace Sys2Proof.Machine

/-- A DMA descriptor (Table 7-6), decoded. -/
structure Desc where
  sk : Nat
  dk : Nat
  flowEn : Bool
  link : Nat
  flow : Nat
  len : Nat
  src : Nat
  dst : Nat
  rows : Nat
  sStride : Nat
  dStride : Nat
  pod : Nat
  pkg : Nat
  clean : Bool
  deriving DecidableEq, Repr

def descOf (v : Nat) : Desc :=
  let f := bitsOf v
  let z (lo n : Nat) : Bool := f lo n == 0
  ⟨f 0 2, f 2 2, f 4 1 == 1, f 8 6, f 16 16, f 32 32, f 64 44, f 128 44, f 192 16 + 1, f 224 32, f 256 32, f 288 6, f 294 7,
   z 5 3 && z 14 2 && z 108 20 && z 172 20 && z 208 16 && z 301 211 &&
     (f 0 2 != 0 || z 88 20) && (f 2 2 != 0 || z 152 20)⟩

def Desc.total (d : Desc) : Nat := d.len * d.rows
def Desc.srcRow (d : Desc) (r : Nat) : Nat := d.src + r * d.sStride
def Desc.dstRow (d : Desc) (r : Nat) : Nat := d.dst + r * d.dStride

/-- The destination's pod, 0x3F for the own (Table 7-6). -/
def Desc.dstPod (d : Desc) (s : State) : Nat := if d.pod = 0x3F then s.light.pod else d.pod

/-- Check 1 of R223, with R222 and R352: kinds, reserved bits, and a peer's link. -/
def Desc.comboOk (d : Desc) (s : State) : Bool :=
  d.clean && d.sk ≤ 1 && d.dk ≤ 2 && !(d.sk == 0 && d.dk == 0) &&
  (d.dk != 2 ||
    (d.pkg != 0x7F && s.routeTo (d.dstPod s) d.pkg == some d.link &&
      (d.flowEn || s.light.peers.any (fun e => e.link == d.link && e.pod == d.dstPod s && e.pkg == d.pkg))))

/-- The fetch checks in order: the error code of the first that fails (R223, Table 7-7). -/
def Desc.check (d : Desc) (s : State) (c : Nat) : Option Nat :=
  let rs := (s.ctx c).plan.regions
  let rows := List.range d.rows
  if !d.comboOk s then some 1
  else if d.len = 0 then some 2
  else if d.total ≥ 2 ^ 32 then some 3
  else if (d.sk = 0 ∧ !rows.all (fun r => csRange (d.srcRow r) d.len)) ∨
      (d.dk = 0 ∧ !rows.all (fun r => csRange (d.dstRow r) d.len)) then some 4
  else if (d.sk = 1 ∧ !rows.all (fun r => inRegion rs (d.srcRow r) d.len false)) ∨
      (d.dk = 1 ∧ !rows.all (fun r => inRegion rs (d.dstRow r) d.len true)) then some 5
  else none

/-- Rows of one side share bytes with a row of the other: `a` and `b` the bases, `x` and `y` the strides. -/
def rowsMeet (rows len a x b y : Nat) : Bool :=
  (List.range rows).any (fun i =>
    let lo := a + i * x
    if y = 0 then decide (b < lo + len) && decide (lo < b + len)
    else
      -- the first destination row that ends above `lo`
      let j := (lo + 1 - (b + len) + y - 1) / y
      decide (j < rows) && decide (b + j * y < lo + len) && decide (lo < b + j * y + len))

/-- Source and destination share bytes of the context's memory (R224: the results are undefined). -/
def Desc.overlaps (d : Desc) : Bool := d.sk == 1 && d.dk == 1 && rowsMeet d.rows d.len d.src d.sStride d.dst d.dStride

/-! ### Ends of a transfer -/

/-- DMA_STATE of an engine (Table 7-18). -/
def State.dmaState (s : State) (k st : Nat) : State :=
  let e := s.eng k
  ((s.ds k DMA_STATE.state st).ds k DMA_STATE.desc_index e.descIdx).ds k DMA_STATE.offset e.off

/-- The destination of a descriptor left undefined, with what is under way to it (Table 7-7). -/
def State.spoilDst (s : State) (k c idx : Nat) (d : Desc) : State :=
  let s := { s with net := s.net.map (fun (r : Run) => if r.eng = some k ∧ r.ctx = c ∧ r.idx = idx then { r with mess := true } else r) }
  s.each (List.range d.rows) (fun s r =>
    if d.dk = 0 then s.scramble (csAt k (d.dstRow r)) d.len
    else if d.dk = 1 then s.scrambleVa (s.ctxRoot c).1 (s.ctxRoot c).2 65536 (d.dstRow r) d.len
    else s)

/-- A transfer ends with an error (R231): its destination, the record of the error at its descriptor and at the offset reached, and the
event. -/
def State.noteDmaErr (s : State) (k c code idx off : Nat) (d : Desc) : State :=
  let s := if code ∈ [6, 7, 8, 0xA, 0xB] then s.spoilDst k c idx d else s
  let s := ((s.ds k DMA_ERR.code code).ds k DMA_ERR.desc_index idx).ds k DMA_ERR.offset off
  s.raise 0x4300 (uDie (keyDie k)) 0 k (code + idx * 2 ^ 8 + off * 2 ^ 24)

/-- The head's transfer ends with an error completion, and its context is aborted. -/
def State.dmaError (s : State) (k c code : Nat) (d : Desc) : State :=
  let e := s.eng k
  ((((s.noteDmaErr k c code e.descIdx e.off d).dmaState k 3).endHead k 5)).abortCtx c 0x12

/-- A translation fault: the engine parks at its offset (R226). -/
def State.dmaFault (s : State) (k c va side cause : Nat) : State :=
  let s := s.setEng k { s.eng k with parked := true, walk := none, phase := .executing }
  let s := ((s.ds k DMA_FAULT.va va).ds k DMA_FAULT.side side).ds k DMA_FAULT.cause cause |>.ds k DMA_FAULT.ctx c
  let s := (s.dmaState k 2).rinc (uTile (keyDie k)) MMU_FAULTS.faults 1
  s.raise 0x4200 (uDie (keyDie k)) 0 k (c + va * 2 ^ 6 + cause * 2 ^ 50)

/-- The descriptor at an LA of an engine's core. -/
def State.descAt (s : State) (k la : Nat) : Desc := descOf (s.word (csAt k la) 64)

/-- A transfer that was issued ends with an error: its command, if it is still the engine's head, ends with status 0x05 (R230, R231, R351).
The offset reached is the engine's own while it is at that descriptor, else all of it. The abort of its context is the caller's. -/
def State.issuedFail (s : State) (k c code idx dla : Nat) (live : Bool) : State :=
  let e := s.eng k
  let d := s.descAt k dla
  let here : Bool := live && e.descIdx == idx
  let s := s.noteDmaErr k c code idx (if here then e.off else d.total) d
  if live ∧ !e.queue.isEmpty then (s.dmaState k 3).endHead k 5 else s

/-- And its context is aborted. -/
def State.issuedError (s : State) (k c code idx dla : Nat) (live : Bool) : State :=
  (s.issuedFail k c code idx dla live).abortCtx c 0x12

/-! ### Moving bytes -/

/-- The TLB entry of a VA, moved to the front: the engine's own accesses order it (R217). -/
def tlbFind (l : List TlbEntry) (c va : Nat) : Option TlbEntry :=
  l.find? (fun e => e.ctx == c && e.va ≤ va && va < e.va + e.size)

/-- One side of an access at a VA: the PA and the bytes left in its page; a miss; a fault's cause. -/
inductive Side
  | at_ (a left : Nat)
  | miss
  | fault (cause : Nat)

/-- A PA that is reserved by now, as that of a lost tile, is a walk error (R204, R227). -/
def State.sideVa (s : State) (k c va : Nat) (write : Bool) : Side :=
  match tlbFind (s.eng k).tlb c va with
  | none => .miss
  | some e =>
    match pageFor ⟨e.va, e.size, e.pa, e.read, e.write⟩ va write with
    | .ok pa => if s.paOk pa 1 then .at_ pa (e.va + e.size - va) else .fault 3
    | .error cause => .fault cause

def State.tlbTouch (s : State) (k c va : Nat) : State :=
  let x := s.eng k
  match tlbFind x.tlb c va with
  | none => s
  | some e => s.setEng k { x with tlb := e :: x.tlb.filter (fun y => y != e) }

/-- The virtual channel of a flow on a link (Table 12-4). -/
def State.flowVc (s : State) (c : Nat) (d : Desc) : Nat :=
  if d.flowEn then
    (((s.ctx c).plan.optical.find? (fun e => e.link == d.link && e.flow == d.flow)).map (·.vc)).getD 0
  else 2

/-- The flow of a planned descriptor. -/
def Desc.flow? (d : Desc) : Option Nat := if d.flowEn then some d.flow else none

/-- Bytes of a transfer enter the network in data messages: 216 in the first of a transfer, 232 in the others (R335). -/
def sendRun (l vc : Nat) (r : Run) (head : List Nat) (more : List Nat) : Nat → Bool → Nat → List Byte → State → State
  | 0, _, _, _, s => s
  | fuel + 1, first, va, bs, s =>
    if bs.isEmpty then s
    else
      let n := if first then 216 else 232
      let m : LinkMsg :=
        { link := l, type := if first then 0x11 else 0x10, args := head ++ [va] ++ (if first then more else []), data := bs.take n, vc := vc
          ctx := r.ctx }
      sendRun l vc r head more fuel false (va + n) (bs.drop n) (s.launch { r with msg := some m })

/-- The lowest tag that no unfinished transfer of the package has. -/
def freeTag (l : List OutXfer) : Nat := ((List.range (l.length + 1)).find? (fun t => l.all (fun x => x.tag != t))).getD 0

/-- The link of a peer transfer carries its channel (Table 12-6, R349). -/
def State.linkCarries (s : State) (l : Nat) (planned : Bool) : Bool :=
  let st := s.lg l LNK_STATUS.state
  st == 2 || (st == 3 && !planned)

/-- Bytes of a row go to a peer. Each row is a transfer of its own, under a tag of its own, so that the peer checks all of it at its
first flit (R223; DEDUCED, log 110); a resumed row goes on under its tag. -/
def State.peerRun (s : State) (k c : Nat) (d : Desc) (r : Run) (pos va : Nat) (bs : List Byte) : State :=
  let x := s.link d.link
  let old := if pos = 0 then none else (x.out.filter (fun o => o.eng == k && o.ctx == c && o.idx == r.idx)).getLast?
  let tag := match old with
    | some o => o.tag
    | none => freeTag (s.links.flatMap (fun e => e.2.out))
  let s := match old with
    | some o => s.setLink d.link { x with out := x.out.map (fun y => if y = o then { o with live := true } else y) }
    | none => s.setLink d.link { x with out := x.out ++ [⟨tag, k, d.dstPod s, d.pkg, d.link, c, r.idx, r.dla, true⟩] }
  sendRun d.link (s.flowVc c d) r [tag, if d.flowEn then d.flow else 0, d.dstPod s, d.pkg]
    [(s.ctx c).plan.planId, d.len - pos, s.light.pod, s.light.pkg] (bs.length + 1) old.isNone va bs s

/-- The energy of a run of a transfer (Table 14-8): each side by its path, core store, base store, HBM, edge or link, for the package if the
transfer is unplanned; HBM bytes again for the stack, for the context. -/
def State.chargeMove (s : State) (k c : Nat) (d : Desc) (a b n : Nat) : State :=
  let die := keyDie k
  let acct := if d.flowEn then c else acctPkg
  let side (s : State) (kind a : Nat) : State :=
    if kind = 0 then s.charge acct die 5 n
    else
      let t := paTile a
      let s := if t = die then s else s.charge acct die 8 n
      if paIsHbm a then (s.charge acct t 7 n).charge c t 10 n else s.charge acct t 6 n
  let s := side s d.sk a
  if d.dk = 2 then s.charge acct (linkTile d.link) 9 n else side s d.dk b

/-- The way of a run: from the source's tile through the core's bond port, both ways for a byte that comes from memory and goes to
memory (R224), to the destination's tile, or to the optical engine of a peer's link. `none` where the grid has no way. -/
def State.movePath (s : State) (k c : Nat) (d : Desc) (a b : Nat) : Option (List Nat) :=
  let ck := engCore k
  let die := keyDie k
  let come : Option (List Nat) := if d.sk = 0 then some [] else (s.route c d.flow? (paTile a) die).map (· ++ [bondIn ck])
  let leave : Option (List Nat) :=
    if d.dk = 0 then some []
    else if d.dk = 1 then (s.route c d.flow? die (paTile b)).map (bondOut ck :: ·)
    else (s.route c d.flow? die (linkTile d.link)).map (fun p => bondOut ck :: p ++ [toEngine (linkTile d.link)])
  match come, leave with
  | some x, some y => some (x ++ y)
  | _, _ => none

/-- The source of a descriptor at an offset. -/
def State.srcSide (s : State) (k c : Nat) (d : Desc) (off : Nat) : Side :=
  let p := off % d.len
  let sa := d.srcRow (off / d.len) + p
  if d.sk = 0 then Side.at_ (csAt k sa) (d.len - p) else s.sideVa k c sa false

/-- What stands at an engine's offset (R223 to R231, Table 7-9): an uncorrectable word of its source is met before a fault, a link
that does not carry the transfer before either. -/
inductive Here
  | dataErr (la : Nat)
  | memErr (pa : Nat)
  | error (code : Nat)
  | walk (r : WalkReq)
  | fault (va side cause : Nat)
  | go (a b n : Nat) (path : List Nat)

/-- The first uncorrectable word that the source reads from an offset on would meet in its row and page. -/
def State.srcHit (s : State) (k c : Nat) (bad : EccHits) (d : Desc) (off : Nat) : Option Nat :=
  let p := off % d.len
  match s.srcSide k c d off with
  | .at_ a left =>
    let n := min (d.len - p) left
    if d.sk = 0 then firstHit bad.core (d.srcRow (off / d.len) + p) n else firstHit bad.mem a n
  | _ => none

def Desc.hitErr (d : Desc) (x : Nat) : Here := if d.sk = 0 then .dataErr x else .memErr x

/-- A fault found at an offset, unless the link does not carry the transfer, or its source is uncorrectable there (Table 7-9). -/
def State.orFault (s : State) (k c : Nat) (bad : EccHits) (d : Desc) (off va side cause : Nat) : Here :=
  if d.dk = 2 ∧ !s.linkCarries d.link d.flowEn then .error 7
  else
    match s.srcHit k c bad d off with
    | some x => d.hitErr x
    | none => .fault va side cause

def State.here (s : State) (k c : Nat) (bad : EccHits) (d : Desc) (off : Nat) : Here :=
  let r := off / d.len
  let p := off % d.len
  let sa := d.srcRow r + p
  let da := d.dstRow r + p
  if d.dk = 2 ∧ !s.linkCarries d.link d.flowEn then .error 7
  else
    match s.srcSide k c d off with
    | .miss => .walk ⟨sa, 0⟩
    | .fault cause => .fault sa 0 cause
    | .at_ a la =>
      let at0 := if d.sk = 0 then sa else a
      match s.srcHit k c bad d off, (if d.dk = 1 then s.sideVa k c da true else Side.at_ (csAt k da) (d.len - p)) with
      | some x, .fault _ => d.hitErr x
      | none, .fault cause => .fault da 1 cause
      | _, .miss => .walk ⟨da, 1⟩
      | hit, .at_ b lb =>
        if hit = some at0 then d.hitErr at0
        else if bad.net then .error 0xA
        else
          let n := match hit with
            | some x => x - at0
            | none => min (d.len - p) la
          match s.movePath k c d a b with
          | some path => .go a b (min n lb) path
          | none => .error 0xB

/-- The MOVE stops where its engine stands: an error, a walk, or a fault. -/
def State.stand (s : State) (k c : Nat) (d : Desc) (h : Here) : State :=
  match h with
  | .dataErr a => (s.dmaState k 3).dataError k a
  | .memErr pa => (s.memError pa).dmaError k c 6 d
  | .error code => s.dmaError k c code d
  | .walk r => (s.setEng k { s.eng k with walk := some r, phase := .executing }).dmaState k 1
  | .fault va side cause => s.dmaFault k c va side cause
  | .go .. => s

/-- The engine goes on with its MOVE: descriptors in order, bytes in increasing offset, until the last is issued, a miss asks for
a walk, a fault parks it, or an error ends it (R223, R224). `desc` and `count` are the command's, `bad` the uncorrectable
words its reads meet. -/
def State.dmaGo (k c desc count : Nat) (bad : EccHits) : Nat → State → State
  | 0, s => s
  | fuel + 1, s =>
    let e := s.eng k
    if e.descIdx ≥ count then (s.dmaState k 0).issuedFree k
    else
      let la := desc + 64 * e.descIdx
      match firstHit bad.core la 64 with
      | some a => (s.dmaState k 3).dataError k a
      | none =>
        let d := s.descAt k la
        match (if e.descOk then none else d.check s c) with
        | some code => s.dmaError k c code d
        | none =>
          let s := s.setEng k { e with descOk := true }
          let e := s.eng k
          if e.off ≥ d.total then
            State.dmaGo k c desc count bad fuel (s.setEng k { e with descIdx := e.descIdx + 1, off := 0, descOk := false })
          else
            match s.here k c bad d e.off with
            | .go a b n path =>
              let p := e.off % d.len
              let sa := d.srcRow (e.off / d.len) + p
              let da := d.dstRow (e.off / d.len) + p
              let s := if d.sk = 1 then s.tlbTouch k c sa else s
              let s := if d.dk = 1 then s.tlbTouch k c da else s
              let bs := s.mem.bytes a n
              let r : Run :=
                { path := path, a := b, tile := if d.dk = 1 then paTile b else keyDie k, data := if d.dk = 2 then [] else bs, ctx := c
                  flow := d.flow?, eng := some k, idx := e.descIdx, dla := la, mess := d.overlaps }
              let s := if d.dk = 2 then s.peerRun k c d r p da bs else s.launch r
              let s := s.chargeMove k c d a b n
              State.dmaGo k c desc count bad fuel (s.setEng k { s.eng k with off := e.off + n })
            | h => s.stand k c d h

def moveDesc (w : CmdWord) : Nat := fieldOf w 128 24
def moveCount (w : CmdWord) : Nat := fieldOf w 152 16

/-- The check phase of a MOVE (R108, R221). -/
def moveCheck (_ : State) (w : CmdWord) : Option Nat :=
  if fieldOf w 168 344 ≠ 0 ∨ moveCount w = 0 then some 1
  else if moveDesc w % 64 ≠ 0 ∨ !csRange (moveDesc w) (64 * moveCount w) then some 3
  else none

/-- Go on with the head MOVE of an engine. -/
def State.dmaRun (s : State) (k : Nat) (bad : EccHits) : State :=
  match (s.eng k).queue, s.coreCtx (engCore k) with
  | w :: _, some c =>
    State.dmaGo k c (moveDesc w) (moveCount w) bad (2 ^ 49)
      ((s.coreFixed (engCore k) bad.coreFixed).memFixed bad.memFixed)
  | _, _ => s

/-- MOVE (R108, R223). A core without a context has no translation and no regions: its transfer finds none. -/
def execMove (e : EngId) (ecc : EccHits) (s : State) : Out :=
  let k := engOf e
  match s.gate k 3 1 moveCheck with
  | .stay s => ok s
  | .run s _ =>
    let s := s.setEng k { s.eng k with phase := .executing, off := (s.eng k).off }
    ok ((s.dmaState k 1).dmaRun k ecc)

/-- Is a context covered by the invalidation in progress (R218)? -/
def State.invalidating (s : State) (c : Nat) : Bool :=
  match s.tlbCur with
  | some r => r.all || r.ctx == c
  | none => false

/-- The table entries that a walk from a root reads. -/
def State.walkReads (s : State) (root va : Nat) : List Nat :=
  let a1 := root + bitsOf va 30 14 * 8
  let e1 := s.word a1 8
  a1 :: (if pteValid e1 ∧ pteSize e1 = 0 then [ptePa e1 + bitsOf va 16 14 * 8] else [])

/-- The descriptor in progress of an engine's head MOVE. -/
def State.curDesc (s : State) (k : Nat) : Desc :=
  match (s.eng k).queue with
  | w :: _ => s.descAt k (moveDesc w + 64 * (s.eng k).descIdx)
  | [] => descOf 0

/-- TABLE_WALK (R216): the TLB is filled and the transfer goes on, or it faults, or it ends with 0x06. The result of a walk for a
context under invalidation is discarded, and the walk is made again after it (Table 7-9). Tables in HBM are read through the cache. -/
def execTableWalk (e : EngId) (ecc : EccHits) (s : State) : Out :=
  let k := engOf e
  let x := s.eng k
  match x.walk, s.coreCtx (engCore k) with
  | some r, some c =>
    if s.invalidating c ∨ !s.dieUp e.die then ok s
    else
      let d := s.curDesc k
      let s := s.each (s.walkReads (s.ctxRoot c).2 r.va) (fun s a => s.cacheRead a 8)
      match s.walkCtx ecc.mem c r.va with
      | .page p =>
        (match pageFor p r.va (r.side == 1) with
         | .error cause => ok (s.stand k c d (s.orFault k c ecc d x.off r.va r.side cause))
         | .ok _ =>
           let t : TlbEntry := ⟨c, p.va, p.size, p.pa, p.read, p.write⟩
           ok ((s.setEng k { x with walk := none, tlb := (t :: x.tlb).take 64 }).dmaRun k ecc))
      | .fault cause => ok (s.stand k c d (s.orFault k c ecc d x.off r.va r.side cause))
      | .ecc pa => ok ((s.memError pa).dmaError k c 6 d)
  | _, _ => ok s

/-! ### Faults resolved (R228) -/

def State.stray (s : State) (die : Nat) : State := s.rinc (uTile die) MMU_FAULTS.stray_resumes 1

/-- The address of DMA_RESUME of an engine (R234). -/
def resumeAddr (k : Nat) : Nat := mgmtAddr (uDie (keyDie k)) (DMA_RESUME.resume.off + dDma (keyCore k) (keyEng k))

/-- An abandon of the engine's fault falls in this tick too: it decides (Table 7-9). -/
def State.abandonSoon (s : State) (k : Nat) : Bool :=
  s.soon (fun i => match i with
    | .abandon e => engOf e == k
    | .registerWrite a _ v => a == resumeAddr k && bitsOf v.toNat 1 1 == 1
    | _ => false)

/-- A parked engine walks again at the recorded offset; one not parked counts a stray resume, unless its fault was resolved in this
tick. -/
def resumeEff (k : Nat) (s : State) : State :=
  let x := s.eng k
  if x.parked then
    (if s.abandonSoon k then s
     else (s.setEng k { x with parked := false, walk := some ⟨s.dg k DMA_FAULT.va, s.dg k DMA_FAULT.side⟩ }).dmaState k 1)
  else if s.endedNow (oEng k) then s
  else s.stray (keyDie k)

/-- A parked transfer ends with error code 0x09. -/
def abandonEff (k : Nat) (s : State) : State :=
  if (s.eng k).parked then
    (match s.coreCtx (engCore k) with
     | some c => (s.markEnd (oEng k)).dmaError k c 9 (s.curDesc k)
     | none => s)
  else if s.endedNow (oEng k) then s
  else s.stray (keyDie k)

/-- RESUME. -/
def execResume (e : EngId) (s : State) : Out := if s.dieUp e.die then ok (resumeEff (engOf e) s) else ok s
/-- ABANDON. -/
def execAbandon (e : EngId) (s : State) : Out := if s.dieUp e.die then ok (abandonEff (engOf e) s) else ok s

/-! ### TLB invalidation (R218) -/

/-- An invalidation begins: the registers that report it read so on every tile (their home is one). -/
def State.startInv (s : State) (r : TlbReq) : State :=
  let s := { s with tlbCur := some r }
  ((s.rs seqHome MMU_TLB_INV.pending 1).rs seqHome MMU_TLB_INV.active_ctx r.ctx).rs seqHome MMU_TLB_INV.active_all (flagIf r.all 1)

/-- The effect of a write to MMU_TLB_INV: a start while one is pending has no effect. -/
def tlbInvWrite (tile v : Nat) (s : State) : State :=
  let u := uTile tile
  let c := bitsOf v 0 6
  let all := bitsOf v 6 1
  let s := (s.rs u MMU_TLB_INV.ctx c).rs u MMU_TLB_INV.allCtx all
  if bitsOf v 7 1 = 1 ∧ s.tlbCur = none then s.startInv ⟨none, c, all == 1⟩ else s

/-- TLB_INV_START. -/
def execTlbInvStart (tile : Nat) (v : Word) (s : State) : Out :=
  ok (if s.tileUp tile then tlbInvWrite tile v.toNat s else s)

/-- Every access of a covered context has reached its completion point (R218): nothing of it is on the network, and peers have
answered for theirs. -/
def State.quiet (s : State) (p : Nat → Bool) : Bool :=
  s.net.all (fun r => (r.eng.isNone && r.host.isNone) || !p r.ctx) && s.links.all (fun e => e.2.out.all (fun o => !p o.ctx))

/-- TLB_INV_COMPLETE: covered entries are dropped, the request is answered, and the first held one starts. -/
def execTlbInvComplete (s : State) : Out :=
  match s.tlbCur with
  | none => ok s
  | some r =>
    if !s.quiet (fun c => r.all || c == r.ctx) then ok s
    else
    let s := s.dropTlb (fun c => r.all || c == r.ctx)
    let s := { s with tlbCur := none }.rs seqHome MMU_TLB_INV.pending 0
    let s := match r.hdr with
      | some h => s.reply h 0x26 0x06 0 []
      | none => s
    match s.tlbHeld with
    | [] => ok s
    | h :: rest => ok ({ s with tlbHeld := rest }.startInv h)

/-! ### Cache and HBM (R207, R210, R211) -/

/-- A write of MMU_CACHE_CFG: the size waits for the end of its tick. -/
def cacheCfgWrite (tile v : Nat) (s : State) : State :=
  let s := if bitsOf v 2 1 = 1 then s.clr (uTile tile) MMU_CACHE_CFG.refused else s
  { s with cacheReq := mput s.cacheReq tile (bitsOf v 0 2) }

/-- The sizes written in the tick, decided at its end: effective only with every context FREE. Every line is then invalid, and base
store that the cache releases is undefined. -/
def State.decideCaches (s : State) : State :=
  State.each { s with cacheReq := [] } s.cacheReq (fun s e =>
    let u := uTile e.1
    let old := s.rg u MMU_CACHE_CFG.size
    if e.2 = old then s
    else if s.allFree then
      let s := (s.rs u MMU_CACHE_CFG.size e.2).dropCache e.1
      if e.2 < old then s.scramble (e.1 * 2 ^ 32 + 0x60000000 - cacheBytes old) (cacheBytes old - cacheBytes e.2) else s
    else (s.rinc u MMU_CACHE_CFG.refused 1).raise 0x4501 u)

/-- MMU_CACHE_CFG_WRITE. -/
def execMmuCacheCfgWrite (tile : Nat) (v : Word) (s : State) : Out :=
  ok (if s.tileUp tile then cacheCfgWrite tile v.toNat s else s)

def State.hbmOf (s : State) (st : Nat) : HbmSt := mget s.hbm st {}
def State.setHbm (s : State) (st : Nat) (h : HbmSt) : State := { s with hbm := mput s.hbm st h }

/-- The row of Table 7-3 for a reading in quarter degrees, from the row of before: between 82 and 85 °C normal mode is
neither left nor entered. -/
def hbmRow (old : Nat) (q : Int) : Nat :=
  if q < 4 * 82 then 0
  else if q < 4 * 85 then min old 1
  else if q < 4 * 95 then 1
  else if q < 4 * 105 then 2
  else 3

/-- HBM_TEMPERATURE_READ: every 1,000 tk. -/
def execHbmTemperatureRead (stack : Nat) (quarter : Int) (s : State) : Out :=
  if s.tileUp (stack / 2) ∧ s.tick % 1000 = 0 then
    let s := s.rs (uTile (stack / 2)) MMU_HBM_STAT.temp (twos 8 (quarter / 4)) (8 * (stack % 2))
    ok (s.setHbm stack { s.hbmOf stack with want := hbmRow (s.hbmOf stack).want quarter })
  else ok s

/-- REFRESH, at a tick multiple of 195: a mode change takes effect, and a refresh is issued, every 390 tk in normal mode. -/
def execRefresh (stack : Nat) (s : State) : Out :=
  if s.tileUp (stack / 2) ∧ s.tick % 195 = 0 then
    let h := s.hbmOf stack
    let u := uTile (stack / 2)
    let s := if h.want = h.row then s
      else
        let code := if h.want = 0 then 0x4403 else if h.want = 1 then 0x4400 else if h.want = 2 then 0x4401 else 0x4402
        (s.rs u MMU_HBM_STAT.mode (min h.want 2) (8 * (stack % 2))).raise code u (stack)
    let due := h.want != 0 || s.tick % 390 == 0
    ok ((s.setHbm stack { h with row := h.want, refresh := h.refresh + flagIf due 1 }).charge acctPkg (stack / 2) 11 (flagIf due 1))
  else ok s

/-- Ticks in 24 h. -/
def dayTk : Nat := 8640000000000

/-- SCRUB, one in each 24 h: corrected words are counted, and an uncorrectable one is reported (R210). -/
def execScrub (stack corrected : Nat) (bad : List Nat) (s : State) : Out :=
  if s.tileUp (stack / 2) ∧ (s.hbmOf stack).scrubs ≤ s.tick / dayTk then
    let s := s.rinc (uTile (stack / 2)) MMU_HBM_STAT.corrected corrected (8 * (stack % 2))
    let s := s.each (bad.filter (fun pa => paIsHbm pa && paStack pa == stack)) State.memError
    ok (s.setHbm stack { s.hbmOf stack with scrubs := (s.hbmOf stack).scrubs + 1 })
  else ok s

end Sys2Proof.Machine
end

