-- ==== Sys2Proof/Machine/Flits.lean ====
section
/-!
DEFINITION. The flit positions of a link direction: which flit goes in each, and what a tick sends (R135, R136, R339).
-/

namespace Sys2Proof.Machine

/-! ### What a link says in training (R347) -/

/-- Its feature word: forwarding and event forwarding. -/
def ownFeatures : Nat := 3

/-- TRAIN's body (Table 12-7), field by field. -/
def State.trainArgs (s : State) (l : Nat) (seen : Bool) : List Nat :=
  [0xFF, ownMinor, 0xFF, 0xFF, 0xFF, 0xFF, 0xFF, 0xFF, ownFeatures, s.light.pod, s.light.pkg, l,
   flagIf seen 1 + 2 * s.rg (uToe (linkTile l)) TOE_CTL.ext_reach (dLink l), s.lg l LNK_STATUS.epoch, s.charOf ownMajor ownMinor]

/-- Both optical directions of a link are in SERVICE (R302). -/
def State.inService (s : State) (l : Nat) : Bool :=
  s.toeUp (linkTile l) && s.rg (uToe (linkTile l)) TOE_STATUS.stage (dLink l) == 5

/-! ### Who may use a position (R135, R136) -/

/-- The last offset of a cycle at which an entry owns its positions. -/
def State.posEntries (s : State) (l : Nat) : List (Nat × OptE) :=
  (s.ctxs.map (·.1)).flatMap (fun c =>
    if s.holdsCores c then ((s.ctx c).plan.optical.filter (fun e => e.link == l)).map (fun e => (c, e)) else [])

/-- The flows that own position `p` now, with their contexts, in order of flow. -/
def State.posOwners (s : State) (l p : Nat) : List (Nat × Nat) :=
  let own := (s.posEntries l).filter (fun x => bitsOf x.2.pos p 1 == 1 &&
    (match s.cycleOff x.1 with
     | some off => decide (x.2.first ≤ off) && decide (off ≤ x.2.last)
     | none => false))
  (own.map (fun x => (x.1, x.2.flow))).foldl (fun l x => l.takeWhile (fun y => y.2 ≤ x.2) ++ x :: l.dropWhile (fun y => y.2 ≤ x.2)) []

/-- The context that holds position `p`. -/
def State.posHolder (s : State) (l p : Nat) : Option Nat := ((s.posEntries l).find? (fun x => bitsOf x.2.pos p 1 == 1)).map (·.1)

/-- A planned flit is late past the last offset at which its flow owns a position of the link. -/
def State.lateFlit (s : State) (l : Nat) (m : LinkMsg) : Bool :=
  m.vc < 2 &&
  (match s.cycleOff m.ctx with
   | none => true
   | some off => ((s.ctx m.ctx).plan.optical.filter (fun e => e.link == l && e.flow == m.args.getD 1 0)).all (fun e => decide (e.last < off)))

/-- May a position carry a flit of a replay: its channel, and a planned flit's context (Table 12-4)? -/
def State.posCarries (s : State) (l p : Nat) (m : LinkMsg) : Bool :=
  if m.vc = 3 then p == 15
  else if m.vc = 2 then p == 15 || (s.posOwners l p).isEmpty
  else p != 15 && (s.posHolder l p == none || s.posHolder l p == some m.ctx)

/-! ### What a position sends (R339) -/

/-- The first message of the queue that `q` picks, if its channel has credit and window. -/
def State.mayGo (s : State) (l : Nat) (q : LinkMsg → Bool) : Option LinkMsg :=
  let k := s.link l
  (k.queue.find? q).filter (fun m => k.maySend m.vc (s.lg l LNK_STATUS.ext == 1))

/-- The owners of a position in turn: those after the flow that used one last come first. -/
def ownersFrom (last : Nat) (l : List (Nat × Nat)) : List (Nat × Nat) := l.filter (fun x => x.2 > last) ++ l.filter (fun x => x.2 ≤ last)

/-- The new flit for position `p`: an owner's, a late one, then control and unplanned. -/
def State.pickNew (s : State) (l p : Nat) : Option LinkMsg :=
  if p = 15 then
    match s.mayGo l (fun m => m.vc == 3) with
    | some m => some m
    | none => s.mayGo l (fun m => m.vc == 2)
  else
    let own := (ownersFrom (s.link l).lastFlow (s.posOwners l p)).findSome? (fun x =>
      s.mayGo l (fun m => m.vc < 2 && m.ctx == x.1 && m.args.getD 1 0 == x.2))
    let late := match s.posHolder l p with
      | some c => s.mayGo l (fun m => m.ctx == c && s.lateFlit l m)
      | none => s.mayGo l (s.lateFlit l)
    match own, late with
    | some m, _ => some m
    | none, some m => some m
    | none, none => s.mayGo l (fun m => m.vc == 2)

/-- Flit `n` of a direction joins its payload bits, of which those of earlier ticks have gone (R296). -/
def State.putBits (s : State) (l n : Nat) (m : LinkMsg) : State :=
  let o := mget s.opts l {}
  let w := s.rg (uToe (linkTile l)) TOE_STATUS.tx_width (dLink l)
  { s with opts := mput s.opts l { o with pay := o.pay + unle m.flit * 2 ^ (2048 * n - 10 * w * dataBy (s.tick - o.flitAt)) } }

/-- A flit sent, a replay too: for the context of a planned one, else for the package (Table 14-8). -/
def State.chargeFlit (s : State) (l : Nat) (m : LinkMsg) : State :=
  s.charge (if 0x10 ≤ m.type ∧ m.vc < 2 ∧ m.ctx < 64 then m.ctx else acctPkg) (linkTile l) 12 1

/-- Flit `n` leaves, with the header of its moment (R338). -/
def State.putFlit (s : State) (l n : Nat) (m : LinkMsg) : State :=
  let h := (s.link l).header
  let m := { m with hdr := h.1 }
  ({ s.setLink l h.2 with linkTx := s.linkTx ++ [m] }.putBits l n m).chargeFlit l m

/-- A new sequenced flit: numbered, counted, held, and the replay timer running (R337, R340, R343). -/
def State.sendNew (s : State) (l n : Nat) (m : LinkMsg) : State :=
  let k := s.link l
  let m' := { m with seq := k.next }
  (s.setLink l { k with
    next := (k.next + 1) % 2 ^ 16
    sent := listSet k.sent m.vc (listAt k.sent m.vc + 1)
    queue := k.queue.erase m
    held := k.held ++ [m']
    lastFlow := if m.vc < 2 then m.args.getD 1 0 else k.lastFlow
    timer := match k.timer with
      | some t => some t
      | none => some (s.tick + tauOf (s.lg l LNK_RTT.rtt_tk)) }).putFlit l n m'

/-- IDLE: its header alternates. Only one that tells the peer something new is kept in the trace of what was sent. -/
def State.sendIdle (s : State) (l n : Nat) : State :=
  let k := s.link l
  let h := k.header true
  let ack : Bool := k.ackDue || k.idleAck
  let news : Bool := if ack then k.ackDue || k.accSince != 0 || k.ackFrom.isSome
    else listAt k.told k.turn != listAt k.rfreed k.turn
  let m : LinkMsg := { link := l, type := 0, args := [], seq := k.next, hdr := h.1 }
  let s := ((s.setLink l h.2).putBits l n m).chargeFlit l m
  if news then { s with linkTx := s.linkTx ++ [m] } else s

/-- An unsequenced message of position 15: a PING takes its stamp as it goes (R346). -/
def State.sendUq (s : State) (l n : Nat) (m : LinkMsg) : State :=
  let k := s.link l
  let s := s.setLink l { k with uq := k.uq.erase m, pingAt := if m.type = 2 then s.tick else k.pingAt }
  s.putFlit l n { m with args := if m.type = 2 then [s.tick] else m.args, seq := k.next }

/-- The marker boundary of the transmit direction at this tick, or the next. -/
def State.nextBoundary (s : State) (l : Nat) : Nat :=
  let o := mget s.opts l {}
  let p := markerTk (s.rg (uToe (linkTile l)) TOE_STATUS.mode (dLink l))
  o.txBase + cdiv (s.tick - o.txBase) p * p

/-- A width of the transmit direction begins at the marker boundary: flits and positions count from there, the flit on its way is lost, and a
replay in progress goes on from oldest (R296, R339, Table 12-11). -/
def State.widthBoundary (s : State) (l : Nat) : State :=
  let k := s.link l
  { s.setLink l { k with replay := if k.replay = [] then [] else k.held } with
    opts := mput s.opts l { mget s.opts l {} with flitAt := s.nextBoundary l, pay := 0 } }

/-- One position of a link direction. -/
def State.position (s : State) (l n : Nat) : State :=
  let k := s.link l
  let p := n % 16
  let st := s.lg l LNK_STATUS.state
  match (if p = 15 ∧ st ≠ 4 then k.uq.head? else none), (if st = 2 ∨ st = 3 then k.replay else []) with
  | some m, _ => s.sendUq l n m
  | none, m :: rest =>
    if s.posCarries l p m then
      let s := s.setLink l { k with replay := rest }
      s.putFlit l n m
    else s.sendIdle l n
  | none, [] =>
    if st = 1 then
      (if p = 15 then s.putFlit l n { link := l, type := 1, args := s.trainArgs l k.gotTrain, seq := k.next } else s)
    else if st = 2 ∨ st = 3 then
      match s.pickNew l p with
      | some m => s.sendNew l n m
      | none => s.sendIdle l n
    else s

/-- What a link direction sends in a tick. -/
def State.linkTick (s : State) (l : Nat) : State :=
  let st := s.lg l LNK_STATUS.state
  let at_ := (mget s.opts l {}).flitAt
  if s.inService l ∧ 1 ≤ st ∧ st ≤ 3 ∧ s.tileUp (linkTile l) ∧ at_ ≤ s.tick then
    let w := s.rg (uToe (linkTile l)) TOE_STATUS.tx_width (dLink l)
    let a := flitsBy w (s.tick - at_)
    s.each (List.range (flitsBy w (s.tick + 1 - at_) - a)) (fun s i => s.position l (a + i))
  else s

def State.linkTicks (s : State) : State := s.each (s.links.map (·.1)) State.linkTick

end Sys2Proof.Machine
end

