-- ==== Sys2Proof/Machine/Link.lean ====
section
/-!
DEFINITION. The Ruino link layer: checks of received flits, acks and credits, training, the characteristic and quarantine, link down,
transfers and span operations between packages, and forwarding (chapter Ruino Link Layer).
-/

namespace Sys2Proof.Machine

/-- A link that is DOWN starts training once it is in SERVICE (R345, R346): TRAIN then goes in every position 15. -/
def State.trainLink (s : State) (l : Nat) : State :=
  if s.lg l LNK_STATUS.state = 0 ∧ s.inService l ∧ s.tileUp (linkTile l) then
    (s.ls l LNK_STATUS.state 1).setLink l { s.link l with gotTrain := false, agreed := false, pings := 0, rtt := 0, uq := [] }
  else s

/-! ### Link down and quarantine (R349, R351) -/

/-- Transfers of this package lose their link: each ends with error code 0x07. Their contexts are the caller's. -/
def State.failOuts (s : State) (l : Nat) (tags : Nat → Bool) : State :=
  let l' := (s.link l).out.filter (fun o => tags o.tag)
  let s := s.setLink l { s.link l with out := (s.link l).out.filter (fun o => !tags o.tag) }
  s.each l' (fun s o => s.issuedFail o.eng o.ctx 7 o.idx o.dla o.live)

/-- The contexts whose transfers over a link end so, other than those whose plans use the link, are aborted for 0x12 (R147). -/
def State.abortOuts (s : State) (cs : List Nat) : State := s.each cs (fun s c => s.abortCtx c 0x12)

def State.outCtxs (s : State) (l : Nat) (tags : Nat → Bool) : List Nat :=
  (((s.link l).out.filter (fun o => tags o.tag)).map (·.ctx)).eraseDups

/-- Data messages under way to a link leave the network; the transfers of other packages that were passed on over it are refused, as
their flits have no route. -/
def State.dropLinkRuns (s : State) (l : Nat) (p : LinkMsg → Bool) : State :=
  { s with net := s.net.filter (fun r => match r.msg with | some m => !(m.link == l && p m) | none => true) }

def State.failForwards (s : State) (l : Nat) : State :=
  s.each (s.links.map (·.1)) (fun s src =>
    s.each ((s.link src).xfers.filter (fun x => x.fwd == some l && x.good)) (fun s x =>
      ((s.setLink src { s.link src with xfers := (s.link src).xfers.map (fun y => if y = x then { y with good := false } else y) }).sendLink
        src 0x19 [x.pod, x.pkg, x.tag, 2])))

/-- The waiters that came over a link (R181). -/
def State.dropPeerWaits (s : State) (l : Nat) : State :=
  s.abandon (fun w => waiterIsPeer w.waiter && waiterLink w.waiter == l)

/-- A link that went down in this tick goes down once: the loss of an optical direction gives the cause, whatever took it down first
(Table 12-11). -/
def State.fellAlready (s : State) (l cause : Nat) : State :=
  let u := uTile (linkTile l)
  if cause = 1 ∧ s.lg l LNK_ERR.cause ≠ 1 then
    let fix (r : EvRec) : EvRec := if r.tick = s.tick ∧ r.code = 0x7001 ∧ r.unit = u ∧ r.object = l then { r with detail := 1 } else r
    let s := { s with ev := { s.ev with travel := s.ev.travel.map fix } }
    (s.ls l LNK_ERR.cause 1).ls l LNK_STATUS.state (if s.lg l LNK_CTL.hold = 1 then 5 else 0)
  else s.raise 0x7001 u l 0 cause true

/-- A link goes down (R351). One that is down already changes nothing: within the tick of its fall the event is subsumed. -/
def State.linkFall (s : State) (l cause : Nat) : State :=
  let st := s.lg l LNK_STATUS.state
  let u := uTile (linkTile l)
  if s.endedNow (oLink l) then s.fellAlready l cause
  else if st = 0 ∨ st ≥ 4 then s
  else
    let s := s.raise 0x7001 u l 0 cause
    let s := if (st = 2 ∨ st = 3) ∧ cause ≠ 1 ∧ cause ≠ 6 then
        { s with linkTx := s.linkTx ++
          [{ link := l, type := 0x31, args := [cause], seq := (s.link l).next, hdr := (s.link l).header.1 }] }
      else s
    let s := ((s.ls l LNK_ERR.cause cause).ls l LNK_ERR.tick_lo s.tick).linc l LNK_COUNTS.downs 1
    let s := (s.ls l LNK_STATUS.state (if s.lg l LNK_CTL.hold = 1 then 5 else 0)).markEnd (oLink l)
    let lost := s.outCtxs l (fun _ => true)
    let s := (((s.failOuts l (fun _ => true)).dropLinkRuns l (fun _ => true)).failForwards l).dropPeerWaits l
    let s := s.setLink l { epochLast := (s.link l).epochLast }
    let s := s.abortWhere (fun s c => s.cstate c != cFree && (s.ctx c).plan.usesLink l) 0x15
    (s.abortOuts lost).trainLink l

/-- An ACTIVE link is quarantined: planned and collective flits in its queue are dropped, and its plans abort (R349). The event's
detail has room for one of the two values: the own one. -/
def State.quarantine (s : State) (l : Nat) : State :=
  let s := (s.ls l LNK_STATUS.state 3).linc l LNK_COUNTS.quarantines 1
  let s := s.raise 0x7020 (uTile (linkTile l)) l 0 (s.lg l LNK_OWN_CHAR.value)
  let k := s.link l
  let tags := ((k.queue ++ s.net.filterMap (·.msg)).filter (fun m => m.link == l && m.vc < 2)).map (fun m => m.args.headD 0)
  let lost := s.outCtxs l (fun t => tags.contains t)
  let s := (s.setLink l { k with queue := k.queue.filter (fun m => 2 ≤ m.vc) }).dropLinkRuns l (fun m => m.vc < 2)
  let s := s.failOuts l (fun t => tags.contains t)
  let s := s.abortWhere (fun s c => s.cstate c != cFree && (s.ctx c).plan.usesLink l) 0x15
  s.abortOuts lost

/-! ### What every received flit passes (R341, R342, R344) -/

/-- A protocol error: the flit's type and the first failing check, and the link down with cause 0x04. -/
def State.protoError (s : State) (l type chk : Nat) : State :=
  let s := ((s.ls l LNK_ERR.ptype type).ls l LNK_ERR.pcheck chk).raise 0x7010 (uTile (linkTile l)) l 0 (type + chk * 2 ^ 8)
  s.linkFall l 4

def isData (type : Nat) : Bool := type == 0x10 || type == 0x11

/-- The acknowledged number and the freed count that a header carries (R341, R337). -/
def ackOf (k : Lnk) (f : FlitHdr) : Nat := (k.oldest + (f.ack + 2 ^ 12 - k.oldest % 2 ^ 12) % 2 ^ 12) % 2 ^ 16
def freedOf (k : Lnk) (f : FlitHdr) : Nat :=
  let v := listAt k.freed f.creditVc
  v + (f.freed + 2 ^ 11 - v % 2 ^ 11) % 2 ^ 11

/-- The first failing check of R344 that the header and the message show; `dst` is a data message's destination. -/
def State.flitCheck (s : State) (f : FlitHdr) (type : Nat) (rsv : Nat) (dst : Nat × Nat) : Option Nat :=
  let k := s.link f.link
  let st := s.lg f.link LNK_STATUS.state
  let live := st == 2 || st == 3
  if f.rsvBody ≠ 0 ∨ rsv ≠ 0 ∨ (!f.kind ∧ f.rsv ≠ 0) ∨ (isData type && f.vc == 3) ∨ (!isData type && f.vc != 3) then some 1
  else if (type ≠ 0 ∧ f.len = 0) ∨ f.len > (if type = 0x11 then 216 else 232) then some 2
  else if dst.1 > 32 ∨ dst.2 > 64 then some 4
  else if live ∧ ((!f.kind ∧ seqDiff (ackOf k f) k.oldest > seqDiff k.next k.oldest) ∨
      (f.kind ∧ freedOf k f > listAt k.sent f.creditVc)) then some 5
  else if type > 3 ∧ f.vc < 2 ∧ st = 3 then some 7
  else if live ∧ 1 ≤ type ∧ type ≤ 3 then some 8
  else none

/-- An ack or a credit return is applied: held flits below the ack are released, from a replay too, and the timer restarts or stops
(R343). -/
def State.applyHeader (s : State) (f : FlitHdr) : State :=
  let k := s.link f.link
  if f.kind then s.setLink f.link { k with freed := listSet k.freed f.creditVc (freedOf k f) }
  else
    let a := ackOf k f
    if a = k.oldest then s
    else s.setLink f.link { k with
      oldest := a, held := k.held.drop (seqDiff a k.oldest), tries := 0
      replay := k.replay.filter (fun m => seqDiff m.seq a < 2 ^ 15)
      timer := if a = k.next then none else some (s.tick + tauOf (s.lg f.link LNK_RTT.rtt_tk)) }

/-- The ack timer starts with the first flit accepted or found a duplicate. -/
def State.startAck (s : State) (l : Nat) : State :=
  let k := s.link l
  s.setLink l { k with ackFrom := match k.ackFrom with | some t => some t | none => some s.tick }

/-- A sequenced flit: accepted, a duplicate, or ahead of a lost one. Its entry is freed as the tile passes it on. -/
def State.sequence (s : State) (f : FlitHdr) (take : State → State) : State :=
  let l := f.link
  let k := s.link l
  let d := seqDiff f.seq k.expect
  if d = 0 then
    let n := k.accSince + 1
    let s := (s.setLink l { k with
      expect := (k.expect + 1) % 2 ^ 16, accSince := n, ackDue := k.ackDue || decide (n ≥ 32)
      rfreed := listSet k.rfreed f.vc (listAt k.rfreed f.vc + 1) }).startAck l
    let s := s.rs (uTile (linkTile l)) LNK_FLITS.accepted (s.lg l LNK_FLITS.accepted + 1) (dLink l)
    take s
  else if d ≥ 2 ^ 15 then (s.linc l LNK_COUNTS.discards 1).startAck l
  else s.linc l LNK_COUNTS.discards 1

/-- What a flit that passed its CRC meets, before `run`: nothing on a link without traffic; the checks; its header; its
sequence number. In TRAIN only the unsequenced types travel, in REFUSED only IDLE (Table 12-6). -/
def State.flitIn (s : State) (f : FlitHdr) (type : Nat) (rsv : Nat) (dst : Nat × Nat) (run : State → State) : State :=
  let st := s.lg f.link LNK_STATUS.state
  if !s.tileUp (linkTile f.link) ∨ st = 0 ∨ st ≥ 4 then s
  else
    match s.flitCheck f type rsv dst with
    | some n => s.protoError f.link type n
    | none =>
      if st = 1 then (if type ≤ 3 then run s else s)
      else
        let s := s.applyHeader f
        if type ≤ 3 then run s else s.sequence f run

/-- IDLE. -/
def execIdle (f : FlitHdr) (s : State) : Out := ok (s.flitIn f 0 0 (0, 0) id)

/-! ### Training (R346, R347) -/

/-- The peer that the light list names for a link, as pod and package; 0xFF for a dark one. -/
def State.peerOf (s : State) (l : Nat) : Nat × Nat :=
  match s.light.peers.find? (fun e => e.link == l) with
  | some e => (e.pod, e.pkg)
  | none => (0xFF, 0xFF)

/-- The minor version negotiated under major 1, if the peer supports it. -/
def minorWith (t : TrainMsg) : Option Nat :=
  match t.minors[1]? with
  | some m => if m = 0xFF then none else some (min m ownMinor)
  | none => none

/-- Steps 2 to 5 of R346, at the first TRAIN with seen = 1. -/
def State.agree (s : State) (l : Nat) (t : TrainMsg) : State :=
  let u := uTile (linkTile l)
  let p := s.peerOf l
  if p ≠ (t.pod, t.pkg) then
    (s.ls l LNK_STATUS.state 4).raise 0x7011 u l 0 (p.1 + p.2 * 2 ^ 8 + t.pod * 2 ^ 16 + t.pkg * 2 ^ 24)
  else
    match minorWith t with
    | none => (s.ls l LNK_STATUS.state 4).raise 0x7012 u l
    | some m =>
      let s := (s.ls l LNK_STATUS.major ownMajor).ls l LNK_STATUS.minor m
      let s := s.ls l LNK_PEER.features (if m = 0 then 0 else t.features &&& ownFeatures)
      let e := (Nat.max (s.lg l LNK_STATUS.epoch) t.epoch + 1) % 2 ^ 32
      let s := s.ls l LNK_STATUS.epoch (if e = 0 then 1 else e)
      let own := s.rg (uToe (linkTile l)) TOE_STATUS.ext (dLink l) == 1
      let s := s.ls l LNK_STATUS.ext (flagIf (own || t.ext) 1)
      let s := (s.ls l LNK_OWN_CHAR.value (s.charOf ownMajor m)).ls l LNK_PEER_CHAR.value t.char
      (s.setLink l { s.link l with agreed := true, pings := 0, rtt := 0 }).sendLink l 2 []

def trainEff (l : Nat) (t : TrainMsg) (s : State) : State :=
  let s := ((s.ls l LNK_PEER.pod t.pod).ls l LNK_PEER.pkg t.pkg).ls l LNK_PEER.link t.link
  let k := s.link l
  let s := s.setLink l { k with gotTrain := true, epochLast := t.epoch }
  if t.seen ∧ !k.agreed then s.agree l t else s

/-- TRAIN. -/
def execTrain (f : FlitHdr) (t : TrainMsg) (s : State) : Out := ok (s.flitIn f 1 0 (0, 0) (trainEff f.link t))

/-- PING. -/
def execPing (f : FlitHdr) (stamp : Nat) (s : State) : Out :=
  ok (s.flitIn f 2 0 (0, 0) (fun s => s.sendLink f.link 3 [stamp]))

/-- Steps 6 and 7 of R346. The value compared is the last one received: TRAIN carried it. -/
def State.finishTraining (s : State) (l rtt : Nat) : State :=
  let k := s.link l
  let s := (s.ls l LNK_RTT.rtt_tk rtt).ls l LNK_RTT.timeout_tk (tauOf rtt)
  let s := s.setLink l { epochLast := k.epochLast, gotTrain := true, agreed := true, pings := 16, rtt := rtt, uq := k.uq }
  let s := s.ls l LNK_FLITS.accepted 0
  let same : Bool := s.lg l LNK_OWN_CHAR.value == s.lg l LNK_PEER_CHAR.value
  let s := if same then s.ls l LNK_STATUS.state 2 else (s.ls l LNK_STATUS.state 3).linc l LNK_COUNTS.quarantines 1
  (s.raise 0x7002 (uTile (linkTile l)) l).sendChar l

/-- A PONG answers the PING under way: one of 16 measurements. -/
def pongEff (l stamp : Nat) (s : State) : State :=
  let k := s.link l
  if !k.agreed ∨ stamp ≠ k.pingAt ∨ k.pings ≥ 16 then s
  else
    let t := s.tick - stamp
    let best := if k.pings = 0 then t else min k.rtt t
    if k.pings + 1 = 16 then s.finishTraining l best
    else (s.setLink l { k with pings := k.pings + 1, rtt := best }).sendLink l 2 []

/-- PONG. -/
def execPong (f : FlitHdr) (stamp : Nat) (s : State) : Out := ok (s.flitIn f 3 0 (0, 0) (pongEff f.link stamp))

/-! ### Transfers (R223, R230, R354, R355) -/

def State.ownPkg (s : State) (pod pkg : Nat) : Bool := pod == s.light.pod && pkg == s.light.pkg

/-- The link that a message for another package leaves on: its peer's, ACTIVE, and not the one it came from (R352, R355). -/
def State.forwardLink (s : State) (from_ pod pkg : Nat) : Option Nat :=
  match s.light.peers.find? (fun e => e.pod == pod && e.pkg == pkg) with
  | some e =>
    let l := e.link
    if l ≠ from_ ∧ s.lg l LNK_STATUS.state = 2 ∧ s.tileUp (linkTile l) ∧ bitsOf (s.lg from_ LNK_PEER.features) 0 1 = 1 then some l
    else none
  | none => none

/-- The context that runs a plan here (R177, R223). -/
def State.ctxOfPlan (s : State) (planId : Nat) : Option Nat :=
  allCtx.find? (fun c => s.cstate c != cFree && (s.ctx c).plan.planId == planId)

/-- REFUSE for a transfer, on the link it came over. -/
def State.refusePeer (s : State) (l pod pkg tag cause : Nat) : State := s.sendLink l 0x19 [pod, pkg, tag, cause]

/-- Does a PA range still belong to one tile that is there (R204)? The pages of a VA range, as PA and bytes; `none` at a fault. -/
def State.pagesVa (s : State) (valid : Bool) (root : Nat) : Nat → Nat → Nat → Option (List (Nat × Nat))
  | 0, _, _ => some []
  | fuel + 1, va, n =>
    if n = 0 then some []
    else
      match s.walkFrom [] valid root va with
      | .page p =>
        if p.write then
          let run := min n (p.va + p.size - va)
          (s.pagesVa valid root fuel (va + run) (n - run)).map ((p.pa + (va - p.va), run) :: ·)
        else none
      | _ => none

/-- The way from a link's engine to a tile's memory. -/
def State.landPath (s : State) (l c : Nat) (flow : Option Nat) (t : Nat) : Option (List Nat) :=
  (s.route c flow (linkTile l) t).map (fromEngine (linkTile l) :: ·)

/-- A transfer is refused: REFUSE goes back, and what more comes of it is discarded (R230). -/
def State.refuseXfer (s : State) (l c : Nat) (x : PeerXfer) (va : Nat) : State :=
  let s := s.raise 0x4210 (uTile (linkTile l)) l 0 (c + va * 2 ^ 6)
  (s.refusePeer l x.pod x.pkg x.tag 1).setXfer l { x with good := false }

/-- The bytes of one flit set out to their destination. The first flit meets check 5 for the whole transfer (R223); each meets the
translation. DELIVERED goes once the last byte has landed. -/
def State.landFlit (s : State) (l : Nat) (x : PeerXfer) (first : Bool) (d : DataMsg) (data : List Byte) : State :=
  let x := { x with got := x.got + data.length }
  if !x.good then (if x.got ≥ x.total then s.dropXfer l x.tag else s.setXfer l x)
  else
    match s.ctxOfPlan x.plan with
    | none => s.refuseXfer l 0 x d.va
    | some c =>
      let r := s.ctxRoot c
      let flow := if x.flow = 0 then none else some x.flow
      if first ∧ !inPeerRegion (s.ctx c).plan.regions d.va x.total then s.refuseXfer l c x d.va
      else
        match s.pagesVa r.1 r.2 2 d.va data.length with
        | none => s.refuseXfer l c x d.va
        | some pages =>
          if pages.any (fun p => (s.landPath l c flow (paTile p.1)).isNone) then s.refuseXfer l c x d.va
          else
            (pages.foldl (fun (a : State × List Byte) p =>
              (a.1.launch { path := (s.landPath l c flow (paTile p.1)).getD [], a := p.1, tile := paTile p.1, data := a.2.take p.2
                            ctx := c, flow := flow, from_ := some (l, x.tag) }, a.2.drop p.2)) (s.setXfer l x, data)).1

/-- A flit of a transfer that goes on to another package, in the slots and positions of the own context of its plan (R354): vc 1 leaves
on vc 0. -/
def State.passFlit (s : State) (src out vc plan : Nat) (d : DataMsg) (x : Option XferHdr) (data : List Byte) : State :=
  let c := if vc < 2 then (s.ctxOfPlan plan).getD 64 else 64
  let flow := if vc < 2 then some d.flow else none
  let way := ((s.route c flow (linkTile src) (linkTile out)).getD [])
  s.launch
    { path := fromEngine (linkTile src) :: way ++ [toEngine (linkTile out)], a := 0, tile := linkTile out, data := [], ctx := c, flow := flow
      msg := some
        { link := out, type := if x.isSome then 0x11 else 0x10
          args := [d.tag, d.flow, d.dstPod, d.dstPkg, d.va] ++
            (match x with
             | some h => [h.planId, h.total, h.srcPod, h.srcPkg]
             | none => [])
          data := data, vc := if vc = 1 then 0 else vc, ctx := c } }

def writeFirstEff (f : FlitHdr) (d : DataMsg) (x : XferHdr) (s : State) : State :=
  let data := d.bytes.take f.len
  let p : PeerXfer :=
    { tag := d.tag, flow := d.flow, plan := x.planId, total := x.total, pod := d.dstPod, pkg := d.dstPkg, good := true }
  if s.ownPkg d.dstPod d.dstPkg then s.landFlit f.link p true d data
  else
    match s.forwardLink f.link d.dstPod d.dstPkg with
    | some out => (s.setXfer f.link { p with got := data.length, fwd := some out }).passFlit f.link out f.vc x.planId d (some x) data
    | none =>
      let s := s.raise 0x7030 (uTile (linkTile f.link)) f.link 0 (d.dstPod + d.dstPkg * 2 ^ 8)
      let s := s.refusePeer f.link d.dstPod d.dstPkg d.tag 2
      if data.length ≥ x.total then s else s.setXfer f.link { p with got := data.length, good := false }

/-- WRITE_FIRST. -/
def execWriteFirst (f : FlitHdr) (d : DataMsg) (x : XferHdr) (s : State) : Out :=
  ok (s.flitIn f 0x11 d.rsv (d.dstPod, d.dstPkg) (writeFirstEff f d x))

def writeEff (f : FlitHdr) (d : DataMsg) (s : State) : State :=
  let data := d.bytes.take f.len
  match (s.link f.link).xfers.find? (fun x => x.tag == d.tag) with
  | none => s.protoError f.link 0x10 3
  | some x =>
    match x.fwd with
    | none => s.landFlit f.link x false d data
    | some out =>
      if x.good then (s.setXfer f.link { x with got := x.got + data.length }).passFlit f.link out f.vc x.plan d none data else s

/-- WRITE. -/
def execWrite (f : FlitHdr) (d : DataMsg) (s : State) : Out :=
  ok (s.flitIn f 0x10 d.rsv (d.dstPod, d.dstPkg) (writeEff f d))

/-- The link over which a forwarded transfer came, by its tag and destination. -/
def State.cameFrom (s : State) (out pod pkg tag : Nat) : Option Nat :=
  (s.links.find? (fun e => e.2.xfers.any (fun x => x.fwd == some out && x.pod == pod && x.pkg == pkg && x.tag == tag))).map (·.1)

/-- The transfer of this package that an answer names. -/
def State.outOf (s : State) (l pod pkg tag : Nat) : Option OutXfer :=
  (s.link l).out.find? (fun o => o.tag == tag && o.pod == pod && o.pkg == pkg)

def State.dropOut (s : State) (l : Nat) (o : OutXfer) : State :=
  s.setLink l { s.link l with out := (s.link l).out.erase o }

def deliveredEff (l pod pkg tag : Nat) (s : State) : State :=
  match s.outOf l pod pkg tag with
  | some o => s.dropOut l o
  | none =>
    match s.cameFrom l pod pkg tag with
    | some src => (s.dropXfer src tag).sendLink src 0x18 [pod, pkg, tag]
    | none => s

/-- DELIVERED. -/
def execDelivered (f : FlitHdr) (pod pkg tag : Nat) (s : State) : Out :=
  ok (s.flitIn f 0x18 0 (pod, pkg) (deliveredEff f.link pod pkg tag))

/-- A refusal ends the transfer it names, whose command may have completed already (R230). -/
def refuseEff (l pod pkg tag cause : Nat) (s : State) : State :=
  match s.outOf l pod pkg tag with
  | some o => (s.dropOut l o).issuedError o.eng o.ctx 8 o.idx o.dla o.live
  | none =>
    match s.cameFrom l pod pkg tag with
    | some src =>
      let k := s.link src
      let s := s.setLink src { k with xfers := k.xfers.map (fun x => if x.tag = tag then { x with good := false } else x) }
      s.sendLink src 0x19 [pod, pkg, tag, cause]
    | none => s

/-- REFUSE (R230, R355). -/
def execRefuse (f : FlitHdr) (pod pkg tag cause : Nat) (s : State) : Out :=
  ok (s.flitIn f 0x19 0 (pod, pkg) (refuseEff f.link pod pkg tag cause))

/-! ### Span operations between packages (R177, R181, R183, R354) -/

def kindOf (op : Nat) : Option SpanKind :=
  if op = 1 then some .signal else if op = 2 then some .wait else if op = 3 then some .take else if op = 4 then some .arrive else none

def peerWaiter (l w : Nat) : Nat := 2 * 2 ^ 22 + l * 2 ^ 12 + w % 2 ^ 12

/-- An ID names this package, though it leads to no object (R175). -/
def State.spanMine (s : State) (id : Nat) : Bool :=
  (spanPod id == 0x3F || spanPod id == s.light.pod) && (spanPkg id == 0x7F || spanPkg id == s.light.pkg)

/-- A SYNC_OP: posted at its home hub here, sent on to its package, or refused. -/
def syncOpEff (l : Nat) (o : PeerOp) (s : State) : State :=
  let u := uTile (linkTile l)
  let w := peerWaiter l o.waiter
  let refused (s : State) : State := s.sendLink l 0x21 [o.waiter, o.span, rRefused, s.tick]
  match kindOf o.op with
  | none => refused (s.raise 0x3020 u o.span w)
  | some kind =>
    match s.spanDest true o.span with
    | .here t _ =>
      if spanBarrier o.span ≠ decide (kind = .arrive) ∨ !timeoutOk o.timeout then refused (s.raise 0x3020 (uTile t) o.span w)
      else
        s.post t { kind := kind, obj := o.span, value := o.value, waiter := w, unit := uToe (linkTile l), ctx := 64, reg := s.tick
                   expire := s.tick + timeoutTk (s.rg (uTile t) SYN_TIMEOUT_DEF.default_tk) o.timeout
                   crc := o.crc, plan := some o.planId, origin := o.waiter }
    | .peer pod pkg =>
      (match s.forwardLink l pod pkg with
       | some out =>
         let s := if kind = .signal then s
           else s.setLink out { s.link out with fwds := (s.link out).fwds ++ [⟨o.waiter, o.span, l⟩] }
         s.sendLink out 0x20 [o.op, o.span, o.value, o.timeout, o.waiter, o.planId, o.crc]
       | none => refused (s.raise 0x7030 u l 0 (pod + pkg * 2 ^ 8)))
    | .bad =>
      if s.spanMine o.span then refused (s.raise 0x3020 u o.span w)
      else refused (s.raise 0x7030 u l 0 (spanPod o.span + spanPkg o.span * 2 ^ 8))

/-- SYNC_OP. -/
def execSyncOp (f : FlitHdr) (o : PeerOp) (s : State) : Out := ok (s.flitIn f 0x20 0 (0, 0) (syncOpEff f.link o))

/-- Does a sync unit's head command hold a span operation on this physical ID? -/
def State.headSpan (s : State) (k span : Nat) : Bool :=
  match (s.eng k).queue, s.coreCtx (engCore k) with
  | w :: _, some c => (s.eng k).phase == .span && (s.resolve (keyDie k) c (syncObj w)).1 == span
  | _, _ => false

/-- The contexts that hold a barrier whose releases signal a physical ID from the hub of a tile. -/
def State.relHolders (s : State) (t span : Nat) : List Nat :=
  ((s.hub t).objs.filterMap (fun e => match e.2.held with
    | some c => if e.1 ≥ 4096 ∧ descRelEn e.2.desc ∧ (s.resolve t c (descRelObj e.2.desc)).1 = span then some c else none
    | none => none)).eraseDups

/-- The outcome of an operation of this package's sync unit, service or hub, or of one that was sent on. -/
def syncResultEff (l w span outcome tick : Nat) (s : State) : State :=
  match (s.link l).fwds.find? (fun x => x.waiter == w && x.span == span) with
  | some x =>
    let s := s.setLink l { s.link l with fwds := (s.link l).fwds.erase x }
    s.sendLink x.from_ 0x21 [w, span, outcome, tick]
  | none =>
    if waiterIsService w then
      let t := waiterTile w
      if w % 4 = 3 then (if outcome = rRefused then s.each (s.relHolders t span) (fun s c => s.abortCtx c 0x10) else s)
      else if !(s.serv t).waiting then s
      else if outcome = rTimedOut then (s.servDone t false).servWait t
      else s.servDone t (outcome == rReleased)
    else if !waiterIsEngine w then s
    else if s.headSpan w span then
      (if outcome = rReleased then s.issuedFree w
       else if outcome = rTimedOut then (s.endHead w 6).abortCore (engCore w) 0x13
       else s.rejectHead w 1)
    else if outcome = rRefused then s.abortCore (engCore w) 0x10
    else s

/-- SYNC_RESULT. -/
def execSyncResult (f : FlitHdr) (waiter span outcome tick : Nat) (s : State) : Out :=
  ok (s.flitIn f 0x21 0 (0, 0) (syncResultEff f.link waiter span outcome tick))

/-- The members here, by core mask, and those whose arrivals were sent on. -/
def barrierRelEff (l span gen mask : Nat) (s : State) : State :=
  let back := ((s.link l).fwds.filter (fun x => x.span == span)).map (·.from_)
  let s := s.setLink l { s.link l with fwds := (s.link l).fwds.filter (fun x => x.span != span) }
  let s := s.each back.eraseDups (fun s b => s.sendLink b 0x22 [span, gen, mask])
  s.each ((s.engs.map (·.1)).filter (fun k => keyEng k == 7 && bitsOf mask (keyCore k) 1 == 1 && s.headSpan k span)) State.issuedFree

/-- BARRIER_REL. -/
def execBarrierRel (f : FlitHdr) (span gen mask : Nat) (s : State) : Out :=
  ok (s.flitIn f 0x22 0 (0, 0) (barrierRelEff f.link span gen mask))

/-! ### Characteristics, link down, events and plans -/

/-- The value last received, compared with the own one. -/
def State.compareChar (s : State) (l : Nat) : State :=
  let s := s.setLink l { s.link l with charDue := false }
  let st := s.lg l LNK_STATUS.state
  let same : Bool := s.lg l LNK_PEER_CHAR.value == s.lg l LNK_OWN_CHAR.value
  if same ∧ st = 3 then (s.ls l LNK_STATUS.state 2).raise 0x7021 (uTile (linkTile l)) l
  else if !same ∧ st = 2 then s.quarantine l
  else s

/-- What may still change the own value, or take the link down, in this tick comes before the comparison (Table 12-11). -/
def charWaits (l : Nat) (i : Instr) : Bool :=
  match i with
  | .epochSet _ _ => true
  | .linkDown f _ => f.link == l
  | .lnkCtlDown k => k == l
  | .litCheck k => k == l
  | .opticalEngineReset u => u == uToe (linkTile l)
  | .tileReset u => u == uTile (linkTile l)
  | _ => false

def charEff (l v : Nat) (s : State) : State :=
  let s := s.ls l LNK_PEER_CHAR.value v
  if s.soon (charWaits l) then s.setLink l { s.link l with charDue := true } else s.compareChar l

/-- At the end of the tick, what is yet to be compared. -/
def State.compareChars (s : State) : State :=
  s.each ((s.links.filter (fun e => e.2.charDue)).map (·.1)) State.compareChar

/-- CHAR. -/
def execChar (f : FlitHdr) (value : Nat) (s : State) : Out := ok (s.flitIn f 0x30 0 (0, 0) (charEff f.link value))

/-- CHAR_PERIOD. -/
def execCharPeriod (link : Nat) (s : State) : Out :=
  let st := s.lg link LNK_STATUS.state
  if s.tileUp (linkTile link) ∧ (st = 2 ∨ st = 3) ∧ s.tick ≥ (s.link link).charAt then ok (s.sendChar link) else ok s

/-- LINK_DOWN received. -/
def execLinkDown (f : FlitHdr) (_cause : Nat) (s : State) : Out := ok (s.flitIn f 0x31 0 (0, 0) (fun s => s.linkFall f.link 2))

/-- A forwarded record and its annotation (R450). -/
def eventEff (l : Nat) (r : EvRec) (s : State) : State :=
  let s := s.append { r with forwarded := true, pkg := s.lg l LNK_PEER.pkg, pod := s.lg l LNK_PEER.pod }
  s.append { tick := s.tick, code := 0x0001, unit := uTile (linkTile l), prec := 11, object := s.lg l LNK_STATUS.epoch
             waiter := l, detail := s.lg l LNK_FLITS.accepted }

/-- EVENT. -/
def execEvent (f : FlitHdr) (r : EvRec) (s : State) : Out := ok (s.flitIn f 0x34 0 (0, 0) (eventEff f.link r))

/-- PLAN_CTL (R148). -/
def execPlanCtl (f : FlitHdr) (planId what : Nat) (s : State) : Out :=
  ok (s.flitIn f 0x33 0 (0, 0) (planCtlEff f.link planId what))

/-! ### Timers, failed flits and LNK_CTL -/

/-- REPLAY_TIMEOUT: every held flit again, in order, in the positions of its channel (R339); the 16th without ack progress takes the
link down. An ack of the same tick that advances oldest is applied first (Table 12-11). -/
def execReplayTimeout (link : Nat) (s : State) : Out :=
  s.inTurn (.replayTimeout link) (fun s =>
    let k := s.link link
    match k.timer with
    | none => ok s
    | some t =>
      if s.tick < t ∨ !s.tileUp (linkTile link) then ok s
      else
        let s := s.linc link LNK_COUNTS.replays 1
        if k.tries + 1 = 16 then ok (s.linkFall link 3)
        else
          ok (s.setLink link { k with
            tries := k.tries + 1, timer := some (s.tick + tauOf (s.lg link LNK_RTT.rtt_tk)), replay := k.held }))

/-- ACK_DUE_TIMEOUT: 256 ns are 25.6 tk. -/
def execAckDueTimeout (link : Nat) (s : State) : Out :=
  let k := s.link link
  match k.ackFrom with
  | some t =>
    if s.tick ≥ t + 26 ∧ s.tileUp (linkTile link) then ok (s.setLink link { k with ackDue := true }) else ok s
  | none => ok s

/-- CRC_FAILED_FLIT: discarded with its header, and counted; a flagged flit counts as one. -/
def execCrcFailedFlit (link : Nat) (s : State) : Out :=
  let st := s.lg link LNK_STATUS.state
  if s.tileUp (linkTile link) ∧ 1 ≤ st ∧ st ≤ 4 then ok (s.linc link LNK_COUNTS.crc_fails 1) else ok s

def lnkCtlDownEff (l : Nat) (s : State) : State := if s.tileUp (linkTile l) then s.linkFall l 5 else s

/-- LNK_CTL_DOWN. -/
def execLnkCtlDown (link : Nat) (s : State) : Out := s.inTurn (.lnkCtlDown link) (fun s => ok (lnkCtlDownEff link s))

/-- REFUSED is left for DOWN, and the link trains again. -/
def lnkCtlTrainEff (l : Nat) (s : State) : State :=
  if s.tileUp (linkTile l) ∧ s.lg l LNK_STATUS.state = 4 then
    (s.ls l LNK_STATUS.state (if s.lg l LNK_CTL.hold = 1 then 5 else 0)).trainLink l
  else s

/-- LNK_CTL_TRAIN. -/
def execLnkCtlTrain (link : Nat) (s : State) : Out := ok (lnkCtlTrainEff link s)

/-- LNK_CTL.hold: a link that is DOWN is HELD while it is 1, and trains again once it is 0. -/
def lnkHold (l v : Nat) (s : State) : State :=
  let s := s.ls l LNK_CTL.hold v
  let st := s.lg l LNK_STATUS.state
  if v = 1 ∧ st = 0 then s.ls l LNK_STATUS.state 5
  else if v = 0 ∧ st = 5 then (s.ls l LNK_STATUS.state 0).trainLink l
  else s

end Sys2Proof.Machine
end

