-- ==== Sys2Proof/Machine/Optics.lean ====
section
/-!
DEFINITION. The Trelip optical engine: safety states, bring-up, tests, mode steps, maps (chapter The Trelip Optical Engine).
-/

namespace Sys2Proof.Machine

/-! ### Links and wavelengths of an engine -/

def State.opt (s : State) (l : Nat) : OptSt := mget s.opts l {}
def State.setOpt (s : State) (l : Nat) (o : OptSt) : State := { s with opts := mput s.opts l o }
def waveKey (l : Nat) (tx : Bool) (lam : Nat) : Nat := (l * 2 + (if tx then 1 else 0)) * 16 + lam
def State.wave (s : State) (l : Nat) (tx : Bool) (lam : Nat) : Wave := mget s.waves (waveKey l tx lam) {}
def State.setWave (s : State) (l : Nat) (tx : Bool) (lam : Nat) (w : Wave) : State :=
  { s with waves := mput s.waves (waveKey l tx lam) w }

/-- TOE registers of a link; `d` selects a wavelength's view. -/
def State.og (s : State) (l : Nat) (f : Fld) (d : Nat := 0) : Nat := s.rg (uToe (linkTile l)) f (dLink l + d)
def State.os (s : State) (l : Nat) (f : Fld) (v : Nat) (d : Nat := 0) : State := s.rs (uToe (linkTile l)) f v (dLink l + d)
def State.oinc (s : State) (l : Nat) (f : Fld) (n : Nat) (d : Nat := 0) : State := s.rinc (uToe (linkTile l)) f n (dLink l + d)

/-- The wavelengths of a direction that are not fused as retired (R281). -/
def State.lams (s : State) (l : Nat) (tx : Bool) : List Nat :=
  (List.range 10).filter (fun n => !s.fuses.retired.contains (waveKey l tx n))

/-- Every wave of a link, as direction and wavelength. -/
def State.wavesOf (s : State) (l : Nat) : List (Bool × Nat) :=
  (s.lams l true).map (fun n => (true, n)) ++ (s.lams l false).map (fun n => (false, n))

/-- A link the light list leaves dark. -/
def State.darkLink (s : State) (l : Nat) : Bool := !s.light.peers.any (fun e => e.link == l)

/-- Role of a wavelength in a map word (Table 10-14). -/
def roleAt (map n : Nat) : Nat := map / 16 ^ n % 16
def setRole (map n r : Nat) : Nat := map - roleAt map n * 16 ^ n + r * 16 ^ n
def noRoles : Nat := 0xFFFFFFFFFF

/-- The map of R302: lanes 0 to 7 on the good wavelengths in increasing order, the others spares. -/
def buildMap (good : List Nat) : Nat := good.zipIdx.foldl (fun m p => setRole m p.1 (if p.2 < 8 then p.2 else 0xE)) noRoles

/-- Data lanes of a map. -/
def mapWidth (map : Nat) : Nat := ((List.range 10).filter (fun n => roleAt map n < 8)).length

/-! ### Calibrated outputs (R322, R323) -/

/-- Numerator over 120 of the interpolation of sets for 25, 55 and 85 °C at a temperature in quarter degrees. -/
def interpNum (set : List Int) (t : Int) : Int :=
  let a := set.getD 0 0
  let b := set.getD 1 0
  let c := set.getD 2 0
  if t ≤ 100 then 120 * a
  else if t ≤ 220 then 120 * a + (b - a) * (t - 100)
  else if t ≤ 340 then 120 * b + (c - b) * (t - 220)
  else 120 * c

/-- The output of an item at a temperature. -/
def interp (set : List Int) (t : Int) : Int := roundHalfEven (interpNum set t) 120

/-- Items of a wave: eight of the transmit end, in the order of Table 11-3, or the drop ring bias. -/
def items (tx : Bool) : Nat := if tx then 8 else 1

def State.fusedSets (s : State) (k : Nat) : List (List Int) := mget s.fuses.sets k []
def State.fusedBands (s : State) (k : Nat) : List (List Int) := mget s.fuses.bands k []

/-- The outputs of a wave at the link's temperature: interpolated once a run has been accepted, else those of the band. -/
def State.outsAt (s : State) (l : Nat) (tx : Bool) (lam : Nat) : List Int :=
  let k := waveKey l tx lam
  let w := s.wave l tx lam
  let sets := w.sets.getD (s.fusedSets k)
  if w.calOk then (List.range (items tx)).map (fun i => interp (sets.getD i []) (s.opt l).temp)
  else
    let band := s.rg (uTile (linkTile l)) THM_STATUS.band_toe
    (List.range (items tx)).map (fun i => ((s.fusedBands k).getD i []).getD band 0)

/-- The calibrated point of a ring, a heater code (R314). -/
def State.calPoint (s : State) (l : Nat) (tx : Bool) (lam : Nat) : Nat :=
  ((s.wave l tx lam).outs.getD (if tx then 1 else 0) 0).toNat

/-- The registers that show a wave's outputs and heater. -/
def State.showWave (s : State) (l : Nat) (tx : Bool) (lam : Nat) : State :=
  let w := s.wave l tx lam
  let d := win lam
  let o (i : Nat) : Int := w.outs.getD i 0
  if tx then
    let s := s.os l TOE_LANE_DRV.lvl ((List.range 4).foldl (fun v i => v + twos 6 (o (2 + i)) * 64 ^ i) 0) d
    let s := (s.os l TOE_LANE_DRV.pre (twos 5 (o 6)) d).os l TOE_LANE_DRV.post (twos 5 (o 7)) d
    (s.os l TOE_RING.tx_heater w.heater d).os l TOE_RING.tx_lock w.lock d
  else (s.os l TOE_RING.rx_heater w.heater d).os l TOE_RING.rx_lock w.lock d

/-- Outputs taken anew, but for a wave whose run is in progress (R321). -/
def State.takeOuts (s : State) (l : Nat) (tx : Bool) (lam : Nat) : State :=
  let w := s.wave l tx lam
  let s := if w.runAt.isSome ∧ w.outs ≠ [] then s else s.setWave l tx lam { w with outs := s.outsAt l tx lam }
  s.showWave l tx lam

/-- The sum of a laser's bias code over the ticks of the hour, up to now (R327). -/
def State.sumBias (s : State) (l n : Nat) : State :=
  let w := s.wave l true n
  s.setWave l true n { w with biasSum := w.biasSum + s.og l TOE_LANE_ANA.bias (win n) * (s.tick - w.biasAt), biasAt := s.tick }

/-- Bias codes of the lasers (R280, R284): calibrated in LIT, one pilot in PILOT and HOLD (its code is not stated: free), none in OFF. -/
def State.setBias (s : State) (l : Nat) : State :=
  let st := s.og l TOE_STATUS.safety
  let up := (s.lams l true).filter (fun n => !(s.wave l true n).retired)
  (List.range 10).foldl (fun s n =>
    let s := s.sumBias l n
    let ceil := mget s.fuses.ceilings (waveKey l true n) 1023
    if st = 2 ∧ up.contains n then s.os l TOE_LANE_ANA.bias (min ceil ((s.wave l true n).outs.getD 0 0).toNat) (win n)
    else if (st = 1 ∨ st = 3) ∧ up.head? = some n then
      let r := s.free
      r.2.os l TOE_LANE_ANA.bias (min ceil (r.1 % 1024)) (win n)
    else s.os l TOE_LANE_ANA.bias 0 (win n)) s

/-- TOE_STATUS.lock_state. -/
def State.noteLock (s : State) (l : Nat) : State :=
  let locks := (s.wavesOf l).map (fun p => (s.wave l p.1 p.2).lock)
  let v := if locks.any (fun x => x == 1 || x == 2 || x == 4) then 1
    else if !locks.contains 3 then 0
    else if locks.all (fun x => x == 3 || x == 5) then 2 else 1
  s.os l TOE_STATUS.lock_state v

/-! ### Leaving SERVICE -/

/-- Sparing and calibration of a link are abandoned; held values are kept (Table 11-6). -/
def State.stopSparing (s : State) (l : Nat) : State :=
  let o := s.opt l
  let s := if o.rxAct.isSome then s.oinc l TOE_SPARE.aborts 1 else s
  let s := (s.setOpt l { o with rxAct := none, txAct := none, want := [], asked := [] }).os l TOE_SPARE.rx_action 0
  s.each (s.wavesOf l) (fun s p =>
    let w := s.wave l p.1 p.2
    if w.runAt.isSome then
      ((s.setWave l p.1 p.2 { w with runAt := none, dueAt := some s.tick }).os l TOE_CAL.running 0 (win p.2)).os l
        TOE_LANE_DRV.stale 0 (win p.2)
    else s)

/-- No map, no width, no epoch. -/
def State.clearMaps (s : State) (l : Nat) : State :=
  let s := (s.os l TOE_TX_MAP.role noRoles).os l TOE_RX_MAP.role noRoles
  let s := ((s.os l TOE_STATUS.tx_width 0).os l TOE_STATUS.rx_width 0).widthBoundary l
  let s := (s.os l TOE_STATUS.tx_epoch 0).os l TOE_STATUS.rx_epoch 0
  (s.os l TOE_SPARE.tx_free 0).os l TOE_SPARE.rx_free 0

/-- A stage other than SERVICE: a link that was in SERVICE goes down with cause 0x01 (R285, R351). -/
def State.leaveService (s : State) (l stage : Nat) : State :=
  let old := s.og l TOE_STATUS.stage
  let s := s.os l TOE_STATUS.stage stage
  if old = 5 then ((s.stopSparing l).clearMaps l).linkFall l 1 else s

/-- A safety state; any but LIT ends bring-up (Table 10-7). -/
def State.setSafety (s : State) (l st : Nat) : State :=
  let s := (s.os l TOE_STATUS.safety st).setOpt l { s.opt l with at_ := s.tick, armed := false }
  let s := if st = 2 then s else ((s.leaveService l 0).clearMaps l).os l TOE_STATUS.mode 0
  s.setBias l

/-! ### The own markers and symbols (R292, R295) -/

/-- The count of the own transmit direction. -/
def State.txCount (s : State) (l : Nat) : Nat :=
  ((s.opt l).txM0 + (s.tick - (s.opt l).txBase) / markerTk (s.og l TOE_STATUS.mode)) % 2 ^ 16

/-- The marker that a wavelength sends in this period: go for four boundaries, ready once the test at the own mode is passed (R301). -/
def State.txMarker (s : State) (l n : Nat) : Nat :=
  let o := s.opt l
  let mode := s.og l TOE_STATUS.mode
  let at_ := o.txBase + (s.tick - o.txBase) / markerTk mode * markerTk mode
  markerWord (roleAt (s.og l TOE_TX_MAP.role) n) n (s.og l TOE_STATUS.tx_epoch) mode (o.goAt.any (fun g => decide (g ≤ at_) && decide (at_ < g + 4 * markerTk mode)))
    (decide (o.passed > mode)) o.good (s.txCount l)

/-- A tick of a wavelength's transmitter: a marker or codewords, as levels and DAC codes. A lane of the map takes its symbols of the
direction's payload, any other zeros (R294, R296). -/
def State.waveTick (s : State) (l n : Nat) : State :=
  let o := s.opt l
  let mode := s.og l TOE_STATUS.mode
  let w := s.wave l true n
  let lane := roleAt (s.og l TOE_TX_MAP.role) n
  let width := s.og l TOE_STATUS.tx_width
  let x := if s.tick = o.txBase ∨ s.tick = o.flitAt then { w.tx with n := 0, par := noParity } else w.tx
  let data (j : Nat) : Nat :=
    if lane < 8 ∧ s.og l TOE_STATUS.stage = 5 ∧ o.flitAt ≤ s.tick then bitsOf o.pay (10 * (lane + width * j)) 10 else 0
  let r := TxLine.run (s.txMarker l n) (scrSeed (s.txCount l) n) data (symbolsTk mode)
    ((s.tick - o.txBase) * symbolsTk mode % 16384) 0 x
  let lev := x.lev ++ lineLevels mode (r.1.flatMap symbolBits)
  s.setWave l true n { w with tx := { r.2 with lev := lev.drop (lev.length - 2), codes := dacCodes (w.outs.drop 2) lev } }

/-- A tick of a link's transmitter: in LIT, from the first TEST on, every laser that is lit sends. -/
def State.lineTick (s : State) (l : Nat) : State :=
  if s.toeUp (linkTile l) ∧ s.og l TOE_STATUS.safety = 2 ∧ 2 ≤ s.og l TOE_STATUS.stage then
    let s := s.each ((s.lams l true).filter (fun n => !(s.wave l true n).retired)) (fun s n => s.waveTick l n)
    let o := s.opt l
    let d := s.tick - o.flitAt
    if s.og l TOE_STATUS.stage = 5 ∧ o.flitAt ≤ s.tick then
      s.setOpt l { o with pay := o.pay / 2 ^ (10 * s.og l TOE_STATUS.tx_width * (dataBy (d + 1) - dataBy d)) }
    else s
  else s

def State.lineTicks (s : State) : State := s.each (s.opts.map (·.1)) State.lineTick

/-! ### Bring-up (R300 to R303) -/

/-- The counts of a test at zero. -/
def State.clearTest (s : State) (l : Nat) : State :=
  s.each (s.lams l false) (fun s n =>
    s.setWave l false n { s.wave l false n with tN := 0, tFixed := 0, tBad := 0, tMargin := 63 })

/-- Codewords and thresholds of the receive direction begin anew with a mode or a width (R290, R292). -/
def State.clearLine (s : State) (l : Nat) : State :=
  s.each (s.lams l false) (fun s n => s.setWave l false n { s.wave l false n with part := [], hist := [], histN := 0 })

/-- TEST at NRZ32: what was retired or failed until the next bring-up returns (R331). -/
def State.startTest (s : State) (l : Nat) : State :=
  let s := ((s.leaveService l 2).os l TOE_STATUS.mode 0).setOpt l { (s.leaveService l 2).opt l with txBase := s.tick, txM0 := 0 }
  let s := s.clearMaps l
  let s := s.os l TOE_STATUS.ext (s.og l TOE_CTL.ext_reach)
  let s := s.each (s.wavesOf l) (fun s p =>
    let w := s.wave l p.1 p.2
    let w := { w with retired := false, failed := false, rejects := 0, fading := false, badRun := 0, wOver := 0, wFixed := 0, wN := 0 }
    let s := s.os l TOE_FADE.triggered 0 (win p.2)
    if w.lock = 5 then (s.setWave l p.1 p.2 { w with lock := 1, heater := w.start, sweep := 0, found := false, calm := 0 }).showWave l p.1 p.2
    else s.setWave l p.1 p.2 w)
  let s := s.setOpt l { s.opt l with
    rxMode := 0, testAt := s.tick, passed := 0, good := 0, ready := 0, goAt := none, agree := 0, perOk := false, rdyOk := false
    pReady := false, pMode := 0, pGood := 0 }
  ((s.clearTest l).clearLine l).setBias l

/-- WAIT, with its event and count (R303). -/
def State.toWait (s : State) (l : Nat) : State :=
  let s := (s.raise 0x6002 (uToe (linkTile l)) l).oinc l TOE_COUNTS.failures 1
  (s.setOpt l { s.opt l with waitAt := s.tick }).leaveService l 6

/-- LOCK is over once every ring has locked or failed. -/
def State.lockDone (s : State) (l : Nat) : State :=
  let s := s.noteLock l
  if s.og l TOE_STATUS.stage = 1 ∧ (s.wavesOf l).all (fun p => (s.wave l p.1 p.2).lock == 3 || (s.wave l p.1 p.2).lock == 5) then
    s.startTest l
  else s

/-- A ring begins ACQUIRE from its calibrated point. -/
def State.acquire (s : State) (l : Nat) (p : Bool × Nat) : State :=
  let s := s.takeOuts l p.1 p.2
  let w := s.wave l p.1 p.2
  if w.lock = 0 ∨ w.lock = 5 then
    let c := s.calPoint l p.1 p.2
    (s.setWave l p.1 p.2 { w with lock := 1, start := c, heater := c, sweep := 0, found := false, calm := 0, limit := 0 }).showWave l p.1 p.2
  else s

def State.freeSpares (s : State) (l : Nat) (tx : Bool) : List Nat :=
  let map := s.og l (if tx then TOE_TX_MAP.role else TOE_RX_MAP.role)
  (List.range 10).filter (fun n => roleAt map n == 0xE && !(s.wave l tx n).retired && !(s.wave l tx n).failed)

/-- TOE_SPARE's counts of free spares. -/
def State.noteSpares (s : State) (l : Nat) : State :=
  (s.os l TOE_SPARE.tx_free (s.freeSpares l true).length).os l TOE_SPARE.rx_free (s.freeSpares l false).length

/-- Maps of both directions, at epoch 1 (R302). -/
def State.toAgree (s : State) (l : Nat) : State :=
  let o := s.opt l
  let rx := buildMap (bitsSet 10 o.good)
  let tx := buildMap ((bitsSet 10 o.pGood).filter (fun n => (s.lams l true).contains n))
  let s := (s.os l TOE_RX_MAP.role rx).os l TOE_TX_MAP.role tx
  let s := (s.os l TOE_STATUS.rx_width (mapWidth rx)).os l TOE_STATUS.tx_width (mapWidth tx)
  let s := (s.os l TOE_STATUS.rx_epoch 1).os l TOE_STATUS.tx_epoch 1
  let s := ((s.setOpt l { o with agree := 0, perOk := false }).os l TOE_STATUS.stage 4).noteSpares l
  (s.clearLine l).widthBoundary l

/-- Both directions have passed at PAM64: this end's test, and the peer's by its markers. -/
def State.tryAgree (s : State) (l : Nat) : State :=
  let o := s.opt l
  let st := s.og l TOE_STATUS.stage
  if o.passed = 3 ∧ o.pReady ∧ o.pMode = 2 ∧ s.og l TOE_STATUS.mode = 2 ∧ (st = 2 ∨ st = 3) then s.toAgree l else s

/-! ### The rows of the safety states (R284, R285) -/

def toeCtlEnableEff (l : Nat) (on : Bool) (s : State) : State :=
  let s := s.os l TOE_CTL.enable (flagIf on 1)
  let st := s.og l TOE_STATUS.safety
  if !on then (if st = 0 then s else s.setSafety l 0)
  else if st = 0 ∧ !s.darkLink l ∧ !(s.opt l).dark then s.setSafety l 1
  else s

/-- TOE_CTL_ENABLE. -/
def execToeCtlEnable (link : Nat) (on : Bool) (s : State) : Out :=
  if s.toeUp (linkTile link) then ok (toeCtlEnableEff link on s) else ok s

/-- LIT_ENTRY: received power has been at -20 dBm for 1 ms, all of it in PILOT. -/
def execLitEntry (link : Nat) (s : State) : Out :=
  if s.toeUp (linkTile link) ∧ s.og link TOE_STATUS.safety = 1 ∧ s.tick ≥ (s.opt link).at_ + 100000 then
    let s := s.each (s.lams link true) (fun s n => s.takeOuts link true n)
    ok ((s.setSafety link 2).os link TOE_STATUS.light 1)
  else ok s

/-- LIT_CHECK_ARMED: 5 ms after LIT; the link enters LOCK and its rings ACQUIRE. Whether the power is at -3 dBm is not
carried by the command: a free value. -/
def execLitCheckArmed (link : Nat) (s : State) : Out :=
  let o := s.opt link
  if s.toeUp (linkTile link) ∧ s.og link TOE_STATUS.safety = 2 ∧ !o.armed ∧ s.tick ≥ o.at_ + 500000 then
    let s := (s.setOpt link { o with armed := true, lockAt := s.tick }).os link TOE_STATUS.stage 1
    let r := s.free
    let s := r.2.os link TOE_STATUS.lit_rx (r.1 % 2)
    ok ((s.each (s.wavesOf link) (fun s p => s.acquire link p)).lockDone link)
  else ok s

/-- LIT_CHECK: below -3 dBm for 1 ms with the check armed; whether -20 dBm are left the command does not tell: a free value. -/
def execLitCheck (link : Nat) (s : State) : Out := s.inTurn (.litCheck link) (fun s =>
    if s.toeUp (linkTile link) ∧ s.og link TOE_STATUS.safety = 2 ∧ (s.opt link).armed then
      let s := (s.raise 0x6001 (uToe (linkTile link)) link).oinc link TOE_COUNTS.safety_drops 1
      let r := s.free
      ok (((r.2.os link TOE_STATUS.lit_rx 0).os link TOE_STATUS.light (r.1 % 2)).setSafety link 3)
    else ok s)

/-- HOLD_END: 100 ms after HOLD. -/
def execHoldEnd (link : Nat) (s : State) : Out :=
  if s.toeUp (linkTile link) ∧ s.og link TOE_STATUS.safety = 3 ∧ s.tick ≥ (s.opt link).at_ + 10000000 then
    ok (s.setSafety link 1)
  else ok s

/-! ### The rows of bring-up -/

/-- A test at a mode that the receiver has moved to. -/
def State.testMode (s : State) (l mode : Nat) : State :=
  (((s.setOpt l { s.opt l with rxMode := mode, testAt := s.tick }).os l TOE_STATUS.stage 2).clearTest l).clearLine l

/-- The decoder of a wavelength: the symbols of a period descrambled, the codewords that end in it decoded, their counts in TOE_LANE_FEC, in
the window of the fade trigger and in the run of bad periods (R293, R294). A marker that is not accepted leaves the count of boundaries
to run on. -/
def State.decodeLine (s : State) (m : OptMarker) : (Nat × Nat) × State :=
  let w := s.wave m.link false m.lam
  let mc := if m.crcOk then m.mcount else (w.mc + 1) % 2 ^ 16
  let r := codewords 64 (w.part ++ scrambleRun (scrSeed (mc + 2 ^ 16 - 1) m.lam) m.line)
  let n := rsCount r.1
  let s := (s.oinc m.link TOE_LANE_FEC.corrected n.1 (win m.lam)).oinc m.link TOE_LANE_FEC.uncorrectable n.2 (win m.lam)
  (n, s.setWave m.link false m.lam
    { w with mc := mc, part := r.2, wN := w.wN + 1, wFixed := w.wFixed + n.1, badRun := if n.2 > 0 then w.badRun + 1 else 0 })

/-- Twice the midpoints between adjacent level means, taken 256 times: thresholds in 1/512. -/
def midpoints (means : List Int) : List Int :=
  (List.range 3).map (fun i => 256 * (means.getD i 0 + means.getD (i + 1) 0))

/-- The thresholds of a PAM4 mode: from the means over the first 64 periods, and then after the means in steps of at most 1/256 of the
outer amplitude (R290). -/
def State.trackLevels (s : State) (m : OptMarker) : State :=
  let w := s.wave m.link false m.lam
  let now : List Int := m.means.map Int.ofNat
  if (s.opt m.link).rxMode = 0 then s
  else if w.histN < 64 then
    let sum := (List.range 4).map (fun i => listAt w.hist i + listAt m.means i)
    s.setWave m.link false m.lam { w with
      hist := sum, histN := w.histN + 1
      thr := if w.histN = 63 then (midpoints (sum.map Int.ofNat)).map (fun v => roundHalfEven v 64) else w.thr }
  else
    let step := 2 * (now.getD 3 0 - now.getD 0 0)
    s.setWave m.link false m.lam { w with
      thr := (midpoints now).zipIdx.map (fun p =>
        let old := w.thr.getD p.2 p.1
        old + min step (max (-step) (p.1 - old))) }

/-- What an accepted marker reports of its wavelength: margin and power in TOE_LANE_ANA (R291), and the test in progress. -/
def State.countMarker (s : State) (m : OptMarker) (n : Nat × Nat) : State :=
  let l := m.link
  let o := s.opt l
  let d := win m.lam
  let s := ((s.os l TOE_LANE_ANA.margin m.margin d).os l TOE_LANE_ANA.rx_power m.power d).os l TOE_LANE_ANA.valid 1 d
  let w := s.wave l false m.lam
  let inTest : Bool := m.mode == o.rxMode && (o.rxMode == 0 || decide (s.tick ≥ o.testAt + 64 * markerTk o.rxMode))
  if inTest then
    s.setWave l false m.lam
      { w with tN := w.tN + 1, tFixed := w.tFixed + n.1, tBad := w.tBad + n.2, tMargin := min w.tMargin m.margin }
  else s

/-- Does a marker agree with the receive map at its epoch? -/
def State.markerAgrees (s : State) (m : OptMarker) : Bool :=
  m.lambda == m.lam && m.lane == roleAt (s.og m.link TOE_RX_MAP.role) m.lam && m.epoch == s.og m.link TOE_STATUS.rx_epoch

/-- The period counts: ready at the own mode, and agreement, in every marker of a period. -/
def State.countPeriod (s : State) (m : OptMarker) : State :=
  let o := s.opt m.link
  let rdy : Bool := m.ready && m.mode == s.og m.link TOE_STATUS.mode
  let agr := s.markerAgrees m
  let o := if m.mcount = o.mcount then { o with rdyOk := o.rdyOk && rdy, perOk := o.perOk && agr }
    else { o with
      mcount := m.mcount, ready := if o.rdyOk then o.ready + 1 else 0, agree := if o.perOk then o.agree + 1 else 0
      rdyOk := rdy, perOk := agr }
  let o := { o with pEpoch := m.epoch }
  let o := if m.ready then { o with pReady := true, pMode := m.mode, pGood := m.rxGood } else o
  let go : Bool := decide (o.ready ≥ 4) && decide (o.passed > s.og m.link TOE_STATUS.mode) && decide (s.og m.link TOE_STATUS.mode < 2)
  s.setOpt m.link { o with goAt := if go then (match o.goAt with | some t => some t | none => some (s.nextBoundary m.link)) else o.goAt }

/-- An accepted marker and what its period decoded to: the peer's mode, its test, the agreement of maps. -/
def markerEff (m : OptMarker) (n : Nat × Nat) (s : State) : State :=
  let l := m.link
  let st := s.og l TOE_STATUS.stage
  let s := (s.trackLevels m).countMarker m n
  if st = 6 then s
  else
    let s := if m.mode = (s.opt l).rxMode + 1 ∧ m.mode ≤ 2 ∧ st ≤ 3 then (s.testMode l m.mode).countMarker m (0, 0) else s
    let s := s.countPeriod m
    if st = 4 ∧ m.epoch ≠ 0 ∧ !s.markerAgrees m then
      (s.raise 0x6004 (uToe (linkTile l)) l).startTest l
    else s.tryAgree l

/-- OPTICAL_MARKER: one whose crc fails is not accepted (R295). -/
def execOpticalMarker (m : OptMarker) (s : State) : Out :=
  if !s.toeUp (linkTile m.link) ∨ s.og m.link TOE_STATUS.stage < 2 ∨ m.lam ≥ 10 then ok s
  else
    let r := s.decodeLine m
    if m.crcOk then ok (markerEff m r.1 r.2) else ok r.2

/-- Symbols of 1,024 periods, of which 1 in 10,000 may have been corrected: 16,376 * 1,024 / 10,000. -/
def fixedLimit : Nat := 1676

/-- Has a wavelength passed (R300)? -/
def State.lanePassed (s : State) (l n : Nat) : Bool :=
  let w := s.wave l false n
  w.lock == 3 && decide (w.tN ≥ 1024) && w.tBad == 0 && decide (w.tFixed ≤ fixedLimit) && decide (w.tMargin ≥ s.og l TOE_CTL.margin_min)

/-- TEST_END. A receiver that followed its peer past a mode it had not passed goes to WAIT (Table 10-10). -/
def execTestEnd (link : Nat) (s : State) : Out :=
  let o := s.opt link
  if !s.toeUp (linkTile link) ∨ s.og link TOE_STATUS.stage ≠ 2 ∨ o.passed > o.rxMode ∨
      s.tick < o.testAt + (1024 + (if o.rxMode = 0 then 0 else 64)) * markerTk o.rxMode then ok s
  else
    let use := (s.lams link false).filter (fun n => !(s.wave link false n).failed)
    let good := use.filter (fun n => s.lanePassed link n)
    let s := s.each (use.filter (fun n => !good.contains n)) (fun s n =>
      (s.setWave link false n { s.wave link false n with failed := true }).raise 0x6003 (uToe (linkTile link)) link 0 n)
    if good.length < 7 ∨ o.passed ≠ o.rxMode then ok (s.toWait link)
    else
      let s := s.setOpt link { o with passed := o.rxMode + 1, good := good.foldl (fun v n => v + 2 ^ n) 0 }
      if o.rxMode < 2 then ok (s.os link TOE_STATUS.stage 3) else ok (s.tryAgree link)

/-- MODE_STEP, at the boundary after four go markers (R301). -/
def execModeStep (link : Nat) (s : State) : Out :=
  let o := s.opt link
  let m := s.og link TOE_STATUS.mode
  match o.goAt with
  | none => ok s
  | some t =>
    let st := s.og link TOE_STATUS.stage
    if s.toeUp (linkTile link) ∧ (st = 2 ∨ st = 3) ∧ m < 2 ∧ o.passed > m ∧ s.tick ≥ t + 4 * markerTk m ∧ s.nextBoundary link = s.tick then
      let c := s.txCount link
      let s := (s.os link TOE_STATUS.mode (m + 1)).os link TOE_STATUS.stage 2
      ok ((s.setOpt link { o with goAt := none, ready := 0, rdyOk := false, txBase := s.tick, txM0 := c }).tryAgree link)
    else ok s

/-- WAIT_END: after 1,000 ms. -/
def execWaitEnd (link : Nat) (s : State) : Out :=
  if s.toeUp (linkTile link) ∧ s.og link TOE_STATUS.stage = 6 ∧ s.tick ≥ (s.opt link).waitAt + 100000000 then ok (s.startTest link)
  else ok s

/-- TOE_CTL.restart: bring-up begins again at NRZ32 without leaving LIT; before its first TEST there is nothing to restart. -/
def toeRestart (l : Nat) (s : State) : State := if s.og l TOE_STATUS.stage ≥ 2 then s.startTest l else s

/-- TOE_CTL_RESTART. -/
def execToeCtlRestart (link : Nat) (s : State) : Out := if s.toeUp (linkTile link) then ok (toeRestart link s) else ok s

end Sys2Proof.Machine
end

