-- ==== Sys2Proof/Machine/Waves.lean ====
section
/-!
DEFINITION. Rings, identities, calibration, laser fade and the sparing exchange (chapter Wavelength Control, Calibration and
Sparing).
-/

namespace Sys2Proof.Machine

/-! ### Ring loops (R309 to R317) -/

def State.ringFuse (s : State) (l : Nat) (tx : Bool) (n : Nat) : Nat × Nat := mget s.fuses.rings (waveKey l tx n) (1090, 13630)

/-- A ring that fails: at its calibrated point, without dither. -/
def State.failRing (s : State) (l : Nat) (tx : Bool) (n : Nat) : State :=
  let c := s.calPoint l tx n
  (s.setWave l tx n { s.wave l tx n with lock := 5, heater := c, start := c, found := false, calm := 0 }).showWave l tx n

/-- A heater code for a ring, unless it lies an FSR or more from the calibrated point: then FAILED with 0x6012 (R314). -/
def State.moveRing (s : State) (l : Nat) (tx : Bool) (n : Nat) (code : Int) (w : Wave) : State :=
  let cal : Int := s.calPoint l tx n
  let d := if code ≥ cal then code - cal else cal - code
  if d ≥ (s.ringFuse l tx n).2 then (s.failRing l tx n).raise 0x6012 (uToe (linkTile l)) l 0 n
  else (s.setWave l tx n { w with heater := (min 16383 (max 0 code)).toNat }).showWave l tx n

/-- The `k`th step of a sweep, alternating sides and widening by 4 codes. -/
def sweepOff (k : Nat) : Int := if k % 2 = 1 then 4 * ((k : Int) / 2 + 1) else -(4 * ((k : Int) / 2))

/-- At most 8 codes either way. -/
def clamp8 (v : Int) : Int := min 8 (max (-8) v)

/-- A spare that leaves LOCKED in its replacement test fails it (Table 11-6). -/
def State.leftLock (s : State) (l : Nat) (tx : Bool) (n : Nat) : State :=
  let w := s.wave l tx n
  if !tx ∧ w.lock = 3 ∧ (s.opt l).rxAct.any (fun a => a.stage == 1 && a.new == n) then s.setWave l tx n { w with tBad := w.tBad + 1 } else s

/-- A ring loses lock (R313). -/
def State.loseLock (s : State) (l : Nat) (tx : Bool) (n : Nat) : State :=
  let s := s.leftLock l tx n
  let w := s.wave l tx n
  let s := s.setWave l tx n { w with lock := 1, start := w.heater, sweep := 0, found := false, calm := 0, limit := 0, lostAt := some s.tick }
  (((s.showWave l tx n).oinc l TOE_RING.losses 1 (win n)).raise 0x6010 (uToe (linkTile l)) l 0 n)

def integrationEff (l n : Nat) (tx : Bool) (deriv : Int) (drop : Bool) (s : State) : State :=
  let w := s.wave l tx n
  let v := deriv - Config.ringBias (waveKey l tx n)
  if w.lock = 1 ∨ w.lock = 4 then
    if !w.found ∧ deriv = 0 then
      s.moveRing l tx n (w.start + sweepOff (w.sweep + 1)) { w with sweep := w.sweep + 1 }
    else
      let calm := if -2 ≤ v ∧ v ≤ 2 then w.calm + 1 else 0
      let w := { w with found := true, calm := calm, lock := if calm ≥ 16 then 2 else w.lock, since := if calm ≥ 16 then s.tick else w.since }
      s.moveRing l tx n (w.heater + clamp8 v) w
  else if w.lock = 2 ∨ w.lock = 3 then
    let limit := if v ≤ -8 ∨ 8 ≤ v then w.limit + 1 else 0
    let s := s.moveRing l tx n (w.heater + clamp8 v) { w with limit := limit }
    if w.lock = 3 ∧ (limit ≥ 4 ∨ drop) ∧ (s.wave l tx n).lock = 3 then s.loseLock l tx n else s
  else s

/-- Length of a lock-in window (Table 11-1): 1 µs in ACQUIRE and RELOCK, 16 µs in CHECK and LOCKED. -/
def windowTk (lock : Nat) : Nat := if lock = 1 ∨ lock = 4 then 100 else 1600

/-- The next window of a ring begins. -/
def State.nextWindow (s : State) (l : Nat) (tx : Bool) (n : Nat) : State :=
  let w := s.wave l tx n
  s.setWave l tx n { w with winAt := s.tick + windowTk w.lock }

/-- INTEGRATION_WINDOW: a resonance has been found once the derivative is not 0. -/
def execIntegrationWindow (link lam : Nat) (tx : Bool) (deriv : Int) (drop3dB : Bool) (s : State) : Out :=
  if s.toeUp (linkTile link) ∧ (s.lams link tx).contains lam ∧ (s.wave link tx lam).winAt ≤ s.tick then
    ok (((integrationEff link lam tx deriv drop3dB s).nextWindow link tx lam).lockDone link)
  else ok s

/-- One channel spacing up or down, as one RELOCK. -/
def State.relock (s : State) (l : Nat) (tx : Bool) (n : Nat) (up : Bool) : State :=
  let s := s.leftLock l tx n
  let w := s.wave l tx n
  let c : Int := if up then w.heater + (s.ringFuse l tx n).1 else w.heater - ((s.ringFuse l tx n).1 : Int)
  let lost := if w.lock = 3 then some s.tick else w.lostAt
  let s := (s.oinc l TOE_RING.relocks 1 (win n)).raise 0x6011 (uToe (linkTile l)) l 0 n
  s.moveRing l tx n c { w with lock := 4, start := (max 0 c).toNat, sweep := 0, found := false, calm := 0, limit := 0, lostAt := lost }

/-- The identity found (R316): the tone at least 6 dB above every other, a ratio of amplitudes of 10^0.3, and above a quarter of the
expected amplitude. -/
def identityOf (amps : List Nat) (expected : Nat) : Option Nat :=
  (List.range 10).find? (fun i =>
    decide (4 * listAt amps i > expected) &&
    (List.range 10).all (fun j => j == i || decide (listAt amps i ^ 10 ≥ 1000 * listAt amps j ^ 10)))

def identityEff (l n : Nat) (tx : Bool) (found : Option Nat) (s : State) : State :=
  let w := s.wave l tx n
  let s := if tx then s else s.os l TOE_RING.rx_ident (found.getD 0xF) (win n)
  match found with
  | some i =>
    if i = n then
      (s.setWave l tx n { w with
        lock := 3, lostAt := none, limit := if w.lock = 3 then w.limit else 0, identAt := s.tick + 100000 }).showWave l tx n
    else s.relock l tx n (i < n)
  | none =>
    let s := s.leftLock l tx n
    (s.setWave l tx n { s.wave l tx n with
      lock := 1, start := w.heater, sweep := 0, found := false, calm := 0
      lostAt := if w.lock = 3 then some s.tick else w.lostAt }).showWave l tx n

/-- IDENTITY_CHECK, with the amplitudes at the ten identity tones: over 256 µs in CHECK, and every 1 ms in LOCKED. -/
def execIdentityCheck (link lam : Nat) (tx : Bool) (amps : List Nat) (expected : Nat) (s : State) : Out :=
  let w := s.wave link tx lam
  if s.toeUp (linkTile link) ∧ (s.lams link tx).contains lam ∧
      ((w.lock = 3 ∧ s.tick ≥ w.identAt) ∨ (w.lock = 2 ∧ s.tick ≥ w.since + 25600)) then
    ok ((identityEff link lam tx (identityOf amps expected) s).lockDone link)
  else ok s

/-- LOCK_TIMEOUT: neither in CHECK nor LOCKED 500 ms after LOCK. -/
def execLockTimeout (link lam : Nat) (tx : Bool) (s : State) : Out :=
  let w := s.wave link tx lam
  if s.toeUp (linkTile link) ∧ (s.lams link tx).contains lam ∧ s.og link TOE_STATUS.stage = 1 ∧
      s.tick ≥ (s.opt link).lockAt + 50000000 ∧ w.lock ≠ 2 ∧ w.lock ≠ 3 then
    ok ((s.failRing link tx lam).lockDone link)
  else ok s

/-! ### Map changes (R325 to R330) -/

def nextEpoch (e : Nat) : Nat := if e ≥ 255 then 1 else e + 1

/-- Lane `x` removed: the lanes above it move down. -/
def dropLane (map x : Nat) : Nat :=
  (List.range 10).foldl (fun m n =>
    let r := roleAt map n
    if r = x then setRole m n 0xF else if r < 8 ∧ r > x then setRole m n (r - 1) else m) map

/-- The map after a change. -/
def SpareAct.apply (a : SpareAct) (map : Nat) : Nat :=
  if a.action = 1 ∨ a.action = 2 then setRole (setRole map a.new a.lane) a.old 0xF
  else if a.action = 3 then dropLane map a.lane
  else setRole map a.new 0xE

/-- The wavelength that carries a lane. -/
def laneWave (map x : Nat) : Option Nat := (List.range 10).find? (fun n => roleAt map n == x)

def State.sendSpare (s : State) (l : Nat) (args : List Nat) : State := s.sendLink l 0x32 args

/-- The receive end names a change at a boundary 8 periods ahead. -/
def State.command (s : State) (l action lane old new reason : Nat) : State :=
  let o := s.opt l
  let e := nextEpoch (s.og l TOE_STATUS.rx_epoch)
  let m := (o.mcount + 8) % 2 ^ 16
  let s := (s.setOpt l { o with rxAct := some ⟨action, lane, old, new, e, m, reason, 0, false⟩ }).os l TOE_SPARE.rx_action action
  s.sendSpare l [2, action, lane, new, e, m]

def State.endAct (s : State) (l : Nat) : State :=
  (s.setOpt l { s.opt l with rxAct := none }).os l TOE_SPARE.rx_action 0

/-- An action of the receive end given up: the transmit end hears of a hitless one. -/
def State.abortAct (s : State) (l : Nat) : State :=
  match (s.opt l).rxAct with
  | none => s
  | some a =>
    let s := if a.action = 1 then s.sendSpare l [3, a.m] else s
    (s.oinc l TOE_SPARE.aborts 1).endAct l

/-- A calibration run abandoned: it falls due again (R328). -/
def State.dropRun (s : State) (l : Nat) (tx : Bool) (n : Nat) : State :=
  let w := s.wave l tx n
  let s := s.setWave l tx n { w with runAt := none, dueAt := some s.tick }
  ((s.os l TOE_CAL.running 0 (win n)).os l TOE_CAL.due 1 (win n)).os l TOE_LANE_DRV.stale 0 (win n)

/-- Width 7, or from there out of SERVICE (R330). -/
def State.narrow (s : State) (l u : Nat) : State :=
  if s.og l TOE_STATUS.rx_width = 7 then s.toWait l
  else (s.raise 0x6016 (uToe (linkTile l)) l 0 u).command l 3 (roleAt (s.og l TOE_RX_MAP.role) u) u u 3

/-- A hitless replacement of the lane on `u` by spare `y`. -/
def State.hitless (s : State) (l u y reason : Nat) : State := s.command l 1 (roleAt (s.og l TOE_RX_MAP.role) u) u y reason

/-- A wave of the receive direction displaced by a rotation and under calibration. -/
def State.displaced (s : State) (l : Nat) : Option Nat :=
  (s.lams l false).find? (fun n => roleAt (s.og l TOE_RX_MAP.role) n == 0xF && (s.wave l false n).runAt.isSome)

/-- Fade replacement takes precedence over calibration for the spares (R328). -/
def State.fadeReplace (s : State) (l u : Nat) : State :=
  let busy := (s.opt l).rxAct
  let wait (s : State) : State := s.setOpt l { s.opt l with want := (s.opt l).want ++ [(u, 1)] }
  let go (s : State) : State :=
    let sp := s.freeSpares l false
    match sp.find? (fun n => (s.wave l false n).runAt.isNone), sp.head? with
    | some y, _ => s.hitless l u y 1
    | none, some y => (s.dropRun l false y).hitless l u y 1
    | none, none =>
      (match s.displaced l with
       | some v => (wait (s.dropRun l false v)).command l 4 0xE v v 3
       | none => s.narrow l u)
  match busy with
  | none => go s
  | some a =>
    if a.action = 1 ∧ a.reason = 2 ∧ a.stage < 4 ∧ a.old ≠ u then go (s.abortAct l)
    else wait s

/-- What waits for the receive direction goes on once its action has ended. -/
def State.serveWant (s : State) (l : Nat) : State :=
  match (s.opt l).rxAct, (s.opt l).want with
  | none, (u, r) :: rest =>
    let s := s.setOpt l { s.opt l with want := rest }
    if roleAt (s.og l TOE_RX_MAP.role) u ≥ 8 then s
    else if r = 1 then s.fadeReplace l u
    else
      (match (s.freeSpares l false).find? (fun n => (s.wave l false n).runAt.isNone) with
       | some y => if s.og l TOE_STATUS.rx_width = 8 then s.hitless l u y 2 else s
       | none => s)
  | _, _ => s

/-! ### Calibration runs (R319 to R324) -/

/-- TOE_CAL and the stale flag of a wavelength. -/
def State.showCal (s : State) (l n : Nat) : State :=
  let a := s.wave l true n
  let b := s.wave l false n
  let d := win n
  let s := (s.os l TOE_CAL.due (flagIf (a.dueAt.isSome || b.dueAt.isSome) 1) d).os l TOE_CAL.running (flagIf (a.runAt.isSome || b.runAt.isSome) 1) d
  (s.os l TOE_CAL.calibrated (flagIf (a.calOk || b.calOk) 1) d).os l TOE_LANE_DRV.stale (flagIf a.runAt.isSome 1) d

def State.beginRun (s : State) (l : Nat) (tx : Bool) (n : Nat) : State :=
  let s := s.setWave l tx n { s.wave l tx n with runAt := some s.tick, dueAt := none, lost := 0, reports := [] }
  let s := if !tx ∧ roleAt (s.og l TOE_RX_MAP.role) n = 0xE then s.os l TOE_SPARE.rx_action 5 else s
  s.showCal l n

/-- The due wave that fell due first, the lowest on a tie. -/
def firstDue (s : State) (l : Nat) (tx : Bool) : List Nat → Option Nat
  | [] => none
  | n :: ns =>
    match firstDue s l tx ns, (s.wave l tx n).dueAt with
    | some m, some t => if t ≤ ((s.wave l tx m).dueAt).getD 0 then some n else some m
    | none, some _ => some n
    | r, none => r

/-- One run at a time in a direction: a wavelength without data in place, one with data by rotation, none of these at width 7. -/
def State.startRun (s : State) (l : Nat) (tx : Bool) : State :=
  let o := s.opt l
  let map := s.og l (if tx then TOE_TX_MAP.role else TOE_RX_MAP.role)
  let wide : Bool := s.og l (if tx then TOE_STATUS.tx_width else TOE_STATUS.rx_width) == 8
  let busy : Bool := (s.lams l tx).any (fun n => (s.wave l tx n).runAt.isSome) ||
    (if tx then o.txAct.isSome || !o.asked.isEmpty else o.rxAct.isSome)
  let can := (s.lams l tx).filter (fun n => !(s.wave l tx n).retired && !(s.wave l tx n).failed && (wide || roleAt map n ≥ 8))
  if busy ∨ s.og l TOE_STATUS.stage ≠ 5 ∨ s.og l TOE_WCTL.cal_en ≠ 1 then s
  else
    match firstDue s l tx can with
    | none => s
    | some n =>
      if roleAt map n ≥ 8 then s.beginRun l tx n
      else if tx then (s.setOpt l { o with asked := o.asked ++ [(n, 2)] }).sendSpare l [1, 2, n]
      else
        match (s.freeSpares l false).head? with
        | some y => s.hitless l n y 2
        | none => s

def State.startRuns (s : State) (l : Nat) : State := (s.startRun l true).startRun l false

/-- AGREEMENT: 16 periods of agreement; the other direction is taken to enter service with it, for no command tells of it (R302). The
first SERVICE after an engine reset makes every wavelength's run due (R324). -/
def execAgreement (link : Nat) (s : State) : Out :=
  let o := s.opt link
  if s.toeUp (linkTile link) ∧ s.og link TOE_STATUS.stage = 4 ∧ o.agree ≥ 16 then
    let s := (s.os link TOE_STATUS.stage 5).oinc link TOE_COUNTS.bringups 1
    let s := if o.served then s
      else s.each (s.wavesOf link) (fun s p =>
        (s.setWave link p.1 p.2 { s.wave link p.1 p.2 with dueAt := some s.tick }).showCal link p.2)
    let s := s.setOpt link { o with served := true }
    ok ((s.trainLink link).startRuns link)
  else ok s

/-- The outputs of a link's waves follow its temperature (R322). -/
def State.followTemp (s : State) (l : Nat) : State :=
  let s := s.setOpt l { s.opt l with tempDue := false }
  (s.each (s.wavesOf l) (fun s p => s.takeOuts l p.1 p.2)).setBias l

/-- A new reading: the outputs follow at the next marker boundary, or at once where no markers are sent; and a run may fall due (R322,
R324). -/
def tempEff (link : Nat) (quarter : Int) (s : State) : State :=
  let s := s.setOpt link { s.opt link with temp := quarter, tempDue := true }
  let thr : Int := 4 * s.og link TOE_WCTL.cal_thr
  let s := s.each (s.wavesOf link) (fun s p =>
    let w := s.wave link p.1 p.2
    match w.calT with
    | some t =>
      if (quarter - t > thr ∨ t - quarter > thr) ∧ w.dueAt.isNone ∧ w.runAt.isNone ∧ w.retryAt.isNone then
        (s.setWave link p.1 p.2 { w with dueAt := some s.tick }).showCal link p.2
      else s
    | none => s)
  (if s.og link TOE_STATUS.stage < 2 then s.followTemp link else s).startRuns link

/-- TEMPERATURE_UPDATE, every 1 ms. -/
def execTemperatureUpdate (link : Nat) (quarter : Int) (s : State) : Out :=
  if s.toeUp (linkTile link) ∧ s.tick % 100000 = 0 then ok (tempEff link quarter s) else ok s

/-- The marker boundaries of a tick: outputs that are due follow their temperature, ahead of a map switch at the same boundary (Table
11-6). -/
def State.boundaries (s : State) : State :=
  s.each ((s.opts.filter (fun e => e.2.tempDue)).map (·.1)) (fun s l => if s.nextBoundary l = s.tick then s.followTemp l else s)

/-- Repeat tolerances, in the order of the items (Table 11-3). -/
def tolerances : List Int := [4, 16, 1, 1, 1, 1, 1, 1, 16]

def runAgrees (r : CalRun) : Bool :=
  tolerances.zipIdx.all (fun p =>
    let d := r.pass1.getD p.2 0 - r.pass2.getD p.2 0
    decide (-p.1 ≤ d) && decide (d ≤ p.1))

/-- Range of an item's codes. -/
def State.clampItem (s : State) (k : Nat) (tx : Bool) (i : Nat) (v : Int) : Int :=
  if !tx ∨ i = 1 then min 16383 (max 0 v)
  else if i = 0 then min ((mget s.fuses.ceilings k 1023 : Nat) : Int) (max 0 v)
  else if i ≤ 5 then min 63 (max 0 v)
  else min 15 (max (-16) v)

/-- The sets of an item after an accepted run at `t` with value `v` (R323): all moved by v - f(t) at the first, the nearest replaced
at a later one. -/
def newSet (first : Bool) (set : List Int) (t v : Int) : List Int :=
  if first then set.map (fun x => x + (v - interp set t))
  else
    let a := set.getD 0 0
    let b := set.getD 1 0
    let c := set.getD 2 0
    let near : Nat := if t ≤ 160 then 0 else if t ≤ 280 then 1 else 2
    let x : Int :=
      if near = 0 then (if t ≤ 100 then v else roundHalfEven (120 * v - b * (t - 100)) (220 - t).toNat)
      else if near = 1 then
        (if t ≤ 220 then roundHalfEven (120 * v - a * (220 - t)) (t - 100).toNat
         else roundHalfEven (120 * v - c * (t - 220)) (340 - t).toNat)
      else (if t ≥ 340 then v else roundHalfEven (120 * v - b * (340 - t)) (t - 220).toNat)
    [if near = 0 then x else a, if near = 1 then x else b, if near = 2 then x else c]

/-- A displaced wavelength is a spare again once its run has ended. -/
def State.backToSpare (s : State) (l : Nat) (tx : Bool) (n : Nat) : State :=
  let f := if tx then TOE_TX_MAP.role else TOE_RX_MAP.role
  let w := s.wave l tx n
  let map := s.og l f
  let s := if roleAt map n = 0xF ∧ !w.retired ∧ !w.failed then s.os l f (setRole map n 0xE)
    else if roleAt map n = 0xE ∧ w.retired then s.os l f (setRole map n 0xF) else s
  let s := if !tx ∧ s.og l TOE_SPARE.rx_action = 5 then s.os l TOE_SPARE.rx_action 0 else s
  s.noteSpares l

def State.acceptRun (s : State) (l : Nat) (tx : Bool) (n : Nat) (r : CalRun) : State :=
  let k := waveKey l tx n
  let w := s.wave l tx n
  let t := (s.opt l).temp
  let old := w.sets.getD (s.fusedSets k)
  let sets := (List.range (items tx)).map (fun i =>
    let j := if tx then i else 8
    let v := roundHalfEven (r.pass1.getD j 0 + r.pass2.getD j 0) 2
    (newSet (!w.calOk) (old.getD i [0, 0, 0]) t v).map (s.clampItem k tx i))
  let s := s.setWave l tx n { w with sets := some sets, calOk := true, calT := some t, runAt := none, rejects := 0, dueAt := none }
  let s := (s.oinc l TOE_CAL.runs 1 (win n)).os l (if tx then TOE_CAL.tx_temp else TOE_CAL.rx_temp) (twos 8 (t / 4)) (win n)
  s.takeOuts l tx n

def State.rejectRun (s : State) (l : Nat) (tx : Bool) (n : Nat) : State :=
  let w := s.wave l tx n
  let s := s.oinc l TOE_CAL.rejects 1 (win n)
  if w.rejects + 1 ≥ 3 then
    (s.setWave l tx n { w with runAt := none, rejects := 0, retired := true }).raise 0x6013 (uToe (linkTile l)) l 0 n
  else s.setWave l tx n { w with runAt := none, rejects := w.rejects + 1, retryAt := some (s.tick + 100000000) }

/-! The monitor ADC of a direction (R311) -/

/-- A ring of the direction is in ACQUIRE or RELOCK. -/
def State.acquiring (s : State) (l : Nat) (tx : Bool) : Bool := (s.lams l tx).any (fun n => (s.wave l tx n).lock == 1 || (s.wave l tx n).lock == 4)

/-- The slots of the frame of 16 that lock-in uses; margin scans and calibration measurements have the others. -/
def State.lockInSlots (s : State) (l : Nat) (tx : Bool) : List Nat := List.range (if s.acquiring l tx then 16 else 12)

/-- A tick of a run whose measurements have no slots prolongs it. -/
def State.adcTick (s : State) (l : Nat) : State :=
  s.each ((s.wavesOf l).filter (fun p => (s.wave l p.1 p.2).runAt.isSome && (s.lockInSlots l p.1).contains 12)) (fun s p =>
    s.setWave l p.1 p.2 { s.wave l p.1 p.2 with lost := (s.wave l p.1 p.2).lost + 1 })

def State.adcTicks (s : State) : State := s.each (s.opts.map (·.1)) State.adcTick

/-- CALIBRATION_RUN_END, 88 ms after the start and the slots it lost. -/
def execCalibrationRunEnd (link lam : Nat) (tx : Bool) (r : CalRun) (s : State) : Out :=
  match (s.wave link tx lam).runAt with
  | none => ok s
  | some t =>
    if !s.toeUp (linkTile link) ∨ s.tick < t + 8800000 + (s.wave link tx lam).lost then ok s
    else
      let s := if runAgrees r then s.acceptRun link tx lam r else s.rejectRun link tx lam
      ok ((((s.backToSpare link tx lam).showCal link lam).serveWant link).startRuns link)

/-- CALIBRATION_RETRY, 1 s after a rejection. -/
def execCalibrationRetry (link lam : Nat) (tx : Bool) (s : State) : Out :=
  let w := s.wave link tx lam
  match w.retryAt with
  | none => ok s
  | some t =>
    if !s.toeUp (linkTile link) ∨ s.tick < t then ok s
    else ok (((s.setWave link tx lam { w with retryAt := none, dueAt := some s.tick }).showCal link lam).startRuns link)

/-- CAL_REPORT: the far end's measurements of the item under way. -/
def execCalReport (f : FlitHdr) (lam item pass : Nat) (values : List Int) (s : State) : Out :=
  ok (s.flitIn f 0x32 0 (0, 0) (fun s =>
    let w := s.wave f.link true lam
    if w.runAt.isNone then s else s.setWave f.link true lam { w with reports := w.reports ++ [(item : Int) :: (pass : Int) :: values] }))

/-! ### Fade (R327) -/

/-- A fade trigger: 0x6014 and a replacement, or with fade_en 0 only a count. -/
def State.fadeTrigger (s : State) (l : Nat) (tx : Bool) (n : Nat) : State :=
  let w := s.wave l tx n
  let map := s.og l (if tx then TOE_TX_MAP.role else TOE_RX_MAP.role)
  if w.fading ∨ roleAt map n ≥ 8 ∨ s.og l TOE_STATUS.stage ≠ 5 then s
  else
    let s := (s.setWave l tx n { w with fading := true }).os l TOE_FADE.triggered 1 (win n)
    if s.og l TOE_WCTL.fade_en = 1 then
      let s := s.raise 0x6014 (uToe (linkTile l)) l 0 n
      if tx then (s.setOpt l { s.opt l with asked := (s.opt l).asked ++ [(n, 1)] }).sendSpare l [1, 1, n]
      else (s.oinc l TOE_SPARE.fades 1).fadeReplace l n
    else s.oinc l TOE_SPARE.fades 1

/-- Slope of the least-squares line through hourly means (the latest first), as numerator and denominator, in codes per hour. -/
def fitSlope (means : List Nat) : Int × Nat :=
  let ys : List Int := means.reverse.map Int.ofNat
  let n : Int := ys.length
  let xs : List Int := (List.range ys.length).map Int.ofNat
  let sx := xs.foldl (· + ·) 0
  let sy := ys.foldl (· + ·) 0
  let sxy := (xs.zip ys).foldl (fun a p => a + p.1 * p.2) 0
  let sxx := xs.foldl (fun a x => a + x * x) 0
  (n * sxy - sx * sy, (n * sxx - sx * sx).toNat)

/-- ceil(0.85 × ceiling). -/
def fadePoint (ceil : Nat) : Nat := cdiv (85 * ceil) 100

/-- Ticks in an hour. -/
def hourTk : Nat := 360000000000

/-- The mean bias code of the hour that ends now, rounded half to even. -/
def State.hourMean (s : State) (l n : Nat) : Nat := (roundHalfEven (((s.sumBias l n).wave l true n).biasSum) hourTk).toNat

/-- The mean of the hour into the trend: slope and projected hours, rounded half to even from the line over at most the last 8 means. -/
def hourEff (link lam : Nat) (s : State) : State :=
  let mean := s.hourMean link lam
  let s := s.sumBias link lam
  let w := s.wave link true lam
  let means := (mean :: w.means).take 8
  let fit := fitSlope means
  let limit := fadePoint (mget s.fuses.ceilings (waveKey link true lam) 1023)
  let slope := if fit.2 = 0 then 0 else roundHalfEven (1000 * fit.1) fit.2
  let hours : Int := if slope ≤ 0 then 0xFFFF
    else min 0xFFFE (max 0 (roundHalfEven (((limit : Int) - mean) * fit.2) fit.1.toNat))
  let d := win lam
  let s := (s.setWave link true lam { w with means := means, biasSum := 0 }).os link TOE_FADE.bias_mean mean d
  let s := (s.os link TOE_FADE.slope (twos 16 slope) d).os link TOE_FADE.hours_left hours.toNat d
  if s.og link TOE_LANE_ANA.bias d ≥ limit then s.fadeTrigger link true lam else s

/-- HOURLY_MEAN, at each full hour of the tick counter. -/
def execHourlyMean (link lam : Nat) (s : State) : Out :=
  s.inTurn (.hourlyMean link lam) (fun s =>
    if s.toeUp (linkTile link) ∧ (s.lams link true).contains lam ∧ s.tick % hourTk = 0 then ok (hourEff link lam s) else ok s)

/-- FEC_WINDOW: the end of a window of 1,024 periods. -/
def execFecWindow (link lam : Nat) (s : State) : Out :=
  s.inTurn (.fecWindow link lam) (fun s =>
    let w := s.wave link false lam
    if !s.toeUp (linkTile link) ∨ !(s.lams link false).contains lam ∨ w.wN < 1024 then ok s
    else
      let ovr := if w.wFixed > s.og link TOE_WCTL.fec_thr then w.wOver + 1 else 0
      let s := s.setWave link false lam { w with wFixed := 0, wN := 0, wOver := ovr }
      if ovr ≥ 2 then ok (s.fadeTrigger link false lam) else ok s)

/-! ### The sparing messages (Table 11-4) -/

def spareAskEff (l reason lam : Nat) (s : State) : State :=
  if s.og l TOE_STATUS.stage ≠ 5 ∨ roleAt (s.og l TOE_RX_MAP.role) lam ≥ 8 then s
  else if reason = 1 then (s.oinc l TOE_SPARE.fades 1).fadeReplace l lam
  else if reason = 2 then (s.setOpt l { s.opt l with want := (s.opt l).want ++ [(lam, 2)] }).serveWant l
  else s

/-- SPARE_ASK. -/
def execSpareAsk (f : FlitHdr) (reason lam : Nat) (s : State) : Out := ok (s.flitIn f 0x32 0 (0, 0) (spareAskEff f.link reason lam))

/-- The boundary `k` periods after count `m` has come. -/
def boundaryPast (count m k : Nat) : Bool :=
  let d := (count + 2 ^ 16 - m % 2 ^ 16) % 2 ^ 16
  decide (d < 2 ^ 15) && decide (k ≤ d)

/-- A change scheduled at boundary M; one that comes at or after M is ignored. -/
def spareCmdEff (l action x y epoch m : Nat) (s : State) : State :=
  let o := s.opt l
  let map := s.og l TOE_TX_MAP.role
  if boundaryPast (s.txCount l) m 0 ∨ s.og l TOE_STATUS.stage ≠ 5 ∨ y ≥ 10 ∨ action = 0 ∨ action > 4 then s
  else
    match (if action = 4 then some y else laneWave map x) with
    | none => s
    | some u =>
      let reason := if o.asked.contains (u, 2) then 2 else 1
      s.setOpt l { o with
        txAct := some ⟨action, x, u, y, epoch, m, reason, 0, false⟩, asked := o.asked.filter (fun a => a.1 != u) }

/-- SPARE_CMD. -/
def execSpareCmd (f : FlitHdr) (action x y epoch m : Nat) (s : State) : Out :=
  ok (s.flitIn f 0x32 0 (0, 0) (spareCmdEff f.link action x y epoch m))

/-- The epoch before one. -/
def prevEpoch (e : Nat) : Nat := if e ≤ 1 then 255 else e - 1

def spareAbortEff (l m : Nat) (s : State) : State :=
  match (s.opt l).txAct with
  | none => s
  | some a =>
    if a.m ≠ m ∨ a.action ≠ 1 then s
    else
      let s := s.setOpt l { s.opt l with txAct := none }
      if a.stage < 3 then s
      else
        ((s.os l TOE_TX_MAP.role (setRole (setRole (s.og l TOE_TX_MAP.role) a.new 0xE) a.old a.lane)).os l TOE_STATUS.tx_epoch
          (prevEpoch a.epoch)).noteSpares l

/-- SPARE_ABORT. -/
def execSpareAbort (f : FlitHdr) (m : Nat) (s : State) : Out := ok (s.flitIn f 0x32 0 (0, 0) (spareAbortEff f.link m))

/-- The transmit end finds its map and the receive end's apart (R325). -/
def State.spareMismatch (s : State) (l : Nat) : State := (s.raise 0x6018 (uToe (linkTile l)) l).startTest l

def spareDoneEff (l epoch role : Nat) (s : State) : State :=
  let o := s.opt l
  match o.txAct with
  | none => s
  | some a =>
    let map := s.og l TOE_TX_MAP.role
    let mine := if a.stage ≥ 5 then map else a.apply map
    if epoch ≠ a.epoch ∨ role ≠ mine then s.spareMismatch l
    else if a.stage ≥ 5 then s.setOpt l { o with txAct := none }
    else s.setOpt l { o with txAct := some { a with told := true } }

/-- SPARE_DONE. -/
def execSpareDone (f : FlitHdr) (epoch role : Nat) (s : State) : Out :=
  ok (s.flitIn f 0x32 0 (0, 0) (spareDoneEff f.link epoch role))

/-- SPARE_DONE_TIMEOUT, at boundary M + 88. -/
def execSpareDoneTimeout (link : Nat) (s : State) : Out :=
  match (s.opt link).txAct with
  | none => ok s
  | some a =>
    if s.toeUp (linkTile link) ∧ a.stage ≥ 1 ∧ !a.told ∧ boundaryPast (s.txCount link) a.m 88 then ok (s.spareMismatch link) else ok s

/-! ### The boundaries of a change -/

/-- The receive end's map under a change. -/
def State.switchRx (s : State) (l : Nat) (a : SpareAct) : State :=
  let map := a.apply (s.og l TOE_RX_MAP.role)
  let s := if mapWidth map = s.og l TOE_STATUS.rx_width then s else s.clearLine l
  let s := ((s.os l TOE_RX_MAP.role map).os l TOE_STATUS.rx_epoch a.epoch).os l TOE_STATUS.rx_width (mapWidth map)
  let s := (s.oinc l TOE_SPARE.switches 1).sendSpare l [4, a.epoch, map]
  s.noteSpares l

/-- A wave retired until the next bring-up. -/
def State.retire (s : State) (l : Nat) (tx : Bool) (n : Nat) : State :=
  s.setWave l tx n { s.wave l tx n with retired := true, dueAt := none, retryAt := none }

/-- The spare's test of 64 periods (Table 11-5). -/
def State.sparePassed (s : State) (l n : Nat) : Bool :=
  let w := s.wave l false n
  w.lock == 3 && decide (w.tN ≥ 64) && w.tBad == 0 && decide (w.tFixed ≤ s.og l TOE_WCTL.fec_thr) && decide (w.tMargin ≥ s.og l TOE_CTL.margin_min)

def State.setRxAct (s : State) (l : Nat) (a : SpareAct) : State := s.setOpt l { s.opt l with rxAct := some a }
def State.setTxAct (s : State) (l : Nat) (a : SpareAct) : State := s.setOpt l { s.opt l with txAct := some a }

/-- The transmit end did not take a change at its boundary, for its SPARE_CMD came too late: a new one is sent (R325). -/
def State.recommand (s : State) (l : Nat) (a : SpareAct) : State :=
  (s.raise 0x6018 (uToe (linkTile l)) l).command l a.action a.lane a.old a.new a.reason

/-- The boundaries of a hitless replacement, in periods from M (Table 11-5). -/
def boundaryOf (stage : Nat) : Nat := [0, 64, 72, 76, 80].getD stage 80

/-- The spare's test begins at M, and is judged at M + 64. -/
def State.judgeSpare (s : State) (l : Nat) (a : SpareAct) : State :=
  if s.sparePassed l a.new then s.setRxAct l { a with stage := 2 }
  else
    let s := s.setWave l false a.new { s.wave l false a.new with failed := true }
    let s := (s.os l TOE_RX_MAP.role (setRole (s.og l TOE_RX_MAP.role) a.new 0xF)).noteSpares l
    let s := s.abortAct l
    if a.reason = 1 then s.fadeReplace l a.old else s.serveWant l

/-- The receive end at the next boundary of its action. -/
def rxBoundary (l : Nat) (a : SpareAct) (s : State) : State :=
  let took : Bool := (s.opt l).pEpoch == a.epoch
  if a.action ≠ 1 then
    if !took then s.recommand l a
    else
      let s := (s.switchRx l a).endAct l
      let s := if a.action = 4 then s else s.retire l false a.old
      s.serveWant l
  else if a.stage = 0 then
    let w := s.wave l false a.new
    (s.setWave l false a.new { w with tN := 0, tFixed := 0, tBad := 0, tMargin := 63 }).setRxAct l { a with stage := 1 }
  else if a.stage = 1 then s.judgeSpare l a
  else if a.stage = 2 then s.setRxAct l { a with stage := 3 }
  else if a.stage = 3 then
    if !took then s.recommand l a
    else ((s.switchRx l a).raise 0x6015 (uToe (linkTile l)) l 0 a.old).setRxAct l { a with stage := 4 }
  else
    let s := s.endAct l
    let s := if a.reason = 2 then s.beginRun l false a.old else s.retire l false a.old
    s.serveWant l

/-- The transmit end's map under a change; another width begins here. -/
def State.switchTx (s : State) (l map epoch : Nat) : State :=
  let old := s.og l TOE_STATUS.tx_width
  let s := ((s.os l TOE_TX_MAP.role map).os l TOE_STATUS.tx_epoch epoch).os l TOE_STATUS.tx_width (mapWidth map)
  (if mapWidth map = old then s else s.widthBoundary l).noteSpares l

/-- The old wavelength at the transmit end: dark after a fade, calibrated after a rotation. -/
def State.releaseTx (s : State) (l : Nat) (a : SpareAct) : State :=
  if a.action = 4 then s
  else if a.reason = 2 then s.beginRun l true a.old
  else (s.retire l true a.old).setBias l

def State.doneTx (s : State) (l : Nat) (a : SpareAct) : State :=
  if a.told then s.setOpt l { s.opt l with txAct := none } else s.setTxAct l { a with stage := 5 }

/-- The transmit end at the next boundary of the change it was told of: at M + 72 the spare carries a copy, at M + 80 alone. -/
def txBoundary (l : Nat) (a : SpareAct) (s : State) : State :=
  let map := s.og l TOE_TX_MAP.role
  if a.stage ≥ 5 then s
  else if a.action ≠ 1 then
    let a' := { a with reason := if a.action = 4 then a.reason else 1 }
    (((s.switchTx l (a.apply map) a.epoch).releaseTx l a').doneTx l a')
  else if a.stage = 2 then
    ((s.os l TOE_TX_MAP.role (setRole map a.new a.lane)).os l TOE_STATUS.tx_epoch a.epoch).setTxAct l { a with stage := 3 }
  else if a.stage = 4 then ((s.switchTx l (a.apply map) a.epoch).releaseTx l a).doneTx l a
  else s.setTxAct l { a with stage := a.stage + 1 }

/-- REPLACEMENT_BOUNDARY: the next of the boundaries M, M + 64, M + 72, M + 76 and M + 80 of a direction's change has come. -/
def execReplacementBoundary (link : Nat) (tx : Bool) (s : State) : Out :=
  if !s.toeUp (linkTile link) ∨ s.og link TOE_STATUS.stage ≠ 5 then ok s
  else if tx then
    match (s.opt link).txAct with
    | some a => ok (if boundaryPast (s.txCount link) a.m (boundaryOf a.stage) ∧ s.nextBoundary link = s.tick then txBoundary link a s else s)
    | none => ok s
  else
    match (s.opt link).rxAct with
    | some a => ok (if boundaryPast (s.opt link).mcount a.m (boundaryOf a.stage) then (rxBoundary link a s).startRuns link else s)
    | none => ok s

/-! ### Emergencies (R329) -/

/-- Has a ring been out of LOCKED for 4 marker periods, or its wavelength an uncorrectable codeword in each of 4? -/
def State.emergent (s : State) (l n : Nat) : Bool :=
  let w := s.wave l false n
  (w.lock != 3 && (match w.lostAt with
    | some t => decide (s.tick ≥ t + 512)
    | none => false)) || decide (w.badRun ≥ 4)

def emergencyEff (l n : Nat) (s : State) : State :=
  let s := match (s.opt l).rxAct with
    | some a => if a.action = 1 ∧ a.old ≠ n then s.abortAct l else (s.oinc l TOE_SPARE.aborts 1).endAct l
    | none => s
  let s := (s.raise 0x6017 (uToe (linkTile l)) l 0 n).oinc l TOE_SPARE.emergencies 1
  let sp := s.freeSpares l false
  match sp.head? with
  | some y =>
    let s := if (s.wave l false y).runAt.isSome then s.dropRun l false y else s
    s.command l 2 (roleAt (s.og l TOE_RX_MAP.role) n) n y 3
  | none => s.narrow l n

/-- EMERGENCY_REPLACEMENT; a change of another action under way is taken to its boundary first. -/
def execEmergencyReplacement (link lam : Nat) (s : State) : Out :=
  s.inTurn (.emergencyReplacement link lam) (fun s =>
    if s.toeUp (linkTile link) ∧ s.og link TOE_STATUS.stage = 5 ∧ roleAt (s.og link TOE_RX_MAP.role) lam < 8 ∧ lam < 10 ∧
        s.emergent link lam ∧ !(s.opt link).rxAct.any (fun a => a.action != 1) then
      ok (emergencyEff link lam s)
    else ok s)

end Sys2Proof.Machine
end

