-- ==== Sys2Proof/Machine/Losses.lean ====
section
/-!
DEFINITION. Units that leave: what the loss or reset of a core, a die, an engine, a tile or the whole package takes with it, shutdown
records, and the shutdowns (chapters Events, Resets and Fault Handling; Power, Droop and Thermal Management).
-/

namespace Sys2Proof.Machine

/-! ### Memory (Table 17-5) -/

/-- Core stores and accumulator buffers of a die, of a core, left undefined. -/
def State.spoilDie (s : State) (d : Nat) : State :=
  (s.scramble (csAddr d 0 0) (2 ^ 28)).scramble (accAddr d 0 0 0) (2 ^ 25)

def State.spoilCore (s : State) (d c : Nat) : State :=
  (s.scramble (csAddr d c 0) (2 ^ 22)).scramble (accAddr d c 0 0) (2 ^ 19)

/-- Base store and stacks of a tile left undefined (R204). -/
def State.spoilTile (s : State) (t : Nat) : State :=
  (s.scramble (t * 2 ^ 32) (2 ^ 32)).scramble (0x10000000000 + 2 * t * 2 ^ 36) (2 ^ 37)

/-! ### Light-list values of registers (R424) -/

/-- PWR_DIE of a die at reset: the light list's point, and n_max for it. -/
def State.loadDie (s : State) (d : Nat) : State :=
  let p := s.light.point
  let n := 500 / mget s.fuses.swing (d * 16 + p) 61
  let s := ((s.rs (uDie d) PWR_DIE.point p).rs (uDie d) PWR_DIE.target p).rs (uDie d) PWR_DIE.n_max (Nat.min n 15)
  { s with dies := mput s.dies d { rail := p } }

/-- TOE_CTL of an engine's links at reset. -/
def State.loadToe (s : State) (e : Nat) : State :=
  s.each (List.range 8) (fun s i =>
    let l := 8 * e + i
    (s.os l TOE_CTL.enable (flagIf (!s.darkLink l) 1)).os l TOE_CTL.ext_reach (flagIf (s.light.ext.contains l) 1))

/-- HPT_CFG and HPT_STATUS.phy of a port. -/
def State.loadPort (s : State) (p : Nat) : State :=
  let c := mget s.light.ports p {}
  s.each [(HPT_STATUS.phy, c.phy), (HPT_CFG.pfc_roce, c.pfcRoce), (HPT_CFG.pfc_ecp, c.pfcEcp), (HPT_CFG.dscp_roce, c.dscpRoce),
      (HPT_CFG.dscp_ecp, c.dscpEcp), (HPT_CFG.ecp_port, c.ecpPort), (HPT_CFG.vid, c.vid), (HPT_CFG.tagged, c.tagged)]
    (fun s x => s.rs (uPort p) x.1 x.2)

/-- A host port in reset. -/
def State.portGone (s : State) (p : Nat) : State := ({ s with ports := mdel s.ports p }).resetRegs (uPort p)

/-- Registers of a tile that the light list gives. -/
def State.loadTile (s : State) (t : Nat) : State :=
  let r := s.light.tiles.getD t (0, 0)
  let s := (s.rs (uTile t) SEQ_ROLE.role (if t = s.light.primary then 1 else if t = s.light.standby then 2 else 0)).rs
    (uTile t) MMU_CACHE_CFG.size r.1
  let s := s.each (List.range 10) (fun s m => s.ms (uTile t) m D2D_CTL.max_rate r.2)
  let s := s.ms (uToe t) 0 D2D_CTL.max_rate r.2
  if t = 0 then s.loadPort 0 else if t = s.cols then s.loadPort 1 else s

/-! ### Bytes under way (R452, R455, R456) -/

/-- A station is a channel of a tile, or leads into it, or is a bond port of its die. -/
def State.touches (s : State) (t st : Nat) : Bool :=
  if st < 0x10000 then chTile st == t || (chKind st == 2 && s.neighbour (chTile st) (portNo (st % 4)) == some t)
  else (st - 0x10000) / 128 == t

def isEdge (st : Nat) : Bool := st < 0x10000 && chKind st == 2

/-- The edges of a way that crossed a lost tile, by the shortest path that remains. -/
def State.around (s : State) (t : Nat) (way : List Nat) : Option (List Nat) :=
  match way.head?, way.getLast? with
  | some x, some y =>
    (match s.neighbour (chTile y) (portNo (y % 4)) with
     | some b =>
       if chTile x = t ∨ b = t then none else s.search (fun ch => !s.touches t ch) b 9 [chTile x] [(chTile x, [])]
     | none => none)
  | _, _ => some way

/-- A path without a lost tile: its edges go around it; a path with another station there has none. -/
def State.detour (s : State) (t : Nat) : Nat → List Nat → Option (List Nat)
  | 0, p => if p.any (s.touches t) then none else some p
  | fuel + 1, p =>
    let way := p.takeWhile isEdge
    let new := if way.any (s.touches t) then s.around t way else some way
    match new, p.dropWhile isEdge with
    | some w, y :: more => if s.touches t y then none else (s.detour t fuel more).map (w ++ y :: ·)
    | w, _ => w

/-- A run that cannot go on meets a synthetic error completion: the DMA transfer that issued it ends with error 0x0B; a peer's transfer is
refused, for its destination or, passed on, for want of a route. -/
def State.runFails (s : State) (r : Run) : State :=
  match r.eng, r.from_, r.msg with
  | some k, _, m =>
    if r.ctx ≥ 64 ∨ s.cstate r.ctx = cFree ∨ s.lateAborts.any (fun a => a.1 == r.ctx) then s
    else
      let s := match m with
        | some m => s.setLink m.link { s.link m.link with out := (s.link m.link).out.filter (fun o => o.tag != m.args.headD 0) }
        | none => s
      s.issuedError k r.ctx 0xB r.idx r.dla r.live
  | none, some (l, tag), _ =>
    (match (s.link l).xfers.find? (fun x => x.tag == tag && x.good) with
     | some x => (s.refusePeer l x.pod x.pkg tag 1).setXfer l { x with good := false }
     | none => s)
  | none, none, some m => refuseEff m.link (m.args.getD 2 0) (m.args.getD 3 0) (m.args.headD 0) 2 s
  | none, none, none =>
    (match r.host.bind (fun h => (mfind s.qps h.1).map (fun q => (h.1, q))) with
     | some (qpn, q) => if q.err then s else s.accessError q.port qpn q
     | none => s)

/-- What is under way when a tile goes: what crossed it goes around it, and what waits in it, starts from it or ends in it is lost. -/
def State.loseRuns (s : State) (t : Nat) : State :=
  let way (r : Run) : Option (List Nat) := if r.tile = t then none else s.detour t r.path.length r.path
  State.each { s with net := s.net.filterMap (fun r => (way r).map (fun p => { r with path := p })) }
    (s.net.filter (fun r => (way r).isNone)) State.runFails

/-- Bytes on their way through the bond ports that satisfy `p` are lost. -/
def State.dropBonds (s : State) (p : Nat → Bool) : State :=
  { s with net := s.net.filter (fun r => !r.path.any (fun st => decide (st ≥ 0x10000) && p ((st - 0x10000) / 2))) }

/-! ### Contexts (R453) -/

/-- The contexts that use what `p` says are aborted for reason 0x14. -/
def State.abortUsers (s : State) (p : State → Nat → Bool) : State :=
  s.abortWhere (fun s c => s.cstate c != cFree && p s c) 0x14

/-- A context uses a tile: by its image, or by the instance bound to it. -/
def State.ctxOnTile (s : State) (t c : Nat) : Bool := (s.ctx c).plan.usesTile t || s.srvCtx t == some c

/-! ### Modules -/

/-- A side in reset: OFF, its registers and state gone. The other side enters DOWN until the clocks return (R262, R274). -/
def State.modOff (s : State) (u m : Nat) : State :=
  let s := s.setModState u m 0
  let s := { s with d2d := mdel s.d2d (modKey u m) }
  match s.otherSide u m with
  | none => s
  | some (v, n) =>
    let st := s.modState v n
    if !s.unitUp v ∨ st = 0 then s
    else
      let s := if st = 9 then s else s.modDown v n
      s.setMod v n { s.mod v n with noClock := true }

/-- The two sides of a module train: one has come out of a reset (R263). -/
def State.modBack (s : State) (u m : Nat) (cold : Bool) : State :=
  match s.otherSide u m with
  | none => s
  | some (v, n) => if s.unitUp v then (s.trainMod u m cold).trainMod v n cold else s

/-! ### Dies and engines (R455) -/

/-- What a compute die loses: every engine, grant and waiter at once. -/
def State.dieGone (s : State) (d : Nat) : State :=
  let s := s.abandon (fun w => waiterIsEngine w.waiter && w.waiter / 512 == d)
  let s := (s.abortUsers (fun s c => (s.ctx c).plan.usesDie d)).dropBonds (fun ck => ck / 64 == d)
  let s := { s with
    engs := s.engs.filter (fun e => e.1 / 512 != d)
    cores := s.cores.filter (fun e => e.1 / 64 != d) }
  ((s.spoilDie d).resetRegs (uDie d)).loadDie d

/-- What an optical engine loses: its links, its lasers' light, its calibration. -/
def State.toeGone (s : State) (e : Nat) : State :=
  let ls := (List.range 8).map (fun i => 8 * e + i)
  let s := s.abortUsers (fun s c => (s.ctx c).plan.usesToe e)
  let s := s.each ls (fun s l => s.linkFall l 6)
  let s := s.each ls (fun s l => s.setSafety l 0)
  let s := { s with
    opts := s.opts.filter (fun o => o.1 / 8 != e)
    waves := s.waves.filter (fun w => w.1 / 256 != e) }
  ((s.resetRegs (uToe e)).loadToe e).modOff (uToe e) 0 |>.rs (uToe e) D2D_CTL.max_rate (s.light.tiles.getD e (0, 0)).2

/-- A die (0x2t) or an engine (0x3t) leaves: fenced in the tick, its object ended. -/
def State.fenceUnit (s : State) (u : Nat) : State :=
  let t := u % 16
  let s := s.markEnd u
  let s := { s with boot := { s.boot with unitIds := mdel s.boot.unitIds u } }
  if u / 16 = 2 then (s.setFence t EVT_FENCE.die 2).dieGone t else (s.setFence t EVT_FENCE.engine 2).toeGone t

/-! ### Tiles (R456) -/

/-- What the sensors of a position keep until a cold reset: which are faulty (R395). -/
def Sensors.kept (x : Sensors) : Sensors := { faulty := x.faulty }

/-- The state of a tile position's units, gone. -/
def State.tileGone (s : State) (t : Nat) : State :=
  let s := if s.dieSt t = 0 then s else s.setFence t EVT_FENCE.die 2
  let s := if s.toeSt t = 0 then s else s.setFence t EVT_FENCE.engine 2
  let users := allCtx.filter (fun c => s.cstate c != cFree && s.ctxOnTile t c)
  let s := (s.endServing t).abandon (fun w => waiterIsService w.waiter && waiterTile w.waiter == t)
  let s := s.each users (fun s c => s.abortCtx c 0x14)
  let s := ((s.dieGone t).toeGone t).loseRuns t
  let s := s.each (List.range 10) (fun s m => s.modOff (uTile t) m)
  let s := s.setHub t {}
  let s := { s with
    seqs := mdel s.seqs t
    links := s.links.filter (fun l => l.1 / 8 != t)
    cacheReq := mdel s.cacheReq t
    hbm := s.hbm.filter (fun h => h.1 / 2 != t)
    sensors := s.sensors.map (fun (e : Nat × Sensors) => if e.1 = t then (t, e.2.kept) else e)
    testing := s.testing.filter (fun u => u % 16 != t)
    missed := mdel s.missed t
    boot := { s.boot with unitIds := mdel (mdel s.boot.unitIds (uDie t)) (uToe t) } }
  let s := ((s.spoilTile t).dropCache t).resetRegs (uTile t)
  let s := if t = 0 then s.portGone 0 else if t = s.cols then s.portGone 1 else s
  (s.loadTile t).loadToe t

/-! ### The whole package -/

/-- Everything that the tile positions hold, gone. -/
def State.allGone (s : State) : State :=
  let s := { s with
    cores := [], engs := [], hubs := [], ctxs := [], admits := [], seqs := [], tlbHeld := [], tlbCur := none, hbm := []
    caches := [], cacheReq := [], net := [], links := [], opts := [], waves := [], d2d := [], dies := [], mrs := [], qps := [], ports := []
    sensors := s.sensors.map (fun (e : Nat × Sensors) => (e.1, e.2.kept))
    planReady := [], lateAborts := [], lateStops := [], testing := [], missed := [], serving := []
    regs := s.regs.filter (fun p => keyUnit p.1 == 0 || keyUnit p.1 == 0xF0)
    fresh := s.fresh.filter (fun p => keyUnit p.1 == 0 || keyUnit p.1 == 0xF0)
    claim := { s.claim with queued := [] } }
  let s := s.each [0, 1] (fun s m => s.setModState 0 m 0)
  s.scramble 0 (2 ^ 52)

/-- Power is removed from every tile position. -/
def State.powerOff (s : State) : State :=
  let s := s.each ((List.range s.nTiles).filter (fun t => s.tileSt t != 0)) (fun s t =>
    let s := if s.tileSt t = 1 then s.markEnd (uTile t) else s
    let s := s.setFence t EVT_FENCE.tile 2
    let s := if s.dieSt t = 0 then s else s.setFence t EVT_FENCE.die 2
    if s.toeSt t = 0 then s else s.setFence t EVT_FENCE.engine 2)
  s.allGone.markEnd oPackage

/-- An in-band interrupt, with the stage as its byte (R471). -/
def State.interrupt (s : State) : State :=
  { s with boot := { s.boot with ibi := s.boot.ibi ++ [s.rg 0 CFG_BOOT.stage] } }

/-- pkg_fault_n falls and pkg_ready with it (R469, R461). -/
def State.failPins (s : State) : State :=
  if s.boot.fault then { s with boot := { s.boot with ready := false } }
  else { s with boot := { s.boot with fault := true, ready := false } }.interrupt

/-- The events of the log, oldest first, that a record takes. -/
def State.lastEvents (s : State) : List EvRec :=
  let head := s.rg 0 EVT_LOG_PTR.head
  let n := Nat.min head 64
  (List.range n).filterMap (fun i => mfind s.ev.log ((head - n + i) % 8192))

/-- Mean of the last `n` samples: their sum and number. -/
def State.meanOf (s : State) (n : Nat) : Nat × Nat :=
  let l := s.pwr.samples.take n
  (l.foldl (· + ·) 0, l.length)

/-- A shutdown record, in the next slot (R400). -/
def State.record (s : State) (cause unit sensor : Nat) : State :=
  let m := s.meanOf 10
  let temps := (List.range 8).map (fun t => if s.tileUp t then ((mget s.sensors t {}).hist.headD []) else [])
  { s with
    shuts := mput s.shuts (s.shutNo % 8)
      { cause := cause, unit := unit, sensor := sensor, tick := s.tick, mv := s.pwr.mv, p100 := m.1 / Nat.max 1 m.2
        seq := s.shutNo + 1, temps := temps, events := s.lastEvents }
    shutNo := s.shutNo + 1 }

/-- A second cause of the same tick goes into the record's `also` (R403). -/
def State.alsoCause (s : State) (code : Nat) : State :=
  let i := (s.shutNo + 7) % 8
  match mfind s.shuts i with
  | some r => if r.also = 0 ∧ s.pwr.downAt = s.tick then { s with shuts := mput s.shuts i { r with also := code } } else s
  | none => s

/-- The part shuts down for a cause: the record, then the power, then the pins (R397, R398, R458). -/
def State.shutdown (s : State) (kind : Down) (cause unit sensor : Nat) : State :=
  if s.pwr.down = .up then
    let s := (s.record cause unit sensor).powerOff
    ({ s with pwr := { s.pwr with down := kind, downAt := s.tick } }).failPins
  else s.alsoCause cause

/-- The safe stop (R458). -/
def State.packageSafeStop (s : State) : State :=
  if s.pwr.down = .up then (s.shutdown .safeStop 0xA061 0 0xFF).rs 0 EVT_STATUS.safe_stop 1 else s.alsoCause 0xA061

/-- A tile is lost (R456); the loss of one that the tick has already ended is subsumed (R445). -/
def State.loseTile (s : State) (t : Nat) : State :=
  if s.tileSt t = 1 then
    let s := s.raise 0x5030 (uTile t) 0 0 0 (s.unitEnded (uTile t))
    let s := (s.setFence t EVT_FENCE.tile 2).markEnd (uTile t)
    let s := (s.tileGone t).rs 0 CFG_BOOT.degraded 1
    let s := { s with boot := { s.boot with lostAny := true } }
    if s.tileSt 0 != 1 ∧ s.tileSt s.cols != 1 then s.packageSafeStop else s
  else if s.endedNow (uTile t) then s.raise 0x5030 (uTile t) 0 0 0 true
  else s

end Sys2Proof.Machine
end

