-- ==== Sys2Proof/Machine/Power.lean ====
section
/-!
DEFINITION. Supply, cap, operating points, leave grants, droop, sensors and thermal limits (chapter Power, Droop and Thermal Management),
and what passes with a tick.
-/

namespace Sys2Proof.Machine

/-! ### The leave grants of a die (R387 to R390) -/

def State.die (s : State) (d : Nat) : DiePwr := mget s.dies d {}
def State.setDie (s : State) (d : Nat) (x : DiePwr) : State := { s with dies := mput s.dies d x }

/-- The cores of a die, by number in the package. -/
def coresOf (d : Nat) : List Nat := (List.range 64).map (fun c => d * 64 + c)

/-- Cores that hold a grant; rise and fall places in use. -/
def State.leaveCount (s : State) (d : Nat) (p : Leave → Bool) : Nat := ((coresOf d).filter (fun ck => p (s.core ck).leave)).length
def holdsGrant (l : Leave) : Bool := l == .ramp || l == .full || l == .down
def State.leaveHolders (s : State) (d : Nat) : Nat := s.leaveCount d holdsGrant
def State.rising (s : State) (d : Nat) : Nat := s.leaveCount d (· == .ramp)
def State.falling (s : State) (d : Nat) : Nat := s.leaveCount d (· == .down)

/-- Requests that wait, as sample tick, core and whether it is a rise. -/
def State.leaveRequests (s : State) (d : Nat) : List (Nat × Nat × Bool) :=
  (coresOf d).filterMap (fun ck =>
    let c := s.core ck
    if c.leave = .req then some (c.reqAt, ck, true)
    else match c.downReq with
      | some t => some (t, ck, false)
      | none => none)

/-- n_max at the die's point. -/
def State.nMax (s : State) (d : Nat) : Nat := 500 / mget s.fuses.swing (d * 16 + s.rg (uDie d) PWR_DIE.point) 61

/-- Insertion by sample tick; the list is in core order. -/
def byTick (l : List (Nat × Nat × Bool)) : List (Nat × Nat × Bool) :=
  l.foldr (fun x acc => acc.takeWhile (fun y => y.1 < x.1) ++ x :: acc.dropWhile (fun y => y.1 < x.1)) []

/-- One pending request: granted, or left; whether a rise waited on n_act. -/
def State.grantOne (d : Nat) (a : State × Bool) (r : Nat × Nat × Bool) : State × Bool :=
  let s := a.1
  let c := s.core r.2.1
  if r.2.2 then
    (if s.leaveHolders d ≥ s.rg (uDie d) PWR_DIE.n_act then (s, true)
     else if s.rising d < s.nMax d then
       ((s.setCore r.2.1 { c with leave := .ramp, level := 1, stepAt := s.tick }).radd (uDie d) CORE_LEAVE.grants 1
         (dCore (r.2.1 % 64)), a.2)
     else a)
  else if c.leave = .full ∧ s.falling d < s.nMax d then
    let busy := s.matrixBusy r.2.1
    (s.setCore r.2.1 { c with
      leave := .down, falling := !busy, stepAt := s.tick, level := 8, downReq := none, downHard := false }, a.2)
  else a

def leaveGrantEff (d : Nat) (s : State) : State :=
  let l := byTick ((s.leaveRequests d).filter (fun r => r.1 ≤ s.tick))
  let r := l.foldl (State.grantOne d) (s, false)
  let s := r.1
  let x := s.die d
  let ms := s.tick / 100000
  if r.2 ∧ x.pacedMs ≠ some ms then
    (s.setDie d { x with pacedMs := some ms }).rinc (uDie d) PWR_STEWARD.paced_ms 1
  else s

/-- Cores that may be revoked, in the order of R390: those with no matrix command executing first, each by descending number. -/
def State.revocable (s : State) (d : Nat) : List Nat :=
  let l := ((coresOf d).filter (fun ck =>
    let c := s.core ck
    (c.leave == .ramp || c.leave == .full) && !(c.downReq.isSome && c.downHard))).reverse
  l.filter (fun ck => !s.matrixBusy ck) ++ l.filter (fun ck => s.matrixBusy ck)

/-- n_act of a die; grants beyond it are revoked. -/
def State.setNAct (s : State) (d n : Nat) : State :=
  let s := s.rs (uDie d) PWR_DIE.n_act n
  let leaving := ((coresOf d).filter (fun ck =>
    let c := s.core ck
    c.leave == .down || (holdsGrant c.leave && c.downReq.isSome && c.downHard))).length
  let gone := (s.revocable d).take (s.leaveHolders d - leaving - n)
  (s.each gone (fun s ck => s.askDown ck true)).rinc (uDie d) PWR_STEWARD.revokes gone.length

/-! ### Points and steps (R385, R386, R391, R393) -/

def State.dynamic (s : State) : Bool := s.rg 0 PWR_MODE.mode == 0
def State.ceiling (s : State) : Nat := if s.rg 0 PWR_MODE.boost_en = 1 then 15 else 9

/-- The die's current point. -/
def State.setPoint (s : State) (d p : Nat) : State :=
  let s := s.rs (uDie d) PWR_DIE.point p
  s.rs (uDie d) PWR_DIE.n_max (Nat.min (s.nMax d) 15)

/-- A step begins: a fall switches at the next tick boundary, a rise once the rail has settled. -/
def State.beginStep (s : State) (d p : Nat) : State :=
  let cur := s.rg (uDie d) PWR_DIE.point
  let up : Bool := decide (p > cur)
  (s.setDie d { s.die d with
    stepping := true, from_ := cur, rise := up, switchAt := if up then none else some (s.tick + 1), reversed := false }).rs
    (uDie d) PWR_DIE.target p

/-- A throttle (true) or release step (R385). -/
def State.applyStep (s : State) (d : Nat) (cut : Bool) : State :=
  let p := s.rg (uDie d) PWR_DIE.point
  let n := s.rg (uDie d) PWR_DIE.n_act
  if cut then
    (if s.dynamic && decide (p > 0) then s.beginStep d (p - 1) else s.setNAct d (Nat.max 8 (n - 8)))
  else if n < 64 then s.setNAct d (n + 8)
  else if s.dynamic && decide (p < s.ceiling) then s.beginStep d (p + 1)
  else s

/-- What waits goes on: the steps of a mode write, then the throttle and release steps that fell due. -/
def State.nextSteps (d : Nat) : Nat → State → State
  | 0, s => s
  | fuel + 1, s =>
    let x := s.die d
    if x.stepping ∨ x.holdTo.isSome then s
    else
      let p := s.rg (uDie d) PWR_DIE.point
      match x.goal with
      | some g =>
        if g = p then State.nextSteps d fuel (s.setDie d { x with goal := none })
        else s.beginStep d (if g > p then p + 1 else p - 1)
      | none =>
        match x.due with
        | [] => s
        | b :: rest => State.nextSteps d fuel ((s.setDie d { x with due := rest }).applyStep d b)

def State.runSteps (s : State) (d : Nat) : State := State.nextSteps d ((s.die d).due.length + 2) s

/-- A step falls due; one due during a step or a hold waits. -/
def State.stepDue (s : State) (d : Nat) (cut : Bool) : State :=
  let x := s.die d
  (s.setDie d { x with due := x.due ++ [cut] }).runSteps d

/-- A die is under a limit of Table 14-5 other than the alarm (R396). -/
def State.heldTh (s : State) (d : Nat) : Bool := s.rg (uDie d) PWR_DIE.held_th == 1

/-- The guard suppresses release steps (R384). -/
def State.guarded (s : State) : Bool :=
  match s.pwr.guardAt with
  | some t => s.tick < t + 10000000
  | none => false

/-- n_act halved, to a multiple of 8, at least 8 (R384, Table 14-5). -/
def State.halveAct (s : State) (d : Nat) : State := s.setNAct d (Nat.max 8 (8 * (s.rg (uDie d) PWR_DIE.n_act / 16)))

/-- The die may take a release step: not thermally held, nor within 10 ms of it, nor while the guard suppresses them (R383, R384, R396). -/
def State.mayRelease (s : State) (d : Nat) : Bool := !s.heldTh d && decide (s.tick ≥ (s.die d).hotTo) && !s.guarded

/-- A source does something to a die in this tick. -/
def State.cut (s : State) (c : Cut) : State := { s with pwr := { s.pwr with cuts := s.pwr.cuts ++ [c] } }

/-- The cuts of a tick in the order of their events (Table 14-9): by unit, then by code. -/
def sortCuts (l : List Cut) : List Cut :=
  l.foldr (fun x acc =>
    let before (y : Cut) : Bool := decide (y.unit < x.unit) || (y.unit == x.unit && decide (y.code < x.code))
    acc.takeWhile before ++ x :: acc.dropWhile before) []

/-- One of them; a release step gives way to any other source for its die. -/
def State.applyCut (l : List Cut) (s : State) (c : Cut) : State :=
  if !s.dieUp c.die then s
  else
    match c.kind with
    | .throttle => s.stepDue c.die true
    | .halve => s.halveAct c.die
    | .release =>
      if l.any (fun y => y.die == c.die && y.kind != .release) || !s.mayRelease c.die then s else s.stepDue c.die false

/-- The steps and cuts of the tick take effect. -/
def State.applyCuts (s : State) : State :=
  let l := sortCuts s.pwr.cuts
  State.each { s with pwr := { s.pwr with cuts := [] } } l (State.applyCut l)

/-- LEAVE_GRANT, once every request of the tick is sampled and its revocations are made (R388, Table 14-9). A shutdown stops every grant. -/
def execLeaveGrant (die : Nat) (s : State) : Out := s.inTurn (.leaveGrant die) (fun s =>
    if s.dieUp die ∧ s.pwr.down = .up then ok (leaveGrantEff die s.applyCuts) else ok s)

/-- RAIL_SETTLED. -/
def execRailSettled (die : Nat) (s : State) : Out :=
  let x := s.die die
  if s.dieUp die ∧ x.stepping ∧ x.rise ∧ x.switchAt = none then
    ok (s.setDie die { x with rail := s.rg (uDie die) PWR_DIE.target, switchAt := some (s.tick + 1) })
  else ok s

/-- SETTLE_WINDOW_END: the rail takes the voltage of the point. -/
def execSettleWindowEnd (die : Nat) (s : State) : Out :=
  let x := s.die die
  match x.switchAt with
  | none => ok s
  | some t =>
    if s.tick < t + 20 ∨ !x.stepping ∨ !s.dieUp die then ok s
    else
      let p := s.rg (uDie die) PWR_DIE.point
      let s := s.setDie die { x with stepping := false, switchAt := none, reversed := false, rail := p }
      ok ((s.rs (uDie die) PWR_DIE.target p).runSteps die)

/-- A trip within the tick of a switch or its settle window reverses the step (R393). -/
def State.reverseStep (s : State) (d : Nat) : State :=
  let x := s.die d
  match x.switchAt with
  | none => s
  | some t =>
    if x.stepping ∧ !x.reversed ∧ t ≤ s.tick ∧ s.tick < t + 20 then
      let s := if s.tick = t then s.setPoint d x.from_ else s
      let back := if s.tick = t then t else s.tick + 1
      let s := s.setDie d { x with reversed := true, switchAt := some back, holdTo := some (back + 2000) }
      let s := (s.rs (uDie d) PWR_DIE.target x.from_).rs (uDie d) PWR_DIE.held_vf 1
      (s.rinc (uDie d) PWR_DROOP.reversals 1).raise 0x2030 (uDie d)
    else s

/-- DROOP_TRIP. A stretch that starts while the island is stretched extends the one under way. -/
def execDroopTrip (c : CoreId) (s : State) : Out :=
  if s.dieUp c.die then
    let ck := coreKey c.die c.core
    let s := if (s.core ck).stretched then s
      else (s.setCore ck { s.core ck with stretched := true }).rinc (uDie c.die) PWR_DROOP.stretches 1
    ok (s.reverseStep c.die)
  else ok s

/-- STRETCH_END after `cycles` stretched cycles. -/
def execStretchEnd (c : CoreId) (cycles : Nat) (s : State) : Out :=
  let ck := coreKey c.die c.core
  if s.dieUp c.die ∧ (s.core ck).stretched then
    ok ((s.setCore ck { s.core ck with stretched := false }).rinc (uDie c.die) PWR_DROOP.cycles cycles)
  else ok s

/-- STEP_HOLD_END. -/
def execStepHoldEnd (die : Nat) (s : State) : Out :=
  let x := s.die die
  match x.holdTo with
  | none => ok s
  | some t =>
    if s.tick < t ∨ !s.dieUp die then ok s
    else ok (((s.setDie die { x with holdTo := none }).rs (uDie die) PWR_DIE.held_vf 0).runSteps die)

/-- The mode of Table 14-11 as a write gives it. -/
def State.setMode (s : State) (mode point boost : Nat) : State :=
  let s := ((s.rs 0 PWR_MODE.mode mode).rs 0 PWR_MODE.point point).rs 0 PWR_MODE.boost_en boost
  s.each ((List.range s.nTiles).filter s.dieUp) (fun s d =>
    let p := s.rg (uDie d) PWR_DIE.point
    let goal := if mode = 1 then some point else if p > s.ceiling then some s.ceiling else none
    (s.setDie d { s.die d with goal := goal }).runSteps d)

/-- A write of PWR_MODE: what it asks for waits for the end of its tick. -/
def pwrModeWriteEff (v : Nat) (s : State) : State :=
  let s := if bitsOf v 6 1 = 1 then s.clr 0 PWR_MODE.refused else s
  { s with pwr := { s.pwr with modeReq := some (bitsOf v 0 1, Nat.min (bitsOf v 1 4) 9, bitsOf v 5 1) } }

/-- The mode written in the tick, decided at its end: effective only with every context FREE (R386). -/
def State.decideMode (s : State) : State :=
  match s.pwr.modeReq with
  | none => s
  | some (mode, point, boost) =>
    let s := { s with pwr := { s.pwr with modeReq := none } }
    if mode = s.rg 0 PWR_MODE.mode ∧ point = s.rg 0 PWR_MODE.point ∧ boost = s.rg 0 PWR_MODE.boost_en then s
    else if s.allFree then s.setMode mode point boost
    else (s.rinc 0 PWR_MODE.refused 1).raise 0x2022 0

/-- PWR_MODE_WRITE. -/
def execPwrModeWrite (v : Word) (s : State) : Out := ok (pwrModeWriteEff v.toNat s)

/-! ### Supply, cap and guard (R380 to R384) -/

/-- INPUT_LOW: reported only. -/
def execInputLow (mv : Nat) (s : State) : Out :=
  if s.running ∧ mv < 40000 then
    ok (({ s with pwr := { s.pwr with mv := mv } }.rs 0 PWR_STATUS.input_low 1).raise 0x2010 0)
  else ok s

/-- A voltage and a code that Table 14-1 joins: the input low or high, or a keeper rail. -/
def supplyBad (code mv : Nat) : Bool :=
  (code == 0x2001 && decide (mv < 37000)) || (code == 0x2002 && decide (mv > 60000)) || code == 0x2004

/-- SUPPLY_FAULT: the supply shutdown (R398). In the tick of an earlier shutdown it is subsumed. -/
def execSupplyFault (code mv : Nat) (s : State) : Out := s.inTurn (.supplyFault code mv) (fun s =>
    if s.boot.awake ∧ s.boot.high ∧ supplyBad code mv then
      let s := { s with pwr := { s.pwr with mv := mv } }
      let s := s.raise code 0 0 0 0 (s.pwr.down != .up)
      ok (s.shutdown .supply code 0 0xFF)
    else ok s)

/-- TILE_RAIL_FAULT. -/
def execTileRailFault (tile : Nat) (s : State) : Out := s.inTurn (.tileRailFault tile) (fun s =>
    if (s.running && s.tileSt tile == 1) || s.endedNow (uTile tile) then
      ok ((s.raise 0x2003 (uTile tile) 0 0 0 (s.unitEnded (uTile tile))).loseTile tile)
    else ok s)

/-- Samples of the averaging window (R382): W is in 0.1 s, and a write of it takes effect at the next control tick. -/
def State.windowSamples (s : State) : Nat := (if s.pwr.window = 0 then s.rg 0 PWR_CAP.window else s.pwr.window) * 10000

def meanW (m : Nat × Nat) : Nat := Nat.min (m.1 / Nat.max 1 m.2) 65535

/-- POWER_SAMPLE. -/
def execPowerSample (watts mv : Nat) (s : State) : Out :=
  if s.running ∧ s.tick % 1000 = 0 ∧ 3 ≤ s.rg 0 CFG_BOOT.stage ∧ s.rg 0 CFG_BOOT.stage ≤ 8 then
    let s := { s with pwr := { s.pwr with samples := (watts :: s.pwr.samples).take 800000, mv := mv } }
    let m := s.meanOf 10
    let ovr : Bool := decide (m.1 > s.limitW * m.2)
    let s := { s with pwr := { s.pwr with
      ovr := if ovr then s.pwr.ovr + 1 else 0
      peak := decide (m.1 ≥ s.peakW * m.2) } }
    let s := (s.rs 0 PWR_INPUT.mv (Nat.min mv 65535)).rs 0 PWR_INPUT.p100_w (meanW m)
    let s := (s.rs 0 PWR_INPUT.p1ms_w (meanW (s.meanOf 100))).rs 0 PWR_INPUT.pw_w (meanW (s.meanOf s.windowSamples))
    ok (if mv ≥ 40000 then s.rs 0 PWR_STATUS.input_low 0 else s)
  else ok s

/-- The keeper does the same to every compute die. -/
def State.cutAll (s : State) (code : Nat) (k : CutKind) : State :=
  s.each (List.range s.nTiles) (fun s d => s.cut ⟨0, code, d, k⟩)

/-- PACKAGE_LIMIT_GUARD: 2,000 samples in a row over the limit, or a sample at the peak. -/
def execPackageLimitGuard (s : State) : Out :=
  if s.running ∧ (s.pwr.ovr ≥ 2000 ∨ s.pwr.peak) then
    let s := { s with pwr := { s.pwr with ovr := 0, peak := false, guardAt := some s.tick } }
    ok (((s.cutAll 0x2021 .halve).rinc 0 PWR_STATUS.guard_trips 1).raise 0x2021 0)
  else ok s

/-- The comparison of a control tick (R383). -/
def controlTickEff (s : State) : State :=
  let s := { s with pwr := { s.pwr with window := s.rg 0 PWR_CAP.window } }
  let w := s.meanOf s.windowSamples
  let m := s.meanOf 100
  let cap := s.rg 0 PWR_CAP.cap_w
  if w.2 = 0 then s
  else if w.1 ≥ cap * w.2 then
    let s := s.cutAll 0x2020 .throttle
    let s := if s.rg 0 PWR_STATUS.capping = 1 then s else s.raise 0x2020 0
    (s.rs 0 PWR_STATUS.capping 1).rinc 0 PWR_STATUS.cap_ms 1
  else
    let s := s.rs 0 PWR_STATUS.capping 0
    if 100 * w.1 ≤ 97 * cap * w.2 ∧ m.1 ≤ cap * m.2 then s.cutAll 0x2020 .release else s

/-- CONTROL_TICK, after the cap writes and the samples of its tick (Table 14-9). -/
def execControlTick (s : State) : Out := s.inTurn .controlTick (fun s =>
    if s.running ∧ s.tick % 100000 = 0 then ok (controlTickEff s) else ok s)

/-! ### Sensors (R394 to R396, R399) -/

def State.sens (s : State) (t : Nat) : Sensors := mget s.sensors t {}
def State.setSens (s : State) (t : Nat) (x : Sensors) : State := { s with sensors := mput s.sensors t x }

/-- The unit that a sensor of a position stands in (Table 14-4). -/
def sensorUnit (t i : Nat) : Nat := if i < 48 then uDie t else if i < 64 then uTile t else if i < 72 then uToe t else uTile t

/-- Rising order. -/
def sortInts (l : List Int) : List Int :=
  l.foldr (fun x acc => acc.takeWhile (fun y => decide (y < x)) ++ x :: acc.dropWhile (fun y => decide (y < x))) []

/-- The median; of an even number, the mean of the middle two, rounded down. -/
def median (l : List Int) : Int :=
  let a := sortInts l
  let n := a.length
  if n % 2 = 1 then a.getD (n / 2) 0 else (a.getD (n / 2 - 1) 0 + a.getD (n / 2) 0).ediv 2

def sensorBad (faulty i : Nat) : Bool := faulty / 2 ^ i % 2 == 1

/-- The neighbour set of a sensor (Table 14-4): of a laser-zone sensor the adjacent engine sensors, of the others what the fuses hold. -/
def State.nearsOf (s : State) (t i : Nat) : List (Nat × Int) :=
  if 64 ≤ i ∧ i < 72 then ((if i = 64 then [] else [i - 1]) ++ (if i = 71 then [] else [i + 1])).map (fun j => (j, 0))
  else mget s.fuses.nears (t * 74 + i) []

/-- The valid neighbours' readings, after their offsets; none where fewer than two remain. -/
def State.nearMedian (s : State) (t i : Nat) (faulty : Nat) (raw : List Int) : Option Int :=
  let l := (s.nearsOf t i).filter (fun n => !sensorBad faulty n.1)
  if l.length < 2 then none else some (median (l.map (fun n => raw.getD n.1 0 + n.2)))

/-- The readings in use. -/
def State.inUse (s : State) (t faulty : Nat) (raw : List Int) : List Int :=
  (List.range 74).map (fun i =>
    let v := raw.getD i 0
    if sensorBad faulty i then (s.nearMedian t i faulty raw).getD v else v)

/-- A run of reads that satisfy a condition. -/
def runOf (m : SMap Nat) (i : Nat) (b : Bool) : SMap Nat := if b then mput m i (mget m i 0 + 1) else mdel m i

/-- The band of a reading (R399). -/
def bandNext (cur : Nat) (q : Int) : Nat :=
  let up := ([140, 320, 380] : List Int).countP (fun b => decide (q ≥ b))
  let low := ([140, 320, 380] : List Int).countP (fun b => decide (q ≥ b - 12))
  if up > cur then up else if low < cur then low else cur

def maxInt (l : List Int) : Int := l.tail.foldl max (l.headD 0)

/-- A unit's band; a change raises 0x1050. -/
def State.setBand (s : State) (t u : Nat) (f : Fld) (q : Int) : State :=
  let cur := s.rg (uTile t) f
  let b := bandNext cur q
  if b = cur then s
  else
    let s := (s.rs (uTile t) f b).raise 0x1050 u
    if u / 16 = 3 then
      s.each ((List.range 8).map (fun i => 8 * t + i)) (fun s l =>
        (s.each (s.wavesOf l) (fun s p => s.takeOuts l p.1 p.2)).setBias l)
    else s

def State.alarm (s : State) (t : Nat) : State := s.rinc (uTile t) THM_STATUS.alarms 1

/-- A limit that takes one throttle step per 1 ms while it holds: the tick of its last step, and the state. -/
def State.limitStep (s : State) (t : Nat) (hot : Option Nat) (last : Option Nat) (code : Nat) : State × Option Nat :=
  match hot with
  | none => (s, none)
  | some i =>
    let due : Bool := match last with
      | none => true
      | some a => decide (s.tick ≥ a + 100000)
    let u := sensorUnit t i
    if due then (((s.cut ⟨u, code, t, .throttle⟩).raise code u i).alarm t, some s.tick) else (s, last)

/-- The first sensor of a range at a limit. -/
def hotIn (use : List Int) (lo n : Nat) (limit : Int) : Option Nat :=
  ((List.range n).map (· + lo)).find? (fun i => decide (use.getD i 0 ≥ limit))

/-- The die's hold follows its limits. -/
def State.noteHeld (s : State) (t : Nat) : State :=
  let x := s.sens t
  let held := x.dieAt.isSome || x.laserAt.isSome || x.hbmAt.isSome || !x.fast.isEmpty || s.rg (uTile t) THM_STATUS.darkened == 1
  let s := s.rs (uDie t) PWR_DIE.held_th (flagIf held 1)
  if held then s.setDie t { s.die t with hotTo := s.tick + 1000000 } else s

/-- Links darkened by the laser zone return to PILOT once every laser-zone sensor is below 80 °C. -/
def State.relight (s : State) (t : Nat) (use : List Int) : State :=
  if s.rg (uTile t) THM_STATUS.darkened = 1 ∧ (hotIn use 64 8 320).isNone then
    let s := s.rs (uTile t) THM_STATUS.darkened 0
    s.each ((List.range 8).map (fun i => 8 * t + i)) (fun s l =>
      let s := s.setOpt l { s.opt l with dark := false }
      if s.toeUp t ∧ s.og l TOE_CTL.enable = 1 ∧ !s.darkLink l ∧ s.og l TOE_STATUS.safety = 0 then s.setSafety l 1 else s)
  else s

/-- The limits and bands that the readings in use bring. -/
def State.applyLimits (s : State) (t : Nat) (use : List Int) : State :=
  let x := s.sens t
  let a := s.limitStep t (hotIn use 0 48 420) x.dieAt 0x1012
  let b := a.1.limitStep t (hotIn use 64 8 340) x.laserAt 0x1020
  let c := b.1.limitStep t (hotIn use 72 2 420) x.hbmAt 0x1030
  let s := c.1.setSens t { c.1.sens t with dieAt := a.2, laserAt := b.2, hbmAt := c.2 }
  let s := s.relight t use
  let s := s.setBand t (uDie t) THM_STATUS.band_die (maxInt (use.take 48))
  let s := s.setBand t (uTile t) THM_STATUS.band_tile (maxInt ((use.drop 48).take 16))
  let s := s.setBand t (uToe t) THM_STATUS.band_toe (maxInt ((use.drop 64).take 8))
  let s := s.rs (uTile t) THM_STATUS.max_die (twos 8 ((maxInt (use.take 48)).ediv 4))
  let s := s.rs (uTile t) THM_STATUS.max_laser (twos 8 ((maxInt ((use.drop 64).take 8)).ediv 4))
  s.noteHeld t

/-- A bit map with the sensors that have deviated at 1,000 reads in a row, 10 ms (R395). -/
def withApart (faulty : Nat) (apart : SMap Nat) : Nat :=
  (List.range 74).foldl (fun m i => if mget apart i 0 ≥ 1000 then m ||| 2 ^ i else m) faulty

/-- SENSOR_READ: the 74 readings of a position, in 0.25 °C. From the read that makes it faulty, a sensor's median stands for it. -/
def execSensorRead (tile : Nat) (quarters : List Int) (s : State) : Out :=
  if s.running ∧ s.tileUp tile ∧ s.tick % 1000 = 0 ∧ quarters.length = 74 then
    let x := s.sens tile
    let far (i : Nat) : Bool :=
      match s.nearMedian tile i x.faulty quarters with
      | some m => decide ((quarters.getD i 0 - m).natAbs > 32)
      | none => false
    let all := List.range 74
    let apart := all.foldl (fun m i => runOf m i (far i)) x.apart
    let bad := withApart x.faulty apart
    let use := s.inUse tile bad quarters
    let s := s.setSens tile { x with
      raw := quarters
      hist := (use :: x.hist).take 100
      apart := apart
      hot := ((List.range 8).map (· + 64)).foldl (fun m i => runOf m i (decide (use.getD i 0 ≥ 360))) x.hot
      trip := all.foldl (fun m i => runOf m i (!sensorBad bad i && decide (quarters.getD i 0 ≥ 460))) x.trip }
    ok (s.applyLimits tile use)
  else ok s

/-- SENSOR_FAULTY: deviating at 1,000 reads in a row, 10 ms. -/
def execSensorFaulty (tile index : Nat) (s : State) : Out :=
  let x := s.sens tile
  if s.running ∧ s.tileUp tile ∧ mget x.apart index 0 ≥ 1000 ∧ !sensorBad x.faulty index then
    let s := s.setSens tile { x with faulty := x.faulty ||| 2 ^ index, trip := mdel x.trip index }
    ok (s.raise 0x1040 (sensorUnit tile index) index)
  else ok s

/-- The sum of a sensor's readings over ten reads: ten times their mean. -/
def tenReads (h : List (List Int)) (i : Nat) : Int := (h.take 10).foldl (fun a r => a + r.getD i 0) 0

/-- Forty times the rate in °C/ms: quarters of a degree, ten reads. -/
def rate40 (h : List (List Int)) (i : Nat) : Int := tenReads h i - tenReads (h.drop 90) i

/-- RATE_COMPUTATION. -/
def execRateComputation (tile : Nat) (s : State) : Out :=
  let x := s.sens tile
  if s.running ∧ s.tileUp tile ∧ s.tick % 10000 = 0 ∧ x.hist.length ≥ 100 then
    let all := List.range 74
    let r := all.map (rate40 x.hist)
    let alarm := all.foldl (fun m i => runOf m i (decide (r.getD i 0 ≥ 160))) x.alarm
    let fastNow := all.filter (fun i => decide (r.getD i 0 ≥ 320))
    -- a sensor holds until its rate has stayed below 4 °C/ms for 10 computations
    let fast := all.foldl (fun m i =>
      if r.getD i 0 ≥ 320 then mput m i 0
      else match mfind m i with
        | none => m
        | some n => if r.getD i 0 ≥ 160 then mput m i 0 else if n + 1 ≥ 10 then mdel m i else mput m i (n + 1)) x.fast
    let s := s.setSens tile { x with
      alarm := alarm, rate := all.foldl (fun m i => mput m i ((r.getD i 0 * 5).ediv 2)) x.rate, fast := fast }
    let s := s.each (all.filter (fun i => mget alarm i 0 == 10)) (fun s i => (s.raise 0x1010 (sensorUnit tile i) i).alarm tile)
    let s := match fastNow with
      | i :: _ =>
        let u := sensorUnit tile i
        ((s.cut ⟨u, 0x1011, tile, .halve⟩).raise 0x1011 u i).alarm tile
      | [] => s
    ok (s.noteHeld tile)
  else ok s

/-- LASER_ZONE_DARKEN: a laser-zone sensor at 90 °C at 1,000 reads in a row, 10 ms. -/
def execLaserZoneDarken (engine : Nat) (s : State) : Out :=
  let x := s.sens engine
  match ((List.range 8).map (· + 64)).find? (fun i => mget x.hot i 0 ≥ 1000) with
  | some i =>
    if s.running ∧ s.tileUp engine ∧ s.rg (uTile engine) THM_STATUS.darkened = 0 then
      let s := s.rs (uTile engine) THM_STATUS.darkened 1
      let s := (s.raise 0x1021 (uToe engine) i).alarm engine
      let s := s.each ((List.range 8).map (fun j => 8 * engine + j)) (fun s l =>
        let s := s.setOpt l { s.opt l with dark := true }
        if s.toeUp engine ∧ s.og l TOE_STATUS.safety ≠ 0 then s.setSafety l 0 else s)
      ok (s.noteHeld engine)
    else ok s
  | none => ok s

/-- THERMAL_TRIP (R397). -/
def execThermalTrip (tile index : Nat) (s : State) : Out :=
  if s.running ∧ s.tileUp tile ∧ mget (s.sens tile).trip index 0 ≥ 3 ∧ !sensorBad (s.sens tile).faulty index then
    ok ((s.raise 0x1001 (sensorUnit tile index) index).shutdown .thermal 0x1001 (sensorUnit tile index) index)
  else ok s

/-! ### A tick -/

/-- The switches of this tick. -/
def State.switchDies (s : State) : State :=
  s.each s.dies (fun s e =>
    let x := e.2
    if x.stepping ∧ x.switchAt = some s.tick then
      s.setPoint e.1 (if x.reversed then x.from_ else s.rg (uDie e.1) PWR_DIE.target)
    else s)

/-- Static energy of a tick (Table 14-8): by cores held, in 64ths of a position; the rest, and the keeper's, the package's. -/
def State.staticEnergy (s : State) : State :=
  let s := s.each ((List.range s.nTiles).filter s.tileUp) (fun s t =>
    let held := s.ctxs.filterMap (fun e =>
      if s.holdsCores e.1 then
        let n := (e.2.plan.cores.filter (fun c => c.1 == t)).foldl (fun n c => n + popcount 64 c.2) 0
        if n = 0 then none else some (e.1, n)
      else none)
    let s := s.each held (fun s x => s.charge x.1 t 13 x.2)
    s.charge acctPkg t 13 (64 - held.foldl (fun n x => n + x.2) 0))
  s.charge acctPkg 8 13 64

/-- Cycles of a core's island in the tick that passes, of which `num / den` count; a stretched island runs at half its clock (R392). -/
def State.tickCycles (s : State) (ck num den : Nat) : Nat :=
  let f := point50 (s.rg (uDie (ck / 64)) PWR_DIE.point) * num
  let d := 2 * den * (if (s.core ck).stretched then 2 else 1)
  (s.tick + 1) * f / d - s.tick * f / d

/-- What the cycles of a tick add to an engine: a stall at a port counts in CORE_BUSY alone, a wait for FENCE.DATA or for a span operation in
the command's cycles (R111, R112). -/
def State.tickEngine (s : State) (k : Nat) : State :=
  let e := s.eng k
  let n := s.tickCycles (engCore k) 1 1
  match e.phase, e.queue with
  | .port, w :: _ => s.worked k w n
  | .fence, _ :: _ | .span, _ :: _ => s.setEng k { e with busy := e.busy + n }
  | _, _ => s

/-- In RAMP and FULL every array that does not execute a command runs dummy operands at the level in force (R100, Table 14-8). -/
def State.tickArrays (s : State) (ck : Nat) : State :=
  let c := s.core ck
  if c.leave = .ramp ∨ c.leave = .full then
    s.charge (s.coreAcct ck) (ck / 64) 3
      (((List.range 4).filter (fun m => !(s.eng (ck * 8 + m)).finishing m)).length * s.tickCycles ck c.level 8)
  else s

def State.tickCores (s : State) : State :=
  let s := s.each (s.engs.map (·.1)) State.tickEngine
  s.each (s.cores.map (·.1)) State.tickArrays

/-- Waits that a forced stop met and that the tick's settle did not release end with the tick (Table 6-11). -/
def State.endStoppedWaits (s : State) : State :=
  s.each (allCtx.filter (fun c => s.cstate c == cStopping && (s.ctx c).forced)) State.endWaits

/-- SEQ_CTX_PREEMPT.preempted_tk: the tk spent in STOPPING and PREEMPTED. -/
def State.tickPreempted (s : State) : State :=
  s.each (allCtx.filter (fun c => s.cstate c == cStopping || s.cstate c == cPreempted))
    (fun s c => s.cs SEQ_CTX_PREEMPT.preempted_tk c (min (s.cg SEQ_CTX_PREEMPT.preempted_tk c + 1) (2 ^ 48 - 1)))

end Sys2Proof.Machine
end

