-- ==== Sys2Proof/Machine/Boot.lean ====
section
/-!
DEFINITION. Power-up, cold reset, the boot stages, discovery and the fuse advance (chapters Boot, Light List and Security; Package
Organisation and Levels of Hierarchy; Electrical, Mechanical and Environmental Data).
-/

namespace Sys2Proof.Machine

/-! ### Cold reset (R451, R452, R467) -/

/-- Register fields that a cold reset keeps: what MRAM holds. -/
def coldKept (k : Nat) : Bool :=
  k == regKey 0 EVT_LOG_PTR.head 0 || k == regKey 0 EVT_LOG_PTR.tail 0 || k == regKey 0 CFG_IDKEY.next_leaf 0

/-- What a cold reset leaves: fuses, MRAM, the metering island and the pins of management; memory is undefined. The records of what the
part sent, and the counter of free values, are the model's own. -/
def State.coldClear (s : State) : State :=
  let fresh : State :=
    { pending := s.pending, later := s.later, freeCtr := s.freeCtr
      regs := s.regs.filter (fun p => coldKept p.1)
      answers := s.answers
      mem := s.mem
      ev := { log := s.ev.log, lost := s.ev.lost }
      lease := { sent := s.lease.sent }
      fuses := s.fuses, linkTx := s.linkTx, frames := s.frames, d2dSent := s.d2dSent, ecpOut := s.ecpOut
      shuts := s.shuts, shutNo := s.shutNo, met := s.met, mgmt := s.mgmt
      boot := { awake := s.boot.awake, ibi := s.boot.ibi } }
  fresh.scramble 0 (2 ^ 52)

/-- POWER_ON_RESET: the internal reset is released; pkg_rst_n is low. -/
def execPowerOnReset (s : State) : Out :=
  if s.boot.awake then ok s
  else
    let s := s.coldClear
    ok { s with boot := { s.boot with awake := true }, mgmt := {} }

/-- PKG_RST_N_RELEASE: stage ROM begins, and the keeper takes the flash pins. -/
def execPkgRstNRelease (fl : Flash) (s : State) : Out :=
  if s.boot.awake ∧ !s.boot.high then
    let s := s.coldClear
    ok { s with boot := { s.boot with high := true, flash := fl, busy := true } }
  else ok s

/-- PKG_RST_N_FALL, before everything else of its tick (R482): power is removed, no record is written. -/
def execPkgRstNFall (s : State) : Out := ok (if s.boot.high then s.coldClear else s)

/-- Every record under way or held goes into the log, within the hold-up of R381. -/
def State.flushEvents (s : State) : State :=
  let l := s.ev.held ++ s.ev.travel
  let s := { s with ev := { s.ev with held := [], travel := [] } }
  s.each (List.range l.length) (fun s i =>
    let rest := (List.range i).foldl (fun l _ => match firstHeld l with
      | some r => l.erase r
      | none => l) l
    match firstHeld rest with
    | some r => s.logOne r
    | none => s)

/-- INPUT_FALLS_BELOW_36V: with pkg_rst_n high the supply shutdown and its record come first; then the internal reset asserts. -/
def execInputFallsBelow36V (mv : Nat) (s : State) : Out := s.inTurn (.inputFallsBelow36V mv) (fun s =>
    if !s.boot.awake then ok s
    else
      let s :=
        if s.boot.high then
          let s := { s with pwr := { s.pwr with mv := mv } }
          let s := s.raise 0x2001 0 0 0 0 (s.pwr.down != .up)
          (s.shutdown .supply 0x2001 0 0xFF).flushEvents
        else s
      let s := s.coldClear
      ok { s with boot := { s.boot with awake := false }, mgmt := {} })

/-! ### HELD (R428, R430) -/

/-- The part enters HELD: the event, its code, no tile position powered, the pins. -/
def State.hold (s : State) (code : Nat) : State :=
  let s := (s.raise code 0).rs 0 CFG_BOOT.code code
  let s := s.powerOff.rs 0 CFG_BOOT.stage 9
  let s := { s with boot := { s.boot with busy := false } }
  if s.boot.fault then s.interrupt else s.failPins

/-- Bounds of the stages in ms from the release (Table 16-5). -/
def stageMs (stage : Nat) : Nat := [10, 20, 800, 1100, 1200, 1400, 1900, 3900, 4000].getD stage 0

/-- A stage under its bound, in a part that boots. -/
def State.booting (s : State) (stage : Nat) : Bool :=
  s.running && s.stage == stage && decide (s.tick ≤ s.boot.start + stageMs stage * 100000)

def State.enter (s : State) (stage : Nat) : State :=
  { s.rs 0 CFG_BOOT.stage stage with boot := { s.boot with entered := s.tick } }

/-! ### POWER: the L fields (R424) -/

def State.putDigest (s : State) (k : Nat) (d : List Byte) : State :=
  s.each (List.range 4) (fun s j => s.rs 0 CFG_DIGEST.bytes (unle ((d.drop (8 * j)).take 8)) (0x20 * k + 8 * j))

/-- The keeper's L fields, and the characteristic that follows from them. D2D_CTL.max_rate of the keeper's own narrow modules has reset code
L too, but the light list's record 0x0104 has entries for tiles only: it stays 0, the one rate these modules have (DESIGN CHOICE, log 103). -/
def State.loadKeeper (s : State) : State :=
  let f := s.boot.flash
  let l := s.light
  let s := ((s.rs 0 PWR_MODE.mode l.mode).rs 0 PWR_MODE.point l.point).rs 0 PWR_MODE.boost_en l.boost
  let s := ((s.rs 0 PWR_CAP.cap_w l.cap).rs 0 PWR_CAP.window l.window).rs 0 CFG_ID.root_slot (llSlot f)
  let s := s.rs 0 CFG_ID.schema (flashNum f 4 2)
  let s := ((s.putDigest 0 (imageDigest f)).putDigest 1 (sharedDigest f)).putDigest 2 (firmwareDigest f)
  let s := s.putDigest 3 (sha256 (llOwnerKey f))
  s.rs 0 LNK_CHAR.value (s.charOf ownMajor ownMinor)

/-- The tile positions are powered: every L field of their units is set. -/
def State.loadAll (s : State) : State :=
  s.each (List.range s.nTiles) (fun s t => ((s.loadTile t).loadToe t).loadDie t)

/-- A tile passes its ID to its compute die and its optical engine (R34 step 7). -/
def State.passId (s : State) (t i : Nat) : State :=
  { s with boot := { s.boot with unitIds := mput (mput s.boot.unitIds (uDie t) i) (uToe t) i } }

/-- A tile and its units are present (R34 step 8). -/
def State.admitTile (s : State) (t : Nat) : State :=
  let s := ((s.setFence t EVT_FENCE.tile 1).setFence t EVT_FENCE.die 1).setFence t EVT_FENCE.engine 1
  s.rs 0 CFG_BOOT.tiles (s.rg 0 CFG_BOOT.tiles ||| 2 ^ t)

/-- The sides of every module of the package. -/
def State.allSides (s : State) : List (Nat × Nat) :=
  ([(0, 0), (0, 1)] ++ (List.range s.nTiles).flatMap (fun t => (List.range 10).map (fun m => (uTile t, m))) ++
    (List.range s.nTiles).map (fun t => (uToe t, 0))).filter (fun x => (s.otherSide x.1 x.2).isSome)

def State.powerTiles (s : State) : State :=
  let s := s.loadKeeper.loadAll
  let cold := !s.boot.warm
  let s :=
    if s.rediscovers then
      { s with boot := { s.boot with assignAt := none, toldC := [], ids := [], unitIds := [], heard := [], edges := [] } }
    else
      let s := s.each ((List.range s.nTiles).filter (fun t => s.boot.heard.contains t)) (fun s t => (s.passId t t).admitTile t)
      if s.boot.heard.length < s.nTiles then s.rs 0 CFG_BOOT.degraded 1 else s
  s.each s.allSides (fun s x => s.trainMod x.1 x.2 cold)

/-! ### D2D: discovery (R34 to R38) -/

/-- Every tile is held in reset, and discovery waits for the next reset (R35, R36). -/
def State.holdTiles (s : State) : State :=
  let l := (List.range s.nTiles).filter (fun t => s.tileSt t == 1)
  let s := s.each l (fun s t => ((s.setFence t EVT_FENCE.tile 3).setFence t EVT_FENCE.die 2).setFence t EVT_FENCE.engine 2)
  { s.allGone with boot := { s.boot with stuck := true } }

/-- The event of a failed discovery; a returning tile (R457) stays lost, and else the package stops there. -/
def State.failDiscovery (s : State) (t code detail : Nat) : State :=
  let s := s.raise code (if code = 0x5011 ∨ code = 0xA010 then 0 else uTile t) t 0 detail
  if s.tileSt t = 3 then (s.tileGone t).setFence t EVT_FENCE.tile 2 else s.holdTiles

/-- ADVERTISEMENT: taken as the ID by a tile without one, which then advertises; compared by one that has it. -/
def execAdvertisement (tile : Nat) (port : Port) (id cols : Nat) (s : State) : Out :=
  let i := idFrom port id cols
  if !s.discovering tile then ok s
  else
    match s.idOf tile with
    | none => ok (s.takeId tile i.toNat)
    | some j => if i = j then ok s else ok (s.failDiscovery tile 0x5010 (s.edgeSet tile + 16 * (i.emod 256).toNat))

/-- The keeper's release at step 8 of R34. -/
def State.releaseAll (s : State) : State :=
  s.each s.allSides (fun s x =>
    (s.releaseHold x.1 x.2).setMod x.1 x.2 { (s.releaseHold x.1 x.2).mod x.1 x.2 with cold := false })

/-- Every position has reported or is known to be absent: the tiles are released. -/
def State.allHeard (s : State) : Bool := (List.range s.nTiles).all (fun t => s.boot.heard.contains t)

/-- The port that faces a port from the other side of an edge. -/
def facing : Port → Port
  | .n => .s
  | .e => .w
  | .s => .n
  | .w => .e

/-- The edge set of a tile with ID `i`, against the set that the position implies (R35): no edge beyond the grid, and none missing, on either
side, towards a tile that has reported; towards one that has not, the edge is judged when it does (log 84). -/
def State.edgesOk (s : State) (i edges : Nat) : Bool :=
  decide (i < s.nTiles) &&
  [Port.n, Port.e, Port.s, Port.w].all (fun p =>
    let has := bitsOf edges (edgeNo p) 1 == 1
    match s.neighbour i p with
    | none => !has
    | some n =>
      match mfind s.boot.edges n with
      | some e => (has && bitsOf e (edgeNo (facing p)) 1 == 1) || (s.stage == 8 && !s.tileUp n)
      | none => true)

/-- The edge modules of a tile have trained or failed: its edge set is recorded (R34 step 3). -/
def State.edgesSettled (s : State) (t : Nat) : Bool :=
  (List.range 8).all (fun m => (s.otherSide (uTile t) m).isNone || s.modUp (uTile t) m || s.modState (uTile t) m == 9 ||
    s.modState (uTile t) m == 0)

/-- Serials fused at a position (R34 step 8). -/
def State.serialsOf (s : State) (t : Nat) : List Nat := [0, 1, 2].map (fun i => mget s.fuses.serials (3 * t + i) 0)

/-- A named tile that returns is an agent until it has applied the snapshot that the holder sends it (R171). -/
def State.returnSeq (s : State) (t : Nat) : State :=
  let s := s.rs (uTile t) SEQ_ROLE.role 0
  match s.acting with
  | some h =>
    if s.standbyTile = some t then
      (s.setSeq h { s.seq h with unacked := [], readyView := false, standbyLost := false }).sendCopy .snapshot allCtx
    else s
  | none => s

/-- A tile that a tile reset brought back is present again (R457). -/
def State.returnTile (s : State) (t : Nat) : State :=
  let s := ((s.admitTile t).raise 0x5040 (uTile t)).returnSeq t
  let s := s.rs (uTile t) SEQ_LEASE.epoch (s.rg 0 KPR_LEASE.epoch)
  let s := s.each ((List.range 8).map (fun i => 8 * t + i)) (fun s l =>
    if s.og l TOE_CTL.enable = 1 then toeCtlEnableEff l true s else s)
  if (List.range s.nTiles).all s.tileUp then s.rs 0 CFG_BOOT.degraded 0 else s

/-- A tile can report: it holds an ID, its edges are settled, and its report comes within 10,000 tk of the first assignment, over a keeper
module that has trained (R34 step 7, R36); a returning tile has no bound. -/
def State.mayReport (s : State) (t : Nat) : Bool :=
  s.discovering t && (s.idOf t).isSome && s.edgesSettled t && (s.keeperUp 0 || s.keeperUp 1) &&
  (s.stage == 8 || (!s.boot.heard.contains t &&
    (match s.boot.assignAt with
     | some a => decide (s.tick ≤ a + 10000)
     | none => false)))

/-- REPORT: the ID and edge set that the tile holds, and the serials and variant it gives, checked against the position map and the
fuses (R34 step 8, R35). -/
def execReport (r : TileReport) (s : State) : Out :=
  let t := r.tile
  match s.idOf t with
  | none => ok s
  | some i =>
    let edges := s.edgeSet t
    if !s.mayReport t then ok s
    else
      let s := s.passId t i
      if (t = s.cols ∧ i ≠ s.cols) ∨ !s.edgesOk i edges then ok (s.failDiscovery t 0x5010 (edges + 16 * i))
      else if r.variant ≠ s.fuses.tiles ∨ r.serials ≠ s.serialsOf i then ok (s.failDiscovery t 0xA010 0)
      else
        let s := { s with boot := { s.boot with edges := mput s.boot.edges t edges } }
        if s.stage = 8 then ok (s.returnTile t)
        else
          let s := s.admitTile t
          let s := { s with boot := { s.boot with heard := s.boot.heard ++ [t] } }
          ok (if s.allHeard then s.releaseAll else s)

/-- A tile is overdue: no report within 100 µs of the first assignment (R36). -/
def State.overdue (s : State) (t : Nat) : Bool :=
  s.discovering t && s.stage == 4 && !s.boot.heard.contains t &&
  (match s.boot.assignAt with
   | some a => decide (s.tick > a + 10000)
   | none => false)

/-- TILE_ABSENT. -/
def execTileAbsent (tile : Nat) (s : State) : Out :=
  if !s.overdue tile then ok s
  else if !s.light.degraded then ok (s.failDiscovery tile 0x5011 0)
  else
    let s := s.rs 0 CFG_BOOT.degraded 1
    let s := { s with boot := { s.boot with heard := s.boot.heard ++ [tile] } }
    ok (if s.allHeard then s.releaseAll else s)

/-- The checks that follow discovery (R37, R432). -/
def State.afterDiscovery (s : State) : Option Nat :=
  let l := s.light
  if !check10 s s.boot.flash then some 0xA009
  else if !s.tileUp l.primary ∨ !s.tileUp l.standby ∨ l.primary = l.standby then some 0xA020
  else if l.peers.any (fun e => !s.toeUp (linkTile e.link)) then some 0xA020
  else if !s.tileUp 0 ∧ !s.tileUp s.cols then some 0xA020
  else if !l.degraded ∧ (List.range s.nTiles).any (fun t => !s.tileUp t) then some 0xA020
  else none

/-! ### The stages (Table 16-5) -/

/-- The end of VERIFY: checks 3 to 9, the comparison of a warm reset, and the light list. -/
def State.verifyEnd (s : State) : State :=
  let f := s.boot.flash
  let v := verifyImage s f
  let s := { s with boot := { s.boot with busy := false } }
  let s := if v.2 then s.rs 0 CFG_BOOT.retried 1 else s
  match v.1 with
  | some code => s.hold code
  | none =>
    let d := imageDigest f
    if s.boot.warm ∧ d ≠ s.boot.lastD then s.hold 0xA012
    else
      let s := { s with
        light := lightOf s f
        boot := { s.boot with
          lastD := d, revoke := llRevoke f
          secTo := if bitsOf (flashNum f 0x14 4) 0 1 = 1 then llSecVersion f else 0 } }
      s.enter 3

/-- BOOT_STAGE_END: the work of the current stage is done. -/
def execBootStageEnd (s : State) : Out :=
  if !s.booting s.stage then ok s
  else if s.stage = 0 then ok (if s.fuses.intact then s.enter 1 else s.hold 0xA050)
  else if s.stage = 1 then ok (if s.boot.flash.sfdp then s.enter 2 else s.hold 0xA001)
  else if s.stage = 2 then ok s.verifyEnd
  else if s.stage = 3 then ok (s.powerTiles.enter 4)
  else if s.stage = 4 then
    (if s.boot.stuck ∨ !s.allHeard ∧ s.rediscovers then ok s
     else
       match s.afterDiscovery with
       | some code => ok (s.hold code)
       | none => ok ({ s with boot := { s.boot with lostAny := false } }.enter 5))
  else if s.stage = 5 then ok (s.enter 6)
  else if s.stage = 6 then
    let s := s.each (List.range s.nLinks) (fun s l =>
      if s.toeUp (linkTile l) ∧ s.og l TOE_CTL.enable = 1 then toeCtlEnableEff l true s else s)
    ok (s.enter 7)
  else ok s

/-- STAGE_BOUND, after what else ends the stage in its tick: a check's event is the one recorded (Table 16-8). -/
def execStageBound (s : State) : Out := s.inTurn .stageBound (fun s =>
    if s.running ∧ s.stage ≤ 7 ∧ s.tick ≥ s.boot.start + stageMs s.stage * 100000 then ok (s.hold 0xA040) else ok s)

/-- The revoke bits that READY blows (R429). -/
def State.advanceFuses (s : State) : State :=
  let r := s.fuses.revoked ||| s.boot.revoke
  if r = s.fuses.revoked then s else ({ s with fuses := { s.fuses with revoked := r } }).raise 0xA031 0

/-- The security version advances from READY on, one bit at a time, a bit in a tick (R429; DESIGN CHOICE, log 117): a supply loss on the way
leaves fewer bits blown. -/
def State.fuseTick (s : State) : State :=
  if s.running ∧ s.stage = 8 ∧ s.boot.secTo > s.fuses.secFused then
    let s := { s with fuses := { s.fuses with secFused := s.fuses.secFused + 1 } }
    if s.fuses.secFused = s.boot.secTo then s.raise 0xA030 0 else s
  else s

/-- The link phase is over (R431): no link with a peer still trains, or 2 s have passed. -/
def State.linksSettled (s : State) : Bool :=
  s.light.peers.all (fun e => 2 ≤ s.lg e.link LNK_STATUS.state && s.lg e.link LNK_STATUS.state ≤ 4) ||
  decide (s.tick ≥ s.boot.entered + 200000000)

/-- LINK_PHASE_END: READY. -/
def execLinkPhaseEnd (s : State) : Out :=
  if s.booting 7 ∧ s.linksSettled then
    let s := (s.enter 8).firstGrant.advanceFuses
    let s := s.rs 0 CFG_BOOT.ready_ms ((s.tick - s.boot.start) / 100000)
    ok ({ s with boot := { s.boot with ready := true } }.interrupt)
  else ok s

end Sys2Proof.Machine
end

