-- ==== Sys2Proof/Machine/Resets.lean ====
section
/-!
DEFINITION. Reset levels below the cold reset, the loss and return of dies, engines and tiles, and the keeper vote (chapter Events,
Resets and Fault Handling).
-/

namespace Sys2Proof.Machine

/-! ### Whether a reset may start (R454) -/

/-- Kinds of unit. -/
def isDie (u : Nat) : Bool := u / 16 == 2
def isToe (u : Nat) : Bool := u / 16 == 3

/-- A core is in reset. -/
def State.coreInReset (s : State) (u core : Nat) : Bool := (s.core (coreKey (u % 16) core)).inReset

/-- EVT_RESET.start with these fields is accepted. A tile reset is for a position that is present or lost; boot is a reset of the package
in progress. -/
def State.resetOk (s : State) (level unit core : Nat) : Bool :=
  s.running && s.stage == 8 &&
  (if level = 1 then true
   else if level = 2 then unit / 16 == 1 && decide (unit % 16 < s.nTiles) && (s.tileSt (unit % 16) == 1 || s.tileSt (unit % 16) == 2)
   else if level = 3 then isDie unit && s.dieUp (unit % 16)
   else if level = 4 then isToe unit && s.toeUp (unit % 16)
   else if level = 5 then isDie unit && s.dieUp (unit % 16) && decide (core < 64) && !s.coreInReset unit core
   else false)

/-- A refused start shows in EVT_STATUS, if the keeper runs at all. -/
def State.refuseReset (s : State) : State := if s.boot.awake then s.rinc 0 EVT_STATUS.reset_refused 1 else s

/-- pkg_ready falls with a reset of any level above core (R461). -/
def State.dropReady (s : State) : State := { s with boot := { s.boot with ready := false } }

/-! ### Package warm reset (R433, R452) -/

/-- Keeper register fields that a warm reset keeps: the log pointers, the lease record (holder, epoch, expiry: R152), next_leaf. A
held TAKE is gone with it, so take_pending returns to 0, as votes_split does (R8). -/
def warmKept (k : Nat) : Bool :=
  coldKept k || k == regKey 0 KPR_LEASE.holder 0 || k == regKey 0 KPR_LEASE.held 0 ||
  k == regKey 0 KPR_LEASE.epoch 0 || k == regKey 0 KPR_LEASE_EXP.expiry 0

/-- The tiles present. -/
def State.present (s : State) : List Nat := (List.range s.nTiles).filter (fun t => s.tileSt t == 1)

/-- Every unit is reset, and stage ROM begins again with the flash as it now is. -/
def State.warmReset (s : State) (fl : Flash) : State :=
  let s := s.raise 0x5041 0
  let lost := s.boot.lostAny
  let here := s.present
  let s := s.allGone.markEnd oPackage
  let s := { s with
    regs := s.regs.filter (fun p => keyUnit p.1 == 0xF0 || warmKept p.1)
    fresh := s.fresh.filter (fun p => keyUnit p.1 == 0xF0 || warmKept p.1)
    lease := { sent := s.lease.sent }
    pwr := {}, energy := {} }
  { s with boot := { s.boot with
    start := s.tick, entered := s.tick, warm := true, flash := fl, busy := true, ready := false
    heard := here, lostAny := lost, stuck := false } }

/-- PACKAGE_WARM_RESET, as EVT_RESET starts it; one that the keeper started in this tick is the same reset (R454). -/
def execPackageWarmReset (fl : Flash) (s : State) : Out :=
  s.inTurn (.packageWarmReset fl) (fun s =>
    if s.endedNow oPackage then ok s else if s.resetOk 1 0 0 then ok (s.warmReset fl) else ok s.refuseReset)

/-- NO_LEASE_TIMEOUT: no holder 10,000 tk after the expiry (R170). -/
def execNoLeaseTimeout (fl : Flash) (s : State) : Out := s.inTurn (.noLeaseTimeout fl) (fun s =>
    if s.running ∧ s.stage = 8 ∧ s.rg 0 KPR_LEASE.held = 0 ∧ s.tick ≥ s.rg 0 KPR_LEASE_EXP.expiry + 10000 then
      ok ((s.raise 0x9406 0).warmReset fl)
    else ok s)

/-! ### Tile reset (R457) -/

/-- The position leaves as a lost one does, is powered again, and its modules train; it returns with its report. -/
def State.tileReset (s : State) (t : Nat) : State :=
  let s := s.raise 0x5031 (uTile t) 0 0 0 (s.unitEnded (uTile t))
  let s := (s.setFence t EVT_FENCE.tile 3).markEnd (uTile t)
  let s := s.tileGone t
  let s := { s with boot := { s.boot with ids := mdel s.boot.ids t, edges := mdel s.boot.edges t, toldC := if t = s.cols then [] else s.boot.toldC } }.dropReady
  s.each (List.range 10) (fun s m =>
    match s.otherSide (uTile t) m with
    | some (v, n) => (if s.unitUp v ∨ v = uToe t then s.trainMod v n false else s).trainMod (uTile t) m false
    | none => s)

/-- A reset that does not start: refused, or, where an earlier action of its tick has ended its unit, logged as subsumed (R445). -/
def State.noReset (s : State) (code unit : Nat) : State := if s.unitEnded unit then s.raise code unit 0 0 0 true else s.refuseReset

/-- TILE_RESET. -/
def execTileReset (unit : Nat) (s : State) : Out :=
  s.inTurn (.tileReset unit) (fun s =>
    if s.resetOk 2 unit 0 ∧ !s.unitEnded unit then ok (s.tileReset (unit % 16)) else ok (s.noReset 0x5031 unit))

/-! ### Dies and engines (R455) -/

/-- A die or engine is held in reset and tests itself. -/
def State.startSelfTest (s : State) (u : Nat) : State :=
  let s := s.raise 0x5021 u 0 0 0 (s.unitEnded u)
  { s.dropReady with testing := s.testing ++ [u] }

/-- A reset by EVT_RESET: the steps of a loss, without the wait for a clock. -/
def State.unitReset (s : State) (u : Nat) : State := (s.startSelfTest u).fenceUnit u

/-- COMPUTE_DIE_RESET. -/
def execComputeDieReset (unit : Nat) (s : State) : Out :=
  s.inTurn (.computeDieReset unit) (fun s => if s.resetOk 3 unit 0 then ok (s.unitReset unit) else ok (s.noReset 0x5021 unit))

/-- OPTICAL_ENGINE_RESET. -/
def execOpticalEngineReset (unit : Nat) (s : State) : Out :=
  s.inTurn (.opticalEngineReset unit) (fun s => if s.resetOk 4 unit 0 then ok (s.unitReset unit) else ok (s.noReset 0x5021 unit))

/-- A die or engine that runs. -/
def State.unitRuns (s : State) (u : Nat) : Bool := (isDie u && s.dieUp (u % 16)) || (isToe u && s.toeUp (u % 16))

/-- DIE_CLOCK_LOSS: the clock is absent, or the unit reports no tick edge. -/
def execDieClockLoss (unit : Nat) (s : State) : Out :=
  s.inTurn (.dieClockLoss unit) (fun s =>
    if s.unitRuns unit then ok ((s.raise 0x5020 unit).fenceUnit unit)
    else if s.unitEnded unit then ok (s.raise 0x5020 unit 0 0 0 true)
    else ok s)

/-- A fenced unit of a present tile. -/
def State.fenced (s : State) (u : Nat) : Bool :=
  s.tileUp (u % 16) && ((isDie u && s.dieSt (u % 16) == 2) || (isToe u && s.toeSt (u % 16) == 2))

/-- CLOCK_RETURN: 1,000 good periods of a lost unit's clock. -/
def execClockReturn (unit : Nat) (s : State) : Out :=
  if s.fenced unit ∧ !s.testing.contains unit then ok (s.startSelfTest unit) else ok s

/-- The fused serial of a die or engine. -/
def State.fusedSerial (s : State) (u : Nat) : Nat := mget s.fuses.serials (3 * (u % 16) + (if isDie u then 1 else 2)) 0

/-- The fence is lifted: the unit has its ID and tick again; an engine trains its module and its links come up. -/
def State.readmit (s : State) (u : Nat) : State :=
  let t := u % 16
  let s := s.raise 0x5040 u
  if isDie u then s.setFence t EVT_FENCE.die 1
  else
    let s := (s.setFence t EVT_FENCE.engine 1).modBack u 0 false
    s.each ((List.range 8).map (fun i => 8 * t + i)) (fun s l =>
      if s.og l TOE_CTL.enable = 1 then toeCtlEnableEff l true s else s)

/-- A unit relearns its ID from its tile (R38). -/
def State.relearn (s : State) (u : Nat) : State :=
  match s.idOf (u % 16) with
  | some i => { s with boot := { s.boot with unitIds := mput s.boot.unitIds u i } }
  | none => s

/-- The ID and the die serial that a unit reports match the position map (R38). -/
def State.matchesMap (s : State) (u serial : Nat) : Bool :=
  mfind s.boot.unitIds u == some (u % 16) && serial == s.fusedSerial u

/-- SELF_TEST_END: a unit that passes relearns its ID, and one whose ID and serial match the position map is readmitted (R38); one that
fails stays fenced. -/
def execSelfTestEnd (unit : Nat) (pass : Bool) (serial : Nat) (s : State) : Out :=
  if !s.testing.contains unit ∨ !s.fenced unit then ok s
  else
    let s := { s with testing := s.testing.filter (fun x => x != unit) }
    if !pass then ok (s.setFence (unit % 16) (if isDie unit then EVT_FENCE.die else EVT_FENCE.engine) 3)
    else
      let s := s.relearn unit
      ok (if s.matchesMap unit serial then s.readmit unit else s)

/-! ### Cores (R452, R484) -/

/-- Register fields of a core that its reset covers: CORE, core objects, DMA (R8). -/
def coreField (d c k : Nat) : Bool :=
  let o := k / 64 % 2 ^ 40
  keyUnit k == uDie d &&
  ((0x100000 + c * 0x1000 ≤ o && o < 0x101000 + c * 0x1000) || (0x180000 + c * 0x200 ≤ o && o < 0x180200 + c * 0x200) ||
   (0x1A0000 + c * 0x80 ≤ o && o < 0x1A0080 + c * 0x80))

/-- The leave logic of a core in reset: a request is lost, a ramp is completed, a grant goes back by a fall. -/
def State.leaveForReset (s : State) (ck : Nat) : State :=
  let c := s.core ck
  let s := s.setCore ck
    { leave := if c.leave = .req then .idle else c.leave, level := c.level, stepAt := c.stepAt, falling := c.falling
      downReq := c.downReq, downHard := c.downHard, inReset := holdsGrant c.leave }
  if c.leave = .full then s.askDown ck true else s

/-- A core's engines stop at once, its context aborts, and what it held is undefined or 0. -/
def State.coreReset (s : State) (d c : Nat) : State :=
  let ck := coreKey d c
  let s := (s.raise 0x5022 (uDie d) c 0 0 (s.endedNow (oCore d c) || s.unitEnded (uDie d))).markEnd (oCore d c)
  let s := ((s.dropWaits ck).abortCore ck 0x14).dropBonds (· == ck)
  let s := { s with
    engs := s.engs.filter (fun e => e.1 / 8 != ck)
    regs := s.regs.filter (fun p => !coreField d c p.1)
    fresh := s.fresh.filter (fun p => !coreField d c p.1) }
  (s.spoilCore d c).leaveForReset ck

/-- CORE_RESET. -/
def execCoreReset (unit core : Nat) (s : State) : Out :=
  s.inTurn (.coreReset unit core) (fun s =>
    if s.resetOk 5 unit core then ok (s.coreReset (unit % 16) core) else ok (s.noReset 0x5022 unit))

/-! ### EVT_RESET (R451, R454) -/

/-- The effect of EVT_RESET.start: the level's reset as an event of this tick, in its turn among the tick's commands, or its refusal. A warm
reset started so reads the flash that the keeper read last (DESIGN CHOICE, log 31). -/
def State.startReset (s : State) (level unit core : Nat) : State :=
  if !s.resetOk level unit core then s.refuseReset
  else
    let i : Instr :=
      if level = 1 then .packageWarmReset s.boot.flash
      else if level = 2 then .tileReset unit
      else if level = 3 then .computeDieReset unit
      else if level = 4 then .opticalEngineReset unit
      else .coreReset unit core
    { s with later := insertLater i s.later }

/-! ### Tiles (R32, R456, R465) -/

/-- HEALTH_POLL: the keeper polls every present tile; the third missed poll in a row loses it. -/
def execHealthPoll (answered : List Nat) (s : State) : Out := s.inTurn (.healthPoll answered) (fun s =>
    if s.running ∧ s.tick % 1000 = 0 then
      ok (s.each s.present (fun s t =>
        let n := if answered.contains t then 0 else mget s.missed t 0 + 1
        let s := { s with missed := mput s.missed t n }
        if n ≥ 3 then s.loseTile t else s))
    else ok s)

/-- ALL_MODULES_DOWN: every module that the tile holds has been DOWN for 10,000 tk. -/
def execAllModulesDown (tile : Nat) (s : State) : Out := s.inTurn (.allModulesDown tile) (fun s =>
    let u := uTile tile
    let l := (List.range 10).filter (fun m => (s.otherSide u m).isSome)
    if s.running ∧ s.tileUp tile ∧
        l.all (fun m => s.modState u m == 9 && decide (s.tick ≥ (s.mod u m).downAt + 10000)) then ok (s.loseTile tile)
    else ok s)

/-- A tile loses its tick line: 0x5020 for itself, its loss, and 0x5020 for the dies it feeds, which the loss subsumes. -/
def State.loseTick (s : State) (t : Nat) : State :=
  let s := s.raise 0x5020 (uTile t) 0 0 0 (s.unitEnded (uTile t))
  let s := s.loseTile t
  (s.raise 0x5020 (uDie t) 0 0 0 true).raise 0x5020 (uToe t) 0 0 0 true

/-- TICK_LINE_LOSS. -/
def execTickLineLoss (tile : Nat) (s : State) : Out := s.inTurn (.tickLineLoss tile) (fun s =>
    ok (if (s.running && s.tileUp tile) || s.endedNow (uTile tile) then s.loseTick tile else s))

/-- REFERENCE_CLOCK_LOSS: the tick stops for every tile; with tiles 0 and C the part stops safely. The loss of a tile that a shutdown of
the same tick has ended is subsumed (R482). -/
def execReferenceClockLoss (s : State) : Out := s.inTurn .referenceClockLoss (fun s =>
    ok (s.each ((List.range s.nTiles).filter (fun t => s.tileSt t == 1 || s.endedNow (uTile t))) State.loseTick))

/-! ### The keeper vote (R169, R458) -/

/-- No majority exists. -/
def State.noMajority (s : State) : State := (s.raise 0xA061 0).packageSafeStop

/-- VOTE_DISSENT of a channel at an output: the majority acts, and the channel is resynchronised; while one is, a difference between the
other two leaves no majority. -/
def execVoteDissent (channel output : Nat) (s : State) : Out := s.inTurn (.voteDissent channel output) (fun s =>
    if !s.running ∨ channel > 2 then ok s
    else if s.rg 0 EVT_VOTE.resyncing = 0 then
      let s := s.raise 0xA060 0 0 0 (output % 2 ^ 16 + channel * 2 ^ 16)
      let s := (s.rinc 0 EVT_VOTE.dissents 1).rs 0 EVT_VOTE.last_channel channel
      let s := (s.rs 0 EVT_VOTE.last_output output).rs 0 EVT_VOTE.resyncing 1
      ok (if Config.leaseOutput output then s.rinc 0 KPR_LEASE.votes_split 1 else s)
    else if channel = s.rg 0 EVT_VOTE.last_channel then ok s
    else ok s.noMajority)

/-- RESYNCHRONISATION_END: the channel votes again; `agree` is false where the two voting channels came to differ meanwhile. -/
def execResynchronisationEnd (agree : Bool) (s : State) : Out := s.inTurn (.resynchronisationEnd agree) (fun s =>
    if !s.running ∨ s.rg 0 EVT_VOTE.resyncing = 0 then ok s
    else if agree then ok (s.rs 0 EVT_VOTE.resyncing 0)
    else ok s.noMajority)

end Sys2Proof.Machine
end

