-- ==== Sys2Proof/Machine/Meter.lean ====
section
/-!
DEFINITION. The metering island, its port, the keeper's mirror of it, and the reconciliation of the energy model (chapter Energy
Metering Island; R402).
-/

namespace Sys2Proof.Machine

/-! ### Records (R413, R414) -/

/-- Leaves of the island's key. -/
def metLeaves : Nat := 2 ^ 20

/-- The body of a record (Table 15-1). -/
def MetSt.body (m : MetSt) (serial kind : Nat) : List Byte :=
  let bit (b : Bool) (i : Nat) : Nat := if b then 2 ^ i else 0
  le 4 0x4D45544B ++ le 2 1 ++ le 1 kind ++
  le 1 (bit m.sealed 0 + bit m.iFault 1 + bit m.iLow 2 + bit m.iRefused 3) ++ le 16 serial ++ le 4 m.recordNo ++
  le 4 m.powerUps ++ le 4 m.seconds ++ le 4 m.refusals ++ le 8 m.total ++ le 8 m.interval ++ le 8 m.exported

/-- A signature of `n` bytes by an identity's leaf. -/
def signature (who leaf n : Nat) (msg : List Byte) : List Byte :=
  let s := Config.lmsSign who leaf msg
  (List.range n).map (fun i => s.getD i 0)

/-- The island signs a record and sends it: the leaf is spent first; after the last leaf a record has no signature. -/
def MetSt.sign (m : MetSt) (serial kind : Nat) : MetSt :=
  let b := m.body serial kind
  let r := if m.leaves < metLeaves then b ++ signature 1 m.leaves 5076 b else b
  { m with
    records := (mput m.records m.recordNo r).drop (m.records.length - 95)
    sent := m.sent ++ [.record m.recordNo r]
    recordNo := m.recordNo + 1
    leaves := if m.leaves < metLeaves then m.leaves + 1 else m.leaves
    interval := 0 }

/-- The record of an interval that has ended. -/
def MetSt.close (m : MetSt) (serial : Nat) : MetSt :=
  { m.sign serial 0 with iFault := false, iLow := false, iRefused := false, closedAt := m.seconds, owed := false }

def State.setMet (s : State) (m : MetSt) : State := { s with met := m }

/-! ### The island's own happenings -/

/-- METERING_START: the input reaches 36 V. An interval record that the last power-down owes comes first. -/
def execMeteringStart (s : State) : Out :=
  let m := s.met
  if m.running then ok s
  else
    let m := if m.owed then m.close s.fuses.serial else m
    let m := { m with
      running := true, powerUps := m.powerUps + 1, seconds := 0, closedAt := 0, fault := false
      iFault := false, iLow := false, iRefused := false, lastE := 0, mv := 0, ma := 0 }
    ok (s.setMet (m.sign s.fuses.serial 1))

/-- Measured energy joins the totals, however low the power at which it flowed (R405, R406). -/
def MetSt.add (m : MetSt) (importMj exportMj : Nat) : MetSt :=
  { m with
    total := m.total + importMj, exported := m.exported + exportMj, interval := m.interval + importMj, unpulsed := m.unpulsed + importMj }

/-- ISLAND_HOLD_UP: the input falls below 30 V; with the energy since the last second the totals go to MRAM. -/
def execIslandHoldUp (importMj exportMj : Nat) (s : State) : Out :=
  let m := s.met
  if m.running then
    ok (s.setMet { m.add importMj exportMj with running := false, testLeft := 0, owed := decide (m.seconds ≥ m.closedAt + 900) })
  else ok s

/-- A pulse begins: met_pulse is high for 5 ms. -/
def MetSt.pulse (m : MetSt) (tick : Nat) : MetSt := { m with pulses := m.pulses + 1, fallAt := tick + 500000 }

/-- The level of met_pulse. -/
def State.pulsePin (s : State) : Bool := decide (s.tick < s.met.fallAt)

/-- MET_PULSE: 0.1 Wh of imported energy. -/
def execMetPulse (s : State) : Out :=
  let m := s.met
  if m.running ∧ m.unpulsed ≥ 360000 then ok (s.setMet ({ m with unpulsed := m.unpulsed - 360000 }.pulse s.tick)) else ok s

/-- The pulses of a PULSE_TEST, at 10 Hz (R416). -/
def State.metTick (s : State) : State :=
  let m := s.met
  if m.testLeft ≠ 0 ∧ s.tick ≥ m.testAt then s.setMet ({ m with testLeft := m.testLeft - 1, testAt := m.testAt + 10000000 }.pulse s.tick)
  else s

/-- INTERVAL_END: 900 s of the island's clock; what the port refuses in its tick still counts in it (Table 15-9). -/
def execIntervalEnd (s : State) : Out := s.inTurn .intervalEnd (fun s =>
    if s.met.running ∧ s.met.seconds ≥ s.met.closedAt + 900 then ok (s.setMet (s.met.close s.fuses.serial)) else ok s)

/-- The status frame of a second. -/
def MetSt.frame (m : MetSt) : MetFrame :=
  { valid := true, sealed := m.sealed, fault := m.fault, low := decide (metLeaves - m.leaves < 2 ^ 14), used := m.leaves
    recordNo := m.recordNo - 1, total := m.total, second := m.seconds, energy := m.lastE, mv := m.mv, ma := m.ma
    w := m.mv * m.ma / 1000000, refused := m.refusals }

/-- SELF_CHECK, once a second: what the second brought, at whatever power (R406), the three checks, and the status frame. -/
def execSelfCheck (volt shunt osc : Bool) (importMj exportMj mv ma : Nat) (s : State) : Out :=
  let m := s.met
  if m.running then
    let bad := !(volt && shunt && osc)
    let m := { m.add importMj exportMj with
      seconds := m.seconds + 1, lastE := importMj, mv := mv, ma := ma
      fault := bad, iFault := m.iFault || bad, iLow := m.iLow || decide (mv < 40000) }
    ok (s.setMet { m with sent := m.sent ++ [.status m.frame] })
  else ok s

/-! ### The metering port (R411, R416) -/

/-- A reply frame: 0x5A, the command, the status, the length and the data, and their CRC, least significant byte first (R483). -/
def replyFrame (cmd status : Nat) (data : List Byte) : List Byte :=
  let b := [0x5A] ++ le 1 cmd ++ le 1 status ++ le 4 data.length ++ data
  b ++ le 2 (crc16 b)

/-- The CRC of a command frame: over 0xA5, the command and its argument. -/
def commandCrc (cmd arg : Nat) : Nat := crc16 ([0xA5] ++ le 1 cmd ++ le 4 arg)

def MetSt.answer (m : MetSt) (cmd status : Nat) (data : List Byte) : MetSt := { m with replies := m.replies ++ [replyFrame cmd status data] }

/-- A command frame: ignored if its CRC fails, or with the island off. -/
def State.metCmd (s : State) (cmd arg crc : Nat) (run : MetSt → MetSt) : State :=
  if crc = commandCrc cmd arg ∧ s.met.running then s.setMet (run s.met) else s

/-- A command of verification: refused and counted after the seal; before it, done only with met_prog high. -/
def MetSt.verify (m : MetSt) (cmd : Nat) (prog : Bool) (run : MetSt → MetSt) : MetSt :=
  if m.sealed then { m with refusals := m.refusals + 1, iRefused := true }.answer cmd 2 []
  else if prog then run m
  else m.answer cmd 3 []

/-- STATUS. -/
def execStatus (crc arg : Nat) (s : State) : Out :=
  ok (s.metCmd 0x01 arg crc (fun m => m.answer 0x01 0 (m.body s.fuses.serial 0)))

/-- RECORD. -/
def execRecord (crc no : Nat) (s : State) : Out :=
  ok (s.metCmd 0x02 no crc (fun m => match mfind m.records no with
    | some r => m.answer 0x02 0 r
    | none => m.answer 0x02 1 []))

/-- The island's public key. -/
def metPubkey : List Byte := (List.range 60).map (fun i => (Config.publicKey 1 []).getD i 0)

/-- PUBKEY. -/
def execPubkey (crc arg : Nat) (s : State) : Out := ok (s.metCmd 0x03 arg crc (fun m => m.answer 0x03 0 metPubkey))

/-- CAL_CHECK: `measured` is the power found over 10 s, in mW. -/
def execCalCheck (crc : Nat) (prog : Bool) (load measured : Nat) (s : State) : Out :=
  ok (s.metCmd 0x10 load crc (fun m => m.verify 0x10 prog (fun m => m.answer 0x10 0 (le 4 measured))))

/-- PULSE_TEST. -/
def execPulseTest (crc : Nat) (prog : Bool) (count : Nat) (s : State) : Out :=
  ok (s.metCmd 0x11 count crc (fun m => m.verify 0x11 prog (fun m => { m with testLeft := count, testAt := s.tick }.answer 0x11 0 [])))

/-- SEAL; the status that a wrong argument gives is not stated: a free value. -/
def execSeal (crc : Nat) (prog : Bool) (arg : Nat) (s : State) : Out :=
  let r := s.free
  ok (r.2.metCmd 0x1F arg crc (fun m => m.verify 0x1F prog (fun m =>
    if arg = 0x5EA15EA1 then
      let m := { m with sealed := true }.sign s.fuses.serial 2
      m.answer 0x1F 0 (mget m.records (m.recordNo - 1) [])
    else m.answer 0x1F (r.1 % 256) [])))

/-! ### The mirror (R409, R410, R412, R417) -/

def uMet : Nat := 0xF0

/-- STATUS_FRAME as the keeper receives it. -/
def execStatusFrame (m : MetFrame) (s : State) : Out :=
  if m.valid ∧ s.boot.awake then
    let port := s.rg uMet MET_REFUSED.port
    let low := s.rg uMet MET_STATUS.leaves_low
    let s := s.each [(MET_STATUS.present, 1), (MET_STATUS.sealed, flagIf m.sealed 1), (MET_STATUS.fault, flagIf m.fault 1),
        (MET_STATUS.leaves_low, flagIf m.low 1), (MET_STATUS.leaves_used, Nat.min m.used 0xFFFFFF), (MET_STATUS.record_no, m.recordNo),
        (MET_TOTAL.total_mj, m.total), (MET_SECOND.second, m.second), (MET_SECOND.energy_mj, m.energy),
        (MET_INPUT.mv, m.mv), (MET_INPUT.ma, m.ma), (MET_INPUT.w, m.w), (MET_REFUSED.port, m.refused)]
      (fun s x => s.rs uMet x.1 x.2)
    let s := { s with mirror := { s.mirror with at_ := s.tick } }
    let s := if m.fault then s.raise 0xB002 uMet else s
    let s := if m.refused > port then s.raise 0xB004 uMet else s
    ok (if m.low ∧ low = 0 then s.raise 0xB005 uMet else s)
  else ok s

/-- RECORD_FRAME: the record goes to its slot of the window. -/
def execRecordFrame (no : Nat) (bytes : List Byte) (s : State) : Out :=
  ok (if s.boot.awake then { s with mirror := { s.mirror with records := mput s.mirror.records (no % 96) bytes } } else s)

/-- MIRROR_STALE: no valid status frame for 2 s. -/
def execMirrorStale (s : State) : Out :=
  if s.boot.awake ∧ s.rg uMet MET_STATUS.present = 1 ∧ s.tick ≥ s.mirror.at_ + 200000000 then
    ok ((s.rs uMet MET_STATUS.present 0).raise 0xB003 uMet)
  else ok s

/-- A write into unit 0xF0 is refused and counted by the keeper. -/
def State.mirrorRefused (s : State) : State := (s.rinc uMet MET_REFUSED.mirror 1).raise 0xB001 uMet

/-- MIRROR_WRITE: an error completion, whatever the offset (R10). -/
def execMirrorWrite (off : Nat) (_v : Word) (s : State) : Out :=
  ok (if s.boot.awake then s.mirrorRefused.accessDone (uMet * 2 ^ 40 + off) false else s)

/-! ### Reconciliation (R402) -/

/-- The meter is the reference: present, with a status frame within 2 s, sealed, and without a fault. -/
def State.meterGood (s : State) : Bool :=
  s.rg uMet MET_STATUS.present == 1 && decide (s.tick < s.mirror.at_ + 200000000) && s.rg uMet MET_STATUS.sealed == 1 &&
  s.rg uMet MET_STATUS.fault == 0

/-- The reconciliation of a second; `telemetryMj` is the keeper's input energy of the second. The model counts 2^-32 µJ. -/
def reconcileEff (telemetryMj : Nat) (s : State) : State :=
  let meter := s.meterGood
  let ref := (if meter then s.rg uMet MET_SECOND.energy_mj else telemetryMj) * 1000 * 2 ^ 32
  let model := s.energy.model
  let inRange : Bool := model != 0 && decide (80 * model ≤ 100 * ref) && decide (100 * ref ≤ 125 * model)
  let f := if model = 0 then 2 ^ 32 - 1 else Nat.min (ref * 65536 / model) (2 ^ 32 - 1)
  let s := (s.rs 0 PWR_RECON.factor f).rs 0 PWR_RECON.source (flagIf (!meter) 1)
  let s := s.rs 0 PWR_RECON.out_of_range (flagIf (!inRange) 1)
  let s := { s with energy := { s.energy with model := 0, f := if inRange then f else 65536 } }
  if inRange then s else s.raise 0x2040 0

/-- RECONCILIATION at each second, after what its tick brings to the mirror (Table 15-9). -/
def execReconciliation (telemetryMj : Nat) (s : State) : Out := s.inTurn (.reconciliation telemetryMj) (fun s =>
    if s.running ∧ s.tick % 100000000 = 0 ∧ s.tick ≠ 0 then ok (reconcileEff telemetryMj s) else ok s)

end Sys2Proof.Machine
end

