-- ==== Sys2Proof/Machine/Mgmt.lean ====
section
/-!
DEFINITION. The management space (R4 to R10): which register an address names, what a field reads as, what a read and a write do, and
the windows of memory, log, shutdown records, fuses and meter records.
-/

namespace Sys2Proof.Machine

/-! ### Addresses -/

/-- The unit and the offset in it of a 48-bit address. -/
def addrUnit (a : Nat) : Nat := a / 2 ^ 40 % 256
def addrOff (a : Nat) : Nat := a % 2 ^ 40

/-- Does a unit hold the registers of a kind? The D2D blocks lie in keeper, tiles and engines. -/
def holdsKind (u : Nat) (k : UnitKind) : Bool :=
  match k with
  | .keeper => u == 0
  | .tile => u / 16 == 1
  | .die => u / 16 == 2
  | .toe => u / 16 == 3
  | .port => u / 16 == 4
  | .met => u == 0xF0
  | .d2d => u == 0 || u / 16 == 1 || u / 16 == 3

/-- Modules whose blocks a unit holds (R258): a tile has a keeper module only where K0 or K1 attaches. -/
def State.d2dBlocks (s : State) (u : Nat) : Nat :=
  if u = 0 then 2 else if u / 16 = 1 then (if u % 16 = 0 ∨ u % 16 = s.cols then 10 else 9) else 1

/-- The repetition of an array that offset `r` from its first register names. -/
def repOf : List (Nat × Nat) → Nat → Option Nat
  | [], r => if r = 0 then some 0 else none
  | (n, st) :: ds, r =>
    let i := Nat.min (r / st) (n - 1)
    (repOf ds (r - i * st)).map (fun d => i * st + d)

/-- The register of a description at offset `o` of unit `u`: its repetition offset. -/
def descAt (blocks u o : Nat) (r : RegDesc) : Option Nat :=
  if holdsKind u r.kind ∧ r.off ≤ o then
    match repOf r.dims (o - r.off) with
    | some d => if r.kind = .d2d ∧ d / 0x400 ≥ blocks then none else some d
    | none => none
  else none

/-- The register at an offset: its description and repetition. -/
def regAt (blocks u o : Nat) : List RegDesc → Option (RegDesc × Nat)
  | [] => none
  | r :: rs =>
    match descAt blocks u o r with
    | some d => some (r, d)
    | none => regAt blocks u o rs

/-- The register that an offset of a unit names in this part. -/
def State.regAt (s : State) (u o : Nat) : Option (RegDesc × Nat) := Machine.regAt (s.d2dBlocks u) u o regTable

/-! ### What a field reads as -/

/-- CORE_STATUS.eng_state (Table 3-14). -/
def phaseCode (e : Eng) : Nat :=
  match e.phase with
  | .idle => 0
  | .preWait => 2
  | .ready => 1
  | .leave => 4
  | .executing => 1
  | .span => 3
  | .port => 5
  | .done => 1
  | .fence => 8
  | .halted => 6
  | .stopped => 7

def leaveCode (l : Leave) : Nat :=
  match l with
  | .idle => 0
  | .req => 1
  | .ramp => 2
  | .full => 3
  | .down => 4

/-- A bit for each engine whose head waits at a core object, with WAIT or WAIT_TAKE. -/
def State.coreWaitMask (s : State) (ck i : Nat) (take : Bool) : Nat :=
  ((s.coreWaits ck take).filter (fun w => w.2.1 == i)).foldl (fun m w => m ||| 2 ^ (w.1 % 8)) 0

/-- Fields of a compute die that show its state. -/
def State.viewDie (s : State) (t : Nat) (f : Fld) (d : Nat) : Option Nat :=
  if f.off = 0x100000 then
    let ck := coreKey t (d / 0x1000)
    let c := s.core ck
    some (if f.lo = 0 then (List.range 8).foldl (fun v e => v + phaseCode (s.eng (ck * 8 + e)) * 16 ^ e) 0
      else if f.lo = 32 then leaveCode c.leave
      else if f.lo = 35 then (if c.leave = .idle ∨ c.leave = .req then 0 else c.level)
      else if f.lo = 40 then c.ctx.getD 0
      else flagIf c.ctx.isSome 1)
  else if f.off = 0x100080 ∧ f.lo < 40 then
    let e := s.eng (coreKey t (d / 0x1000) * 8 + d % 0x1000 / 8)
    some (if f.lo = 0 then (match e.queue with
        | w :: _ => cmdSeq w
        | [] => e.lastSeq)
      else e.queue.length)
  else if f = SYN_COBJ.waiters then some (s.coreWaitMask (coreKey t (d / 0x200)) (d % 0x200 / 8) false)
  else if f = SYN_COBJ.takers then some (s.coreWaitMask (coreKey t (d / 0x200)) (d % 0x200 / 8) true)
  else if f = PWR_DIE.di_ma100 then some (mget s.fuses.swing (t * 16 + s.rg (uDie t) PWR_DIE.point) 61)
  else if f = PWR_STEWARD.holders then some (s.leaveHolders t)
  else if f = PWR_STEWARD.rising then some (s.rising t)
  else if f = PWR_STEWARD.falling then some (s.falling t)
  else if f = PWR_STEWARD.pending then some (s.leaveRequests t).length
  else none

/-- Residues of a channel that some context holds. -/
def State.chanHeld (s : State) (ch : Nat) : Nat :=
  (s.holders none).foldl (fun m c =>
    (s.ctx c).plan.slots.foldl (fun m e => if e.channel = ch then m ||| e.res else m) m) 0

/-- SYN_STATUS of a hub. -/
def State.viewSyn (s : State) (t lo : Nat) : Nat :=
  let h := s.hub t
  let slots (p : SpanObj → Bool) : Nat :=
    h.objs.foldl (fun m e => if 4096 ≤ e.1 ∧ p e.2 then m ||| 2 ^ (e.1 - 4096) else m) 0
  if lo = 0 then slots (fun o => o.held.isSome)
  else if lo = 16 then slots (fun o => !o.arrived.isEmpty)
  else if lo = 32 then h.waiters.length
  else if lo = 43 then (h.waiters.filter (fun w => waiterIsHost w.waiter)).length
  else h.vmap.length

/-- The selected sensor of a position. -/
def State.viewSensor (s : State) (t lo : Nat) : Nat :=
  let i := s.rg (uTile t) THM_SEL.index
  let x := s.sens t
  if lo = 0 then twos 16 ((x.hist.headD []).getD i 0)
  else if lo = 16 then twos 16 (x.raw.getD i 0)
  else if lo = 32 then twos 16 (mget x.rate i 0)
  else if lo = 48 then flagIf (sensorBad x.faulty i) 1
  else flagIf (!x.hist.isEmpty) 1

/-- The contexts' registers read as they are on the acting tile, and 0 on every other (R150). -/
def seqCtxField (f : Fld) : Bool := decide (0x21000 ≤ f.off) && decide (f.off < 0x22000)

/-- Fields of a tile that show its state. -/
def State.viewTile (s : State) (t : Nat) (f : Fld) (d : Nat) : Option Nat :=
  if seqCtxField f then (if s.acting = some t then some (s.rg seqHome f d) else some 0)
  else if f.off = 0x20020 then some (s.chanHeld (s.rg (uTile t) SEQ_CHAN_SEL.channel) % 2 ^ 15)
  else if f.off = 0x30000 then some (s.viewSyn t f.lo)
  else if f.off = 0x40100 ∨ (f.off = 0x40008 ∧ f.lo > 7) then some (s.rg seqHome f d)
  else if f = SRV_STATUS.opened then some (flagIf (s.serv t).isOpen 1)
  else if f = SRV_STATUS.ctx then some (if (s.serv t).isOpen then (s.serv t).ctx else 0)
  else if f = SRV_STATUS.queued then some (s.serv t).queue.length
  else if f = SRV_STATUS.assembling then some (s.serv t).asm.length
  else if f.off = 0x50008 then some ((s.serv t).active.foldl (fun m e => m ||| 2 ^ e.1) 0)
  else if f.off = 0x50018 then some (microJ (s.serv t).idle)
  else if f.off = 0x90010 then some (s.viewSensor t f.lo)
  else if f = THM_STATUS.faulty then some (popcount 74 (s.sens t).faulty)
  else none

/-- Fields of a module's block that show its state. -/
def State.viewMod (s : State) (u : Nat) (f : Fld) (d : Nat) : Option Nat :=
  let x := s.mod u (d / 0x400)
  let lane := s.rg u D2D_MARGIN.lane (d / 0x400 * 0x400)
  if f.off = 0x60100 then some (x.rx.bad / 2 ^ (64 * (d % 0x400 / 8)))
  else if f = D2D_MARGIN.margin then some (mget x.margins lane 0)
  else if f = D2D_MARGIN.valid then some (flagIf (mfind x.margins lane).isSome 1)
  else none

/-- Registers of an engine that show the selected wavelength. -/
def selected (f : Fld) : Bool := [0x70028, 0x70030, 0x70038, 0x70050, 0x70058, 0x70060].contains f.off

def State.viewToe (s : State) (e : Nat) (f : Fld) (d : Nat) : Option Nat :=
  let l := 8 * e + d / 0x100
  let n := s.og l TOE_LANE_SEL.lambda
  let key := (l * 2 + 1) * 16 + n
  if f = TOE_LANE_ANA.bias_ceiling then some (mget s.fuses.ceilings key 1023)
  else if f = TOE_LANE_ANA.retired then some (flagIf (s.fuses.retired.contains key) 1)
  else if selected f then some (s.rg (uToe e) f (d + win n))
  else none

def State.viewPort (s : State) (p : Nat) (f : Fld) : Option Nat :=
  if f = HPT_STATUS.claimed then some (flagIf s.claim.claimed 1)
  else if f = HPT_STATUS.qps then some s.qps.length
  else if f = HPT_STATUS.mrs then some s.mrs.length
  else if f = HPT_MAC.mac then some (mget s.fuses.macs p 0)
  else none

def State.viewKeeper (s : State) (f : Fld) (d : Nat) : Option Nat :=
  if f = CFG_ID.variant then some s.fuses.tiles
  else if f = PWR_STATUS.guard then some (flagIf s.guarded 1)
  else if f = CFG_ID.stepping then some s.fuses.stepping
  else if f = CFG_ID.sec_fused then some s.fuses.secFused
  else if f = CFG_ID.revoked then some s.fuses.revoked
  else if f = CFG_IDKEY.low then some (flagIf (decide (2 ^ 25 - s.rg 0 CFG_IDKEY.next_leaf < 2 ^ 20)) 1)
  else if f = CFG_IDKEY.exhausted then some (flagIf (decide (s.rg 0 CFG_IDKEY.next_leaf ≥ 2 ^ 25)) 1)
  else if f = CFG_SERIAL_LO.serial then some s.fuses.serial
  else if f = CFG_SERIAL_HI.serial then some (s.fuses.serial / 2 ^ 64)
  else if f = PWR_CTX_E.energy_uj then some (microJ (mget s.energy.acct (d / 8) 0))
  else none

/-- What a field of unit `u` holds, before its access code: a view of the state, or the register file. -/
def State.field (s : State) (u : Nat) (f : Fld) (d : Nat) : Nat :=
  let v :=
    if 0x60000 ≤ f.off ∧ f.off < 0x70000 ∧ u / 16 ≠ 2 ∧ u / 16 ≠ 4 then s.viewMod u f d
    else if u = 0 then s.viewKeeper f d
    else if u / 16 = 1 then s.viewTile (u % 16) f d
    else if u / 16 = 2 then s.viewDie (u % 16) f d
    else if u / 16 = 3 then s.viewToe (u % 16) f d
    else if u / 16 = 4 then s.viewPort (u % 16) f
    else none
  (v.getD (s.rg u f d)) % 2 ^ f.w

/-- The unit and repetition under which the register file keeps a field; none where the register is another tile's (R150). -/
def State.homeOf (s : State) (u : Nat) (f : Fld) (d : Nat) : Option (Nat × Nat) :=
  if u / 16 = 1 ∧ seqCtxField f then (if s.acting = some (u % 16) then some (seqHome, d) else none)
  else if u / 16 = 3 ∧ selected f then some (u, d + win (s.og (8 * (u % 16) + d / 0x100) TOE_LANE_SEL.lambda))
  else some (u, d)

/-- `s` with the stored value of a field set, wherever it is kept. -/
def State.setField (s : State) (u : Nat) (f : Fld) (d v : Nat) : State :=
  match s.homeOf u f d with
  | some h => s.rs h.1 f v h.2
  | none => s

/-- A clear of a W1C or RC field, wherever it is kept (R9). -/
def State.clearField (s : State) (u : Nat) (f : Fld) (d : Nat) : State :=
  match s.homeOf u f d with
  | some h => s.clr h.1 f h.2
  | none => s

/-- A field as a read returns it: an RC field that hardware added to in this tick reads as before the tick (R9). -/
def State.readField (s : State) (u : Nat) (f : Fld) (d : Nat) : Nat :=
  match f.acc, s.homeOf u f d with
  | .wo, _ => 0
  | .rc, some h => (match mfind s.fresh (regKey h.1 f h.2) with
    | some x => x.1
    | none => s.field u f d)
  | _, _ => s.field u f d

/-! ### Reads (Table 0-6) -/

/-- A register as it reads: WO fields read 0, reserved bits 0. -/
def State.regValue (s : State) (u : Nat) (r : RegDesc) (d : Nat) : Nat :=
  r.flds.foldl (fun v f => v + s.readField u f d * 2 ^ f.lo) 0

/-- A read clears the RC fields. -/
def State.clearRc (s : State) (u : Nat) (r : RegDesc) (d : Nat) : State :=
  s.each (r.flds.filter (fun f => f.acc = .rc)) (fun s f => s.clearField u f d)

/-! ### Windows -/

/-- The 8 bytes at `o` of a list. -/
def wordAt (l : List Byte) (o : Nat) : Nat := unle ((l.drop o).take 8)

/-- A shutdown record as MRAM holds it (Table 14-7). -/
def shutBytes (r : ShutRec) : List Byte :=
  let temps := (List.range 8).flatMap (fun t =>
    let l := r.temps.getD t []
    (List.range 74).flatMap (fun i => le 2 (if l.isEmpty then 0x8000 else twos 16 (l.getD i 0))))
  let evs := r.events.flatMap recBytes
  le 4 0x44534B54 ++ le 2 r.cause ++ le 1 r.unit ++ le 1 r.sensor ++ le 8 r.tick ++ le 4 r.mv ++ le 4 r.p100 ++ le 4 r.seq ++ le 4 r.also ++
  List.replicate 32 0 ++ temps ++ List.replicate 32 0 ++ evs ++ List.replicate (2048 - evs.length) 0 ++ List.replicate 768 0

/-- The keeper's identity public key. -/
def idPubkey : List Byte := (List.range 60).map (fun i => (Config.publicKey 0 []).getD i 0)

/-- Byte `o` of the fuse map (Table 16-6); the per-die tables are bytes whose layout is not given. -/
def State.fuseAt (s : State) (o : Nat) : Byte :=
  let at_ (v i : Nat) : Byte := BitVec.ofNat 8 (v / 256 ^ i)
  let table (base : Nat) : Byte := if (o - base) / 0x1000 < s.nTiles then Config.fuseByte o else 0
  if o < 0x10 then at_ s.fuses.serial o
  else if o = 0x10 then at_ s.fuses.tiles 0
  else if o = 0x11 then at_ s.fuses.stepping 0
  else if o < 0x18 then 0
  else if o < 0x20 then at_ (2 ^ s.fuses.secFused - 1) (o - 0x18)
  else if o < 0xA0 then (mget s.fuses.roots ((o - 0x20) / 32) []).getD ((o - 0x20) % 32) 0
  else if o = 0xA0 then at_ s.fuses.revoked 0
  else if 0xB0 ≤ o ∧ o < 0xC0 then at_ (mget s.fuses.macs ((o - 0xB0) / 8) 0 % 2 ^ 48) ((o - 0xB0) % 8)
  else if 0xC0 ≤ o ∧ o < 0xFC then idPubkey.getD (o - 0xC0) 0
  else if 0x100 ≤ o ∧ o < 0x1C0 then
    let i := (o - 0x100) / 8
    if i / 3 < s.nTiles then at_ (mget s.fuses.serials i 0) ((o - 0x100) % 8) else 0
  else if 0x1000 ≤ o ∧ o < 0x9000 then table 0x1000
  else if 0x9000 ≤ o ∧ o < 0x11000 then table 0x9000
  else if 0x11000 ≤ o ∧ o < 0x19000 then table 0x11000
  else if (0x19000 ≤ o ∧ o < 0x1A000) ∨ (0x1FFE0 ≤ o ∧ o < 0x20000) then Config.fuseByte o
  else 0

/-- Offsets of the fuse map at which Table 16-6 has an item. -/
def fuseThere (o : Nat) : Bool :=
  o < 0xA8 || (0xB0 ≤ o && o < 0x1C0) || (0x200 ≤ o && o < 0x240) || (0x1000 ≤ o && o < 0x1A000) || (0x1FFE0 ≤ o && o < 0x20000)

/-- Read-only windows: the word at an offset, where one is. -/
def State.windowWord (s : State) (u o : Nat) : Option Nat :=
  if u = 0 then
    (if 0x71000 ≤ o ∧ o < 0x79000 then
      some (match mfind s.shuts ((o - 0x71000) / 0x1000) with
        | some r => wordAt (shutBytes r) ((o - 0x71000) % 0x1000)
        | none => 0)
     else if 0x100000 ≤ o ∧ o < 0x120000 ∧ fuseThere (o - 0x100000) then
      some (unle ((List.range 8).map (fun i => s.fuseAt (o - 0x100000 + i))))
     else if 0x200000 ≤ o ∧ o < 0x240000 then
      some (match mfind s.ev.log ((o - 0x200000) / 32) with
        | some r => wordAt (recBytes r) ((o - 0x200000) % 32)
        | none => 0)
     else none)
  else if u = 0xF0 then
    (if 0x40 ≤ o ∧ o < 0x80 then some (wordAt metPubkey (o - 0x40))
     else if 0x10000 ≤ o ∧ o < 0x10000 + 96 * 0x2000 then
      some (wordAt (mget s.mirror.records ((o - 0x10000) / 0x2000) []) ((o - 0x10000) % 0x2000))
     else none)
  else none

/-- Memory windows (R84, R206): the address in the one memory. -/
def State.windowMem (s : State) (u o : Nat) : Option Nat :=
  if u / 16 = 2 then
    (if 0x1000000000 ≤ o ∧ o < 0x1000000000 + 2 ^ 28 then some (csAddr (u % 16) 0 0 + (o - 0x1000000000)) else none)
  else if u / 16 = 1 then
    let t := u % 16
    (if 0x4000000000 ≤ o ∧ o < 0x8000000000 then
      (if o - 0x4000000000 + 8 ≤ 0x60000000 - cacheBytes (s.rg u MMU_CACHE_CFG.size) then some (t * 2 ^ 32 + (o - 0x4000000000)) else none)
     else if 0x8000000000 ≤ o ∧ o < 0x8000000000 + 0xC00000000 then some (0x10000000000 + 2 * t * 2 ^ 36 + (o - 0x8000000000))
     else if 0xC000000000 ≤ o ∧ o < 0xC000000000 + 0xC00000000 then some (0x10000000000 + (2 * t + 1) * 2 ^ 36 + (o - 0xC000000000))
     else none)
  else none

/-! ### Accesses (R6, R7) -/

/-- A read of a word of memory: what it meets is counted, and an uncorrectable word gives no data (R83, R205, R210). -/
def State.windowRead (s : State) (u p : Nat) (ecc : EccHits) : Option Nat × State :=
  if u / 16 = 2 then
    let core := (p - csAddr (u % 16) 0 0) / 2 ^ 22
    let s := s.coreFixed (coreKey (u % 16) core) ecc.coreFixed
    match firstHit ecc.core ((p - csAddr (u % 16) 0 0) % 2 ^ 22) 8 with
    | some a => (none, (s.rinc u CORE_ECC.uncorrected 1 (dCore core)).raise 0x4100 u 0 (engKey (u % 16) core 0) a)
    | none => (some (s.word p 8), s)
  else
    let s := (s.memFixed (ecc.memFixed.filter (fun x => decide (p ≤ x) && decide (x < p + 8)))).cacheRead p 8
    match firstHit ecc.mem p 8 with
    | some pa => (none, s.memError pa)
    | none => (some (s.word p 8), s)

/-- A read of an address: its value, or `none` for an error completion, which changes nothing but the counts and events of the words
it met. -/
def State.mgmtRead (s : State) (a : Nat) (ecc : EccHits) : Option Nat × State :=
  let u := addrUnit a
  let o := addrOff a
  if !s.unitUp u ∨ a % 8 ≠ 0 ∨ a ≥ 2 ^ 48 then (none, s)
  else
    match s.regAt u o with
    | some (r, d) => (some (s.regValue u r d), s.clearRc u r d)
    | none =>
      match s.windowWord u o with
      | some v => (some v, s)
      | none =>
        match s.windowMem u o with
        | some p => s.windowRead u p ecc
        | none => (none, s)

/-- The value that a written field reads back as. -/
def State.clamped (s : State) (f : Fld) (v : Nat) : Nat :=
  let within (lo hi : Nat) : Nat := Nat.min hi (Nat.max lo v)
  if f = CORE_CPL_CFG.log2_size then (if 4 ≤ v ∧ v ≤ 12 then v else 4)
  else if f = SYN_TIMEOUT_DEF.default_tk ∨ f = SYN_CORE_TIMEOUT.core_tk then within 100 419430400
  else if f = D2D_CTL.max_rate then Nat.min v 2
  else if f = D2D_CTL.margin_min then within 6 26
  else if f = TOE_CTL.margin_min then within 4 24
  else if f = TOE_LANE_SEL.lambda then Nat.min v 9
  else if f = TOE_WCTL.cal_thr then within 1 10
  else if f = PWR_CAP.cap_w then within s.capMin s.limitW
  else if f = PWR_CAP.window then within 5 80
  else if f = THM_SEL.index then Nat.min v 73
  else v

/-- A write by the access codes alone: RW fields are set, W1C bits cleared. -/
def State.plainWrite (s : State) (u : Nat) (r : RegDesc) (d v : Nat) : State :=
  s.each r.flds (fun s f =>
    let x := bitsOf v f.lo f.w
    match f.acc with
    | .rw => s.setField u f d (s.clamped f x)
    | .w1c => if x = 0 then s else s.clearField u f d
    | _ => s)

/-- A write to CORE_ENG_FLAGS: without any flag left, first_valid is cleared with them (R76). -/
def State.flagsWrite (s : State) (u : Nat) (r : RegDesc) (d v : Nat) : State :=
  let s := s.plainWrite u r d v
  if flagFlds.all (fun f => s.rg u f d == 0) then s.rs u CORE_ENG_FLAGS.first_valid 0 d else s

/-- TOE_CTL: a change of enable acts; restart = 1 restarts the link. -/
def State.toeCtlWrite (s : State) (u : Nat) (r : RegDesc) (d v : Nat) : State :=
  let l := 8 * (u % 16) + d / 0x100
  let on := bitsOf v 0 1 == 1
  let was := s.og l TOE_CTL.enable == 1
  let s := s.plainWrite u r d v
  let s := if on = was then s else toeCtlEnableEff l on s
  if bitsOf v 2 1 = 1 then toeRestart l s else s

/-- LNK_CTL: hold, then train, then down. -/
def State.lnkCtlWrite (s : State) (u d v : Nat) : State :=
  let l := 8 * (u % 16) + d / 0x100
  let s := lnkHold l (bitsOf v 2 1) s
  let s := if bitsOf v 1 1 = 1 then lnkCtlTrainEff l s else s
  if bitsOf v 0 1 = 1 then lnkCtlDownEff l s else s

/-- DMA_RESUME: abandon wins over resume (Table 7-9). -/
def State.dmaResumeWrite (s : State) (u d v : Nat) : State :=
  let k := engKey (u % 16) (d / 0x80) (5 + d % 0x80 / 0x40)
  if bitsOf v 1 1 = 1 then abandonEff k s
  else if bitsOf v 0 1 = 1 then resumeEff k s
  else if (s.eng k).parked ∨ s.endedNow (oEng k) then s
  else s.stray (u % 16)

/-- A write to a register. -/
def State.regWrite (s : State) (u : Nat) (r : RegDesc) (d v : Nat) : State :=
  if r.kind = .keeper ∧ r.off = 0xB0000 then pwrModeWriteEff v s
  else if r.kind = .keeper ∧ r.off = 0xA0018 then
    let s := s.plainWrite u r d v
    if bitsOf v 63 1 = 1 then s.startReset (bitsOf v 0 3) (bitsOf v 8 8) (bitsOf v 16 6) else s
  else if r.kind = .die ∧ r.off = 0x1000C0 then s.flagsWrite u r d v
  else if r.kind = .tile ∧ r.off = 0x40000 then cacheCfgWrite (u % 16) v s
  else if r.kind = .tile ∧ r.off = 0x40008 then tlbInvWrite (u % 16) v s
  else if r.kind = .tile ∧ r.off = 0x30018 then dbgSelWrite (u % 16) v s
  else if r.kind = .tile ∧ r.off = 0x80008 then s.lnkCtlWrite u d v
  else if r.kind = .toe ∧ r.off = 0x70008 then s.toeCtlWrite u r d v
  else if r.kind = .die ∧ r.off = 0x1A0010 then s.dmaResumeWrite u d v
  else if r.kind = .d2d ∧ r.off = 0x60008 then
    let s := s.plainWrite u r d v
    if bitsOf v 0 1 = 1 then d2dRetrainEff u (d / 0x400) s else s
  else s.plainWrite u r d v

/-- A write to an address: whether it completes, and what it does. Unit 0xF0 refuses every write and the keeper counts it (R412). -/
def State.mgmtWrite (s : State) (a v : Nat) : Bool × State :=
  let u := addrUnit a
  let o := addrOff a
  if u = 0xF0 ∧ a < 2 ^ 48 then (false, s.mirrorRefused)
  else if !s.unitUp u ∨ a % 8 ≠ 0 ∨ a ≥ 2 ^ 48 then (false, s)
  else
    match s.regAt u o with
    | some (r, d) => (true, s.regWrite u r d v)
    | none =>
      match s.windowWord u o with
      | some _ => (true, s)
      | none =>
        match s.windowMem u o with
        | some p => (true, s.writeMem p (le 8 v))
        | none => (false, s)

/-- REGISTER_WRITE: a write of another width than 64 bits is an error completion (R6). -/
def execRegisterWrite (addr width : Nat) (v : Word) (s : State) : Out :=
  if s.boot.awake then
    let r := if width = 64 then s.mgmtWrite addr v.toNat else (false, s)
    ok (r.2.accessDone addr r.1)
  else ok s

end Sys2Proof.Machine
end

