-- ==== Sys2Proof/Machine/Claim.lean ====
section
/-!
DEFINITION. The claim, the identity key and attestation, and the management messages of ECP (R196, R197, R218, R228, R363 to R371, R374,
R376, R436 to R439).
-/

namespace Sys2Proof.Machine

/-! ### The identity key (R436 to R438) -/

/-- Leaves of the identity key, and of one of its lower trees. -/
def idLeaves : Nat := 2 ^ 25
def treeLeaves : Nat := 2 ^ 15

/-- Bytes from the keeper's generator, and the state past them. -/
def State.random (s : State) (n : Nat) : List Byte × State :=
  ((List.range n).map (Config.randomByte s.freeCtr), { s with freeCtr := s.freeCtr + 1 })

/-- May the keeper sign now: a leaf is left, and no signature was made within 1 s (R438)? -/
def State.maySign (s : State) : Bool :=
  decide (s.rg 0 CFG_IDKEY.next_leaf < idLeaves) &&
  (match s.claim.lastSign with
   | some t => decide (s.tick ≥ t + 100000000)
   | none => true)

/-- The leaf is spent before the signature is made (R437); a tree used up gives way to the next, and 0xA043 and 0xA044 tell that leaves run
out (R438). -/
def State.spendLeaf (s : State) : State :=
  let n := s.rg 0 CFG_IDKEY.next_leaf + 1
  let s := { s.rs 0 CFG_IDKEY.next_leaf n with claim := { s.claim with lastSign := some s.tick } }
  let s := if n % treeLeaves = 0 then s.rs 0 CFG_IDKEY.next_ready 0 else s
  let s := if n = idLeaves - 2 ^ 20 + 1 then s.raise 0xA043 0 else s
  if n = idLeaves then s.raise 0xA044 0 else s

/-- A supply fault falls in this tick: of a signature under way the leaf is spent, and nothing is released (Table 16-8). -/
def State.supplySoon (s : State) : Bool :=
  s.soon (fun i => match i with
    | .supplyFault code mv => supplyBad code mv
    | .inputFallsBelow36V _ => true
    | _ => false)

/-- A signature is to be made: with the leaf spent, `run` has it; where the write of next_leaf to MRAM fails, 0xA042 and nothing is released,
and what next_leaf reads as is open (R437; log 117). -/
def State.signing (s : State) (mram : Bool) (none run : State → State) : State :=
  if !mram then
    let n := s.rg 0 CFG_IDKEY.next_leaf
    none ((s.free.2.rs 0 CFG_IDKEY.next_leaf (n + s.free.1 % 2)).raise 0xA042 0)
  else if s.supplySoon then s.spendLeaf
  else run s.spendLeaf

/-- LOWER_TREE_BUILD: the tree in use has spent 2^14 leaves, and a next one exists. -/
def execLowerTreeBuild (s : State) : Out :=
  let n := s.rg 0 CFG_IDKEY.next_leaf
  if s.boot.awake ∧ n % treeLeaves ≥ 2 ^ 14 ∧ n / treeLeaves + 1 < 2 ^ 10 then ok (s.rs 0 CFG_IDKEY.next_ready 1) else ok s

/-! ### The claim (R363 to R365) -/

/-- A claim message that the keeper drops, counted at the port. -/
def State.helloDrop (s : State) (h : EcpHdr) : State := s.rinc (uPort h.port) HPT_FRAMES.hello 1

/-- CLAIM_OFFER as sent: header, body and a tag of zeros (Table 13-2); an unauthenticated message takes no number (R368). -/
def offerBytes (h : EcpHdr) (body : List Byte) : List Byte :=
  le 2 0x5045 ++ [1, 2] ++ le 2 (64 + body.length) ++ le 2 1 ++ le 8 0 ++ le 4 h.reqId ++ le 4 0 ++ le 8 0 ++ body ++ List.replicate 32 0

/-- What the identity signature of an offer covers. -/
def offerBody (serial nh np : Nat) (pub : List Byte) : List Byte := le 16 serial ++ le 16 nh ++ le 16 np ++ pub

def claimHelloEff (h : EcpHdr) (nonce : Nat) (mram : Bool) (s : State) : State :=
  if s.maySign then
    let leaf := s.rg 0 CFG_IDKEY.next_leaf
    s.signing mram id (fun s =>
    let np := s.random 16
    let priv := np.2.random 32
    let pub := x25519 priv.1 (le 32 9)
    let s := priv.2
    let msg := offerBody s.fuses.serial nonce (unle np.1) pub
    let body := msg ++ le 4 5236 ++ signature 0 leaf 5236 msg
    let s := { s with claim := { s.claim with offer := some ⟨nonce, unle np.1, priv.1, offerBytes h body, s.tick⟩ } }
    s.putEcp { port := h.port, ip := h.ip, udp := h.udp, type := 2, flags := 1, seq := 0, reqId := h.reqId, code := 0, body := body })
  else s.helloDrop h

/-- CLAIM_HELLO; `mram`: the write-back of next_leaf succeeds. -/
def execClaimHello (h : EcpHdr) (nonce : Nat) (mram : Bool) (s : State) : Out :=
  ok (s.ecpIn h 0x01 true (le 16 nonce) (claimHelloEff h nonce mram))

/-- Step 5 of R364: the pairing key. -/
def pairingKey (serial : Nat) (o : Offer) (pub : Nat) : List Byte :=
  hkdf (x25519 o.priv (le 32 pub)) (le 16 o.nh ++ le 16 o.np)
    ([0x45, 0x43, 0x50, 0x20, 0x70, 0x61, 0x69, 0x72, 0x69, 0x6E, 0x67] ++ le 16 serial)

/-- A verified claim: the new key, its counters, the notify address; CLAIM_DONE is the first message under it. -/
def State.pair (s : State) (h : EcpHdr) (o : Offer) (pub notifyIp notifyPort : Nat) : State :=
  let s := if s.claim.claimed then s.raise 0x8010 (uPort h.port) else s
  let s := { s with claim := { s.claim with
    claimed := true, key := pairingKey s.fuses.serial o pub, offer := none, seqHi := 0, seqMask := 0, txSeq := 0, cache := []
    notifyIp := notifyIp, notifyUdp := notifyPort, notifyHpt := h.port } }
  s.reply h 0x03 0x04 0 []

def claimEff (h : EcpHdr) (np pub notifyIp notifyPort rsv : Nat) (sig : List Byte) (s : State) : State :=
  match s.claim.cache.find? (fun e => s.claim.claimed && e.out.reqId == h.reqId && e.rtype == 3) with
  | some e => s.resend h e.out
  | none =>
    match s.claim.offer with
    | some o =>
      if s.claimOk o np (claimBody np pub notifyIp notifyPort rsv sig) sig then s.pair h o pub notifyIp notifyPort
      else (s.helloDrop h).raise 0xA201 0
    | none => (s.helloDrop h).raise 0xA201 0

/-- CLAIM. -/
def execClaim (h : EcpHdr) (np pub notifyIp notifyPort rsv : Nat) (sig : List Byte) (s : State) : Out :=
  ok (s.ecpIn h 0x03 true (claimBody np pub notifyIp notifyPort rsv sig ++ sig) (claimEff h np pub notifyIp notifyPort rsv sig))

/-- An admission waits: under way at the sequencer, queued for one, or received in this tick (R365, Table 13-8). -/
def State.admitPending (s : State) : Bool :=
  !s.admits.isEmpty ||
  (s.claim.queued ++ s.pending ++ s.later).any (fun i => match i with
    | .admitPlan .. => true
    | _ => false)

def releaseEff (h : EcpHdr) (s : State) : State :=
  if s.allFree ∧ s.qps.isEmpty ∧ !s.admitPending then
    let s := s.genReply h 0x05 0
    { s with claim := { s.claim with claimed := false, key := [] } }
  else s.genReply h 0x05 1

/-- RELEASE. -/
def execRelease (h : EcpHdr) (s : State) : Out := ok (s.ecpIn h 0x05 false [] (releaseEff h))

/-! ### QUERY and attestation (R371, R439) -/

/-- The report's body (Table 16-7). -/
def State.report (s : State) (leaf nonce : Nat) : List Byte :=
  let tiles := (List.range 8).foldl (fun m t => if s.tileUp t then m ||| 2 ^ t else m) 0
  le 4 0x5454414B ++ le 2 1 ++ le 2 0 ++ le 16 s.fuses.serial ++ le 1 s.fuses.tiles ++ le 1 s.fuses.stepping ++
  le 1 s.fuses.secFused ++ le 1 s.fuses.revoked ++ le 1 (s.rg 0 CFG_ID.root_slot) ++ le 1 tiles ++ le 1 (flagIf s.claim.claimed 1) ++
  le 1 (s.rg 0 CFG_BOOT.stage) ++ (List.range 32).map (fun i => s.fuseAt (0x1FFE0 + i)) ++ s.digest 0 ++ s.digest 1 ++ s.digest 2 ++
  s.digest 3 ++ le 8 (s.rg 0 LNK_CHAR.value) ++ le 8 s.tick ++ le 32 nonce ++ le 4 leaf ++ List.replicate 12 0

/-- A CLAIM_HELLO of this tick is signed before a report (Table 16-8). -/
def State.helloWaits (s : State) : Bool :=
  s.soon (fun i => match i with
    | .claimHello h _ _ => s.unitUp (uPort h.port) && claimGood h
    | _ => false)

def queryEff (h : EcpHdr) (sel nonce : Nat) (mram : Bool) (s : State) : State :=
  let rsvBits := unle (rsvBytes h 0 7)
  if sel > 2 ∨ rsvBits ≠ 0 then s.reply h 0x10 0x11 2 []
  else if sel = 0 then
    s.reply h 0x10 0x11 0 (le 1 (flagIf s.claim.claimed 1) ++
      (List.range s.nLinks).flatMap (fun l => le 1 (s.lg l LNK_STATUS.state)) ++ allCtx.flatMap (fun c => le 1 (s.cstate c)))
  else if sel = 1 then s.reply h 0x10 0x11 0 (le 8 (s.rg 0 LNK_CHAR.value))
  else if !s.maySign ∨ s.helloWaits then s.reply h 0x10 0x11 1 []
  else
    let leaf := s.rg 0 CFG_IDKEY.next_leaf
    s.signing mram (fun s => s.reply h 0x10 0x11 1 []) (fun s =>
      let b := s.report leaf nonce
      s.reply h 0x10 0x11 0 (b ++ le 4 5236 ++ signature 0 leaf 5236 b))

/-- QUERY; the nonce is there for selector 2 only; `mram`: the write-back of next_leaf succeeds. -/
def execQuery (h : EcpHdr) (sel nonce : Nat) (mram : Bool) (s : State) : Out :=
  ok (s.ecpIn h 0x10 false ((le 1 sel ++ rsvBytes h 0 7 ++ le 32 nonce).take (h.length - 64)) (queryEff h sel nonce mram))

/-! ### Registers and events -/

/-- Consecutive reads: the values before the first error completion, whether none failed, and the state after. -/
def State.readRegs (s : State) (ecc : EccHits) : Nat → Nat → List Nat → List Nat × Bool × State
  | 0, _, acc => (acc, true, s)
  | n + 1, a, acc =>
    -- each word of core store has one of the corrected errors at most
    match s.mgmtRead a { ecc with coreFixed := flagIf (decide (acc.length < ecc.coreFixed)) 1 } with
    | (some v, s') => s'.readRegs ecc n (a + 8) (acc ++ [v])
    | (none, s') => (acc, false, s')

def regReplyBody (addr : Nat) (vs : List Nat) : List Byte := le 8 addr ++ le 1 vs.length ++ le 7 0 ++ vs.flatMap (le 8)

def regReadEff (h : EcpHdr) (addr count : Nat) (ecc : EccHits) (s : State) : State :=
  if 1 ≤ count ∧ count ≤ 64 then
    let r := s.readRegs ecc count addr []
    r.2.2.reply h 0x12 0x14 (if r.2.1 then 0 else 5) (regReplyBody addr r.1)
  else s.reply h 0x12 0x14 2 (regReplyBody addr [])

/-- An ECP access waits: an I3C access arrives in the same tick, or one that was put off for such an access came before it (R471). -/
def State.accessYields (s : State) (seq : Nat) : Bool :=
  s.soon (fun i => match i with
    | .i3cWrite .. | .readRequest .. => true
    | _ => false) ||
  s.later.any (fun i => match i with
    | .regRead h .. | .regWrite h .. => decide (h.seq < seq)
    | _ => false)

/-- An ECP access in its turn. -/
def State.accessTurn (s : State) (i : Instr) (seq : Nat) (f : State → State) : Out :=
  ok (if s.accessYields seq then { s with later := insertLater i s.later } else f s)

/-- REG_READ. -/
def execRegRead (h : EcpHdr) (addr count : Nat) (ecc : EccHits) (s : State) : Out :=
  s.accessTurn (.regRead h addr count ecc) h.seq (fun s => s.ecpIn h 0x12 false (le 8 addr ++ le 1 count) (regReadEff h addr count ecc))

def regWriteEff (h : EcpHdr) (addr v : Nat) (s : State) : State :=
  let r := s.mgmtWrite addr v
  r.2.reply h 0x13 0x14 (if r.1 then 0 else 5) (regReplyBody addr [0])

/-- REG_WRITE. -/
def execRegWrite (h : EcpHdr) (addr : Nat) (v : Word) (s : State) : Out :=
  s.accessTurn (.regWrite h addr v) h.seq (fun s => s.ecpIn h 0x13 false (le 8 addr ++ le 8 v.toNat) (regWriteEff h addr v.toNat))

def eventFilterEff (h : EcpHdr) (mask : Nat) (s : State) : State :=
  if mask ≥ 2 ^ 12 then s.genReply h 0x18 2
  else ({ s with claim := { s.claim with filter := mask } }).genReply h 0x18 0

/-- EVENT_FILTER. -/
def execEventFilter (h : EcpHdr) (mask : Nat) (s : State) : Out := ok (s.ecpIn h 0x18 false (le 2 mask) (eventFilterEff h mask))

/-! ### Translation and DMA (R218, R228) -/

def tlbInvEff (h : EcpHdr) (c all : Nat) (s : State) : State :=
  if c ≥ 64 ∨ all ≥ 2 then s.genReply h 0x26 2
  else if s.tlbCur = none then s.startInv ⟨some h, c, all == 1⟩
  else if s.tlbHeld.length < 16 then { s with tlbHeld := s.tlbHeld ++ [⟨some h, c, all == 1⟩] }
  else s.genReply h 0x26 4

/-- TLB_INV. -/
def execTlbInv (h : EcpHdr) (ctx all : Nat) (s : State) : Out := ok (s.ecpIn h 0x26 false (le 1 ctx ++ le 1 all) (tlbInvEff h ctx all))

def ecpResumeEff (h : EcpHdr) (die core eng action : Nat) (s : State) : State :=
  if die ≥ s.nTiles ∨ core ≥ 64 ∨ (eng ≠ 5 ∧ eng ≠ 6) ∨ (action ≠ 1 ∧ action ≠ 2) then s.genReply h 0x27 2
  else if !s.dieUp die then s.genReply h 0x27 3
  else
    let k := engKey die core eng
    let code := if (s.eng k).parked then 0 else 1
    (if action = 1 then resumeEff k s else abandonEff k s).genReply h 0x27 code

/-- DMA_RESUME. -/
def execDmaResume (h : EcpHdr) (die core eng action : Nat) (s : State) : Out :=
  ok (s.ecpIn h 0x27 false (le 1 die ++ le 1 core ++ le 1 eng ++ le 1 action) (ecpResumeEff h die core eng action))

/-! ### Watches and signals (R196, R197) -/

def watchEff (h : EcpHdr) (c code thr span : Nat) (s : State) : State :=
  let refuse (s : State) : State := s.reply h 0x30 0x31 3 (watchReply 0 0)
  let tile := s.portTile h.port
  if c ≥ 64 ∨ s.cstate c = cFree ∨ !timeoutOk code then refuse s
  else
    let r := s.resolve tile c span
    match r.2 with
    | .here t k =>
      s.sendSpan (.here t k)
          { kind := .watch, obj := r.1, value := thr, waiter := waiterHost 0, unit := uPort h.port, ctx := c, reg := s.tick, expire := 0
            hdr := some h } code 0
    | _ => refuse (s.raise 0x3020 (uTile tile) span (waiterHost 0))

/-- WATCH. -/
def execWatch (h : EcpHdr) (ctx code thr span : Nat) (s : State) : Out :=
  ok (s.ecpIn h 0x30 false (le 1 ctx ++ le 1 code ++ le 2 thr ++ le 4 span) (watchEff h ctx code thr span))

/-- A SIGNAL of the host through a port for a context, with the request that asks for it: where the issuing hub sends it (R183, R199). -/
def State.hostSignal (s : State) (hdr : Option EcpHdr) (port c span value : Nat) : SpanDest × State :=
  let tile := s.portTile port
  let r := s.resolve tile c span
  if r.2 = .bad ∨ spanBarrier r.1 then (.bad, s.raise 0x3020 (uTile tile) span (waiterHost 0))
  else
    let op : SpanOp :=
      { kind := .signal, obj := r.1, value := value, waiter := waiterHost 0, unit := uPort port, ctx := c, reg := s.tick, expire := 0
        hdr := hdr }
    (r.2, s.sendSpan r.2 op 0 (s.ctx c).plan.planId)

/-- A SIGNAL for an object of this package is answered by its settle, one that crosses a link as it goes (DESIGN CHOICE, log 84). -/
def ecpSignalEff (h : EcpHdr) (c span value : Nat) (s : State) : State :=
  if c ≥ 64 ∨ unle (rsvBytes h 0 3) ≠ 0 then s.genReply h 0x33 2
  else if s.cstate c = cFree then s.genReply h 0x33 1
  else
    let r := s.hostSignal (some h) h.port c span value
    match r.1 with
    | .here _ _ => r.2
    | .peer _ _ => r.2.genReply h 0x33 0
    | .bad => r.2.genReply h 0x33 3

/-- ECP_SIGNAL. -/
def execEcpSignal (h : EcpHdr) (ctx span value : Nat) (s : State) : Out :=
  ok (s.ecpIn h 0x33 false (le 1 ctx ++ rsvBytes h 0 3 ++ le 4 span ++ le 2 value) (ecpSignalEff h ctx span value))

/-! ### Registrations and queue pairs (R374, R376) -/

/-- The lowest number below 512 that a table does not hold. -/
def freeIndex {α : Type} (m : SMap α) : Option Nat := (List.range 512).find? (fun i => (mfind m i).isNone)

/-- What is wrong with a registration (Table 13-6): the code, or 0. -/
def State.mrCode (s : State) (kind c region access pa length rsv : Nat) : Nat :=
  if kind ≥ 2 ∨ access ≥ 4 ∨ rsv ≠ 0 then 2
  else if kind = 0 then
    (if c ≥ 64 then 2
     else if s.cstate c = cFree then 1
     else
       match (s.ctx c).plan.regions[region]? with
       | some r => if r.host ∧ (bitsOf access 0 1 = 0 ∨ r.read) ∧ (bitsOf access 1 1 = 0 ∨ r.write) then 0 else 2
       | none => 3)
  else if pa % 2 ^ 16 = 0 ∧ 0 < length ∧ length % 2 ^ 16 = 0 ∧ s.paOk pa length then 0 else 2

def mrRegEff (h : EcpHdr) (kind c region access pa length : Nat) (s : State) : State :=
  let code := s.mrCode kind c region access pa length (unle (rsvBytes h 0 4))
  if code ≠ 0 then s.reply h 0x50 0x51 code (le 4 0)
  else
    match freeIndex s.mrs with
    | none => s.reply h 0x50 0x51 4 (le 4 0)
    | some i =>
      let tag := s.free.1 % 2 ^ 23
      let s := s.free.2
      ({ s with mrs := mput s.mrs i ⟨kind, c, region, access, pa, length, tag⟩ }).reply h 0x50 0x51 0 (le 4 (tag * 512 + i))

/-- MR_REG. -/
def execMrReg (h : EcpHdr) (kind ctx region access pa length : Nat) (s : State) : Out :=
  ok (s.ecpIn h 0x50 false (le 1 kind ++ le 1 ctx ++ le 1 region ++ le 1 access ++ rsvBytes h 0 4 ++ le 8 pa ++ le 8 length)
    (mrRegEff h kind ctx region access pa length))

/-- The registration of an rkey (R374). -/
def State.mrOf (s : State) (rkey : Nat) : Option Mr :=
  match mfind s.mrs (rkey % 512) with
  | some m => if m.tag = rkey / 512 then some m else none
  | none => none

def mrDeregEff (h : EcpHdr) (rkey : Nat) (s : State) : State :=
  match s.mrOf rkey with
  | some _ => ({ s with mrs := mdel s.mrs (rkey % 512) }).genReply h 0x52 0
  | none => s.genReply h 0x52 3

/-- MR_DEREG. -/
def execMrDereg (h : EcpHdr) (rkey : Nat) (s : State) : Out := ok (s.ecpIn h 0x52 false (le 4 rkey) (mrDeregEff h rkey))

/-- What is wrong with a QP_OPEN (Table 13-7): the code, or 0. -/
def State.qpCode (s : State) (c port peerQpn psn rkey span rsv : Nat) : Nat :=
  if (c ≥ 64 ∧ c ≠ 0xFF) ∨ port ≥ 2 ∨ peerQpn ≥ 2 ^ 24 ∨ psn ≥ 2 ^ 24 ∨ rsv ≠ 0 ∨ (c = 0xFF ∧ span ≠ 0) then 2
  else if c ≠ 0xFF ∧ s.cstate c = cFree then 1
  else if rkey ≠ 0 ∧ (s.mrOf rkey).isNone then 3
  else 0

def qpOpenEff (h : EcpHdr) (c port peerQpn peerIp psn rkey span : Nat) (s : State) : State :=
  let code := s.qpCode c port peerQpn psn rkey span (unle (rsvBytes h 0 2))
  if code ≠ 0 then s.reply h 0x53 0x54 code (le 4 0)
  else
    match freeIndex s.qps with
    | none => s.reply h 0x53 0x54 4 (le 4 0)
    | some i =>
      let q : Qp := { ctx := c, port := port, peerQpn := peerQpn, peerIp := peerIp, psn := psn, rkey := rkey, signal := span, rateAt := s.tick }
      ({ s with qps := mput s.qps i q }).reply h 0x53 0x54 0 (le 4 i)

/-- QP_OPEN. -/
def execQpOpen (h : EcpHdr) (ctx port peerQpn peerIp psn rkey span : Nat) (s : State) : Out :=
  ok (s.ecpIn h 0x53 false
    (le 1 ctx ++ le 1 port ++ rsvBytes h 0 2 ++ le 4 peerQpn ++ le 16 peerIp ++ le 4 psn ++ le 4 rkey ++ le 4 span)
    (qpOpenEff h ctx port peerQpn peerIp psn rkey span))

def qpCloseEff (h : EcpHdr) (qpn : Nat) (s : State) : State :=
  match mfind s.qps qpn with
  | some _ =>
    ({ s with
        qps := mdel s.qps qpn
        net := s.net.map (fun (r : Run) => if r.host.map Prod.fst = some qpn then { r with host := none } else r) }).genReply h 0x55 0
  | none => s.genReply h 0x55 3

/-- QP_CLOSE. -/
def execQpClose (h : EcpHdr) (qpn : Nat) (s : State) : Out := ok (s.ecpIn h 0x55 false (le 4 qpn) (qpCloseEff h qpn))

end Sys2Proof.Machine
end

