-- ==== Sys2Proof/Machine/Matrix.lean ====
section
/-!
DEFINITION. The matrix engine: MATMUL, its checks, its arithmetic in exact and ordered mode, and the matrix ports
(chapters Number Formats and Exact Accumulation, Cores and Engines).
-/

namespace Sys2Proof.Machine

/-- The body of a MATMUL (Table 3-4), decoded. -/
structure MatOp where
  fa : Nat
  fw : Nat
  acc : Nat
  m : Nat
  n : Nat
  initSrc : Nat
  kb : Nat
  aAddr : Nat
  aSide : Nat
  wAddr : Nat
  wSide : Nat
  init : Nat
  out : Nat
  map : Nat
  deriving DecidableEq, Repr

def matOp (w : CmdWord) : MatOp :=
  ⟨fieldOf w 128 8, fieldOf w 136 8, fieldOf w 144 16, fieldOf w 160 6 + 1, fieldOf w 166 6 + 1, fieldOf w 172 4,
   fieldOf w 176 16, fieldOf w 192 24, fieldOf w 216 24, fieldOf w 240 24, fieldOf w 264 24, fieldOf w 288 24,
   fieldOf w 312 24, fieldOf w 336 24⟩

def MatOp.k (o : MatOp) : Nat := o.kb * 32
def MatOp.exact (o : MatOp) : Bool := fmtCode o.fa ≤ 6 && fmtCode o.fw ≤ 6
def MatOp.ordered (o : MatOp) : Bool := fmtCode o.fa == 7 && fmtCode o.fw == 7
def MatOp.eref (o : MatOp) : Int := sext 10 o.acc
def MatOp.red (o : MatOp) : Bool := bitsOf o.acc 10 1 == 1
def MatOp.mark (o : MatOp) : Bool := o.exact && bitsOf o.acc 11 1 == 1
def MatOp.form (o : MatOp) : Nat := bitsOf o.acc 12 2

/-- Pass width, cycles per row and weight-tile load (Table 3-5). -/
def narrow (fmt : Nat) : Bool := fmt ≤ 3
def MatOp.kw (o : MatOp) : Nat := if narrow (fmtCode o.fa) && narrow (fmtCode o.fw) then 128 else 64
def MatOp.rate (o : MatOp) : Nat := if o.ordered then 4 else 1
def MatOp.load (o : MatOp) : Nat := if o.ordered then 64 else o.kw * 64 * elemBits (fmtCode o.fw) / 8 / 128
def MatOp.passes (o : MatOp) : Nat := cdiv o.k o.kw
/-- The length in cycles (R97). -/
def MatOp.cycles (o : MatOp) : Nat := o.passes * Nat.max (o.m * o.rate) o.load + 96

/-- Bytes of a weight tile, of a row of sidecar entries, and of one value in each form. -/
def MatOp.tileBytes (o : MatOp) : Nat := o.n * o.kw * elemBits (fmtCode o.fw) / 8
def formBytes (f : Nat) : Nat := if f = 0 then 4 else if f = 1 then 2 else if f = 2 then 32 else 16
def initBytes (i : Nat) : Nat := if i = 1 then 32 else if i = 2 then 16 else 4

/-- Format, control-word and reserved-bit rules (R47, R60, R66, Table 3-4). Two FP32 operands are rejected too: R47 does not name that pair, but
Tables 3-4 and 3-5 give it no mode and no rate (DEDUCED, log 106). -/
def matFormatOk (w : CmdWord) (o : MatOp) : Bool :=
  fmtOk o.fa && fmtOk o.fw && fieldOf w 360 152 == 0 && o.kb ≥ 1 && o.initSrc ≤ 3 &&
  (if o.exact then
    bitsOf o.acc 14 2 == 0 && (o.form != 2 || !o.red) && (o.form != 3 || o.red) &&
    (o.initSrc != 1 || !o.red) && (o.initSrc != 2 || o.red)
   else if o.ordered then
    o.acc % 2 ^ 12 == 0 && bitsOf o.acc 14 2 == 0 && o.form ≤ 1 && (o.initSrc == 0 || o.initSrc == 3)
   else false)

/-- The LA ranges of the command (R85, R87, R93). -/
def matRangesOk (me : Nat) (o : MatOp) : Bool :=
  let store (la n bytes : Nat) : Bool := if isAcc la then accRange la n else csRange la (n * bytes)
  csRange o.aAddr (o.m * o.k * elemBits (fmtCode o.fa) / 8) &&
  (!fmtBlocked o.fa || csRange o.aSide (o.m * o.kb * sideBytes (fmtCode o.fa))) &&
  csRange o.wAddr (o.passes * o.tileBytes) &&
  (!fmtBlocked o.fw || csRange o.wSide (o.passes * o.n * (o.kw / 32) * sideBytes (fmtCode o.fw))) &&
  (o.initSrc == 0 || store o.init (o.m * o.n) (initBytes o.initSrc)) &&
  (o.out == portLa me || store o.out (o.m * o.n) (formBytes o.form)) &&
  (!o.mark || csRange o.map (cdiv (o.m * o.n) 8))

/-- The check phase of a MATMUL. A command that breaks several checks has the status of the first of: format, address, cycle bound; R92 gives
no order (DESIGN CHOICE, log 107). -/
def matCheck (me : Nat) (_ : State) (w : CmdWord) : Option Nat :=
  let o := matOp w
  if !matFormatOk w o ∨ (o.out = portLa me ∧ o.form ≥ 2) then some 1
  else if !matRangesOk me o then some 3
  else if o.cycles > 2400 then some 2
  else none

/-- Element (i, k) of the activations, and (k, j) of the weights (Table 3-4). -/
def MatOp.aAt (o : MatOp) (mem : Mem) (base i k : Nat) : Num :=
  operandAt mem o.fa (base + o.aAddr) (base + o.aSide + (i * o.kb + k / 32) * sideBytes (fmtCode o.fa)) (i * o.k + k)

def MatOp.wAt (o : MatOp) (mem : Mem) (base k j : Nat) : Num :=
  let p := k / o.kw
  let kk := k % o.kw
  operandAt mem o.fw (base + o.wAddr + p * o.tileBytes)
    (base + o.wSide + (p * o.n * (o.kw / 32) + j * (o.kw / 32) + kk / 32) * sideBytes (fmtCode o.fw)) (j * o.kw + kk)

/-- Address of value `i` of an array in core store or in the accumulator buffer. -/
def slotAt (k la bytes i : Nat) : Nat :=
  if isAcc la then accAddr (keyDie k) (keyCore k) (keyEng k) (la - 0x800000 + 32 * i) else csAt k la + bytes * i

/-- The initial accumulator of element `i` in exact mode (R57). -/
def MatOp.initAcc (o : MatOp) (s : State) (k i : Nat) : ExAcc :=
  let v := s.word (slotAt k o.init (initBytes o.initSrc) i) (initBytes o.initSrc)
  if o.initSrc = 0 then {}
  else if o.initSrc = 1 then unpackAcc 224 v
  else if o.initSrc = 2 then unpackAcc 120 v
  else contribute (winUnit o.eref o.red) o.red {} (dec32 v)

/-- The exact accumulator of output (i, j): every contribution added (R51 to R56). -/
def MatOp.exactAcc (o : MatOp) (s : State) (k i j : Nat) : ExAcc :=
  let base := csAt k 0
  (List.range o.k).foldl
    (fun a x => contribute (winUnit o.eref o.red) o.red a (mulExact (o.aAt s.mem base i x) (o.wAt s.mem base x j)))
    (o.initAcc s k (i * o.n + j))

/-- The ordered sum of output (i, j): products, a six-level tree per chunk of 64, chunks in order (R67). -/
def MatOp.orderedAcc (o : MatOp) (s : State) (k i j : Nat) : Nat × Nat :=
  let base := csAt k 0
  let chunk (c : Nat) : Nat × Nat :=
    treeSum 6 (padZero 64 ((List.range (min 64 (o.k - 64 * c))).map
      (fun x => mulNum (o.aAt s.mem base i (64 * c + x)) (o.wAt s.mem base (64 * c + x) j))))
  let start := if o.initSrc = 3 then s.word (slotAt k o.init 4 (i * o.n + j)) 4 else 0
  (List.range o.passes).foldl (fun a c => addAcc a (chunk c)) (start, 0)

/-- Output element (i, j): its value in the output form, its flags, its inexact mark (R58, R59, R66). -/
def MatOp.outAt (o : MatOp) (s : State) (k i j : Nat) : Nat × Nat × Bool :=
  if o.ordered then
    let a := o.orderedAcc s k i j
    if o.form = 0 then (a.1, a.2, false)
    else
      let r := convertNum 7 false false .rne (dec32 a.1)
      (r.1, a.2 ||| r.2, false)
  else
    let a := o.exactAcc s k i j
    let soft := a.wuf || a.ovp || a.ovn || a.nan
    if o.form = 0 then finishAcc fp32 8 o.eref o.red a
    else if o.form = 1 then finishAcc bf16 7 o.eref o.red a
    else if o.form = 2 then (packAcc 224 a, 0, soft)
    else (packAcc 120 a, 0, soft)

/-- Every output, row-major. -/
def MatOp.outs (o : MatOp) (s : State) (k : Nat) : List (Nat × Nat × Bool) :=
  (List.range (o.m * o.n)).map (fun x => o.outAt s k (x / o.n) (x % o.n))

/-- The core-store ranges a MATMUL reads. -/
def MatOp.reads (o : MatOp) : List (Nat × Nat) :=
  [(o.aAddr, o.m * o.k * elemBits (fmtCode o.fa) / 8), (o.wAddr, o.passes * o.tileBytes)] ++
  (if fmtBlocked o.fa then [(o.aSide, o.m * o.kb * sideBytes (fmtCode o.fa))] else []) ++
  (if fmtBlocked o.fw then [(o.wSide, o.passes * o.n * (o.kw / 32) * sideBytes (fmtCode o.fw))] else []) ++
  (if o.initSrc != 0 && !isAcc o.init then [(o.init, o.m * o.n * initBytes o.initSrc)] else [])

/-- The first uncorrectable address within a list of ranges. -/
def hitsAny (bad : List Nat) (rs : List (Nat × Nat)) : Option Nat :=
  rs.findSome? (fun r => hitsRange bad r.1 r.2)

/-! ### The matrix ports (R87) -/

/-- Rows enter a matrix port while it has a place for one: what is left to enter with the flags of its rows, the port, and the flags of the
rows that entered. -/
def fillRows (row : Nat) : Nat → List Nat → List Nat → List (List Nat) → List Nat × List Nat × List (List Nat) × Nat
  | 0, buf, fl, fifo => (buf, fl, fifo, 0)
  | n + 1, buf, fl, fifo =>
    if buf.isEmpty ∨ fifo.length ≥ 2 then (buf, fl, fifo, 0)
    else
      let r := fillRows row n (buf.drop row) (fl.drop 1) (fifo ++ [buf.take row])
      (r.1, r.2.1, r.2.2.1, r.2.2.2 ||| fl.headD 0)

/-- A matrix engine writes what its port takes: flags are set as the rows that cause them enter (R77), and the last row in, the command is
issued. -/
def State.fillPort (s : State) (k : Nat) : State :=
  let e := s.eng k
  match e.queue with
  | [] => s
  | w :: _ =>
    let r := fillRows e.rowLen 64 e.portBuf e.portFl e.fifo
    let moved := r.1.length < e.portBuf.length
    (s.addFlags k (cmdSeq w) r.2.2.2).setEng k { e with
      portBuf := r.1, portFl := r.2.1, fifo := r.2.2.1, flags := e.flags ||| r.2.2.2, since := if moved then s.tick else e.since
      phase := if e.phase = .port ∧ r.1.isEmpty then .done else e.phase }

/-- Up to `n` values from the rows of a port, and the rows left. -/
def takeVals : Nat → List (List Nat) → List Nat × List (List Nat)
  | _, [] => ([], [])
  | n, row :: rows =>
    if n < row.length then (row.take n, if n = 0 then row :: rows else row.drop n :: rows)
    else
      let r := takeVals (n - row.length) rows
      (row ++ r.1, r.2)

/-- Values move through a port until the vector command at it has its `n`, or the port and its writer are empty. The command then executes.
Each move restarts the count of both stalls. -/
def State.exchange (s : State) (k mk n : Nat) : Nat → State
  | 0 => s
  | fuel + 1 =>
    let s := s.fillPort mk
    let e := s.eng k
    let t := takeVals (n - e.portBuf.length) (s.eng mk).fifo
    if t.1.isEmpty then s
    else
      let s := s.setEng k { e with
        portBuf := e.portBuf ++ t.1, since := s.tick, phase := if e.portBuf.length + t.1.length ≥ n then .executing else .port }
      (s.setEng mk { s.eng mk with fifo := t.2, since := s.tick }).exchange k mk n fuel

/-- A matrix engine at its port: rows enter, and a vector command that waits for them takes them. -/
def State.servePort (s : State) (k : Nat) : State :=
  let vk := engCore k * 8 + 4
  match (s.eng vk).phase, (s.eng vk).queue with
  | .port, w :: _ =>
    if fieldOf w 176 24 = portLa (keyEng k) then s.exchange vk k (fieldOf w 152 24) (fieldOf w 152 24 + 1) else s.fillPort k
  | _, _ => s.fillPort k

/-- The drain phase: outputs, inexact map, flags (R59, R77, R86, R95). -/
def State.matDrain (s : State) (k : Nat) (o : MatOp) : State :=
  let outs := o.outs s k
  let s :=
    if o.out = portLa (keyEng k) then s
    else s.each outs.zipIdx (fun s x =>
      s.writeMem (slotAt k o.out (formBytes o.form) x.2) (le (if isAcc o.out then 32 else formBytes o.form) x.1.1))
  let s :=
    if o.mark then
      s.writeMem (csAt k o.map)
        (le (cdiv (o.m * o.n) 8) (outs.zipIdx.foldl (fun v x => v + flagIf x.1.2.2 (2 ^ x.2)) 0))
    else s
  if o.out = portLa (keyEng k) then
    (s.setEng k { s.eng k with
      phase := .port, busy := o.cycles, flags := 0, portBuf := outs.map (·.1), rowLen := o.n, since := s.tick
      portFl := (List.range o.m).map (fun i => ((outs.drop (i * o.n)).take o.n).foldl (fun f x => f ||| x.2.1) 0) }).servePort k
  else s.issued k (outs.foldl (fun f x => f ||| x.2.1) 0) o.cycles

/-- MATMUL (R93 to R97). -/
def execMatmul (e : EngId) (ecc : EccHits) (s : State) : Out :=
  let k := engOf e
  match s.gate k 1 1 (matCheck e.eng) with
  | .stay s => ok s
  | .run s w =>
    let o := matOp w
    let s := s.coreFixed (engCore k) ecc.coreFixed
    match hitsAny ecc.core o.reads with
    | some a => ok (s.dataError k a)
    | none => ok (s.matDrain k o)

end Sys2Proof.Machine
end

