-- ==== Sys2Proof/Machine/Roce.lean ====
section
/-!
DEFINITION. The Ethernet side of the host ports: links, flow control, address protocols, and the responder side of RoCEv2 (R358 to R362,
R373 to R377).
-/

namespace Sys2Proof.Machine

/-! ### Links and flow control (R358 to R362) -/

/-- ETHERNET_LINK_DOWN: what the port still held is lost. -/
def execEthernetLinkDown (port : Nat) (s : State) : Out :=
  let u := uPort port
  if s.unitUp u ∧ s.rg u HPT_STATUS.link_up = 1 then
    ok ((((((s.rs u HPT_STATUS.link_up 0).rs u HPT_STATUS.fec_lock 0).rs u HPT_STATUS.an_done 0).setHpt port {})).raise 0x8001 u)
  else ok s

/-- ETHERNET_LINK_UP; Clause 73 runs with CR4 only. -/
def execEthernetLinkUp (port : Nat) (s : State) : Out :=
  let u := uPort port
  if s.unitUp u ∧ s.rg u HPT_STATUS.link_up = 0 then
    ok ((((s.rs u HPT_STATUS.link_up 1).rs u HPT_STATUS.fec_lock 1).rs u HPT_STATUS.an_done (1 - s.rg u HPT_STATUS.phy)).raise 0x8002 u)
  else ok s

/-- PFC_FRAME: honoured for the two priorities; when one resumes, what waited for it goes. -/
def execPfcFrame (port prio : Nat) (xoff : Bool) (s : State) : Out :=
  let u := uPort port
  let x := s.hpt port
  let ecp := prio == s.rg u HPT_CFG.pfc_ecp
  let rdma := prio == s.rg u HPT_CFG.pfc_roce
  if !s.unitUp u ∨ !(ecp || rdma) then ok s
  else if xoff then
    ok ((s.setHpt port { x with paused := prio :: x.paused.filter (· != prio) }).rinc u HPT_PFC.xoff_received 1)
  else
    let s := if ecp then { s with ecpOut := s.ecpOut ++ x.heldEcp } else s
    let s := if rdma then { s with frames := s.frames ++ x.heldRdma } else s
    ok (s.setHpt port { x with
      paused := x.paused.filter (· != prio), heldEcp := if ecp then [] else x.heldEcp, heldRdma := if rdma then [] else x.heldRdma })

/-- PAUSE_FRAME. -/
def execPauseFrame (port : Nat) (s : State) : Out := ok (if s.unitUp (uPort port) then s.rinc (uPort port) HPT_FRAMES.pause 1 else s)

/-! ### Receive buffers (R360) -/

/-- The class of a received frame: 0 the RoCEv2 priority, 1 the ECP priority, 2 all other traffic; by the PCP if it is tagged, else by the
DSCP. -/
def State.classOf (s : State) (port : Nat) (r : RxFrame) : Nat :=
  let u := uPort port
  let x := r.pcp.getD r.dscp
  let tagged := r.pcp.isSome
  if x = (if tagged then s.rg u HPT_CFG.pfc_roce else s.rg u HPT_CFG.dscp_roce) then 0
  else if x = (if tagged then s.rg u HPT_CFG.pfc_ecp else s.rg u HPT_CFG.dscp_ecp) then 1
  else 2

/-- The bytes of a class that a port holds: those that have yet to cross to its tile. -/
def State.rxHeld (s : State) (port cls : Nat) : Nat :=
  (s.net.filter (fun r => r.path.head? == some (fromHost (s.portTile port)) && (r.host.map (·.2.2)) == some cls)).foldl
    (fun n r => n + r.data.length) 0

/-- The buffer of a class: 1 MiB for a priority, 256 KiB for all other traffic. -/
def rxBuffer (cls : Nat) : Nat := if cls < 2 then 2 ^ 20 else 2 ^ 18

/-- XOFF and XON of the two priorities, by what their buffers hold. -/
def State.flowCtl (s : State) (port : Nat) : State :=
  s.each [0, 1] (fun s cls =>
    let u := uPort port
    let x := s.hpt port
    let prio := s.rg u (if cls = 0 then HPT_CFG.pfc_roce else HPT_CFG.pfc_ecp)
    let pfc (code : Nat) : FrameOut := { port := port, kind := 6, dest := prio, code := code }
    let n := s.rxHeld port cls
    if n > 0xC0000 ∧ !x.xoff.contains cls then
      ({ s with frames := s.frames ++ [pfc 1] }.setHpt port { x with xoff := cls :: x.xoff }).rinc u HPT_PFC.xoff_sent 1
    else if n < 0x80000 ∧ x.xoff.contains cls then
      { s with frames := s.frames ++ [pfc 0] }.setHpt port { x with xoff := x.xoff.filter (· != cls) }
    else s)

/-- A frame with `n` bytes to hold reaches a port: what its codewords met is counted (R358), and it goes on, unless its buffer is full. -/
def State.frameIn (s : State) (port : Nat) (r : RxFrame) (n : Nat) (run : State → State) : State :=
  let u := uPort port
  if !s.unitUp u then s
  else
    let s := s.countFec port r
    let cls := s.classOf port r
    if s.rxHeld port cls + n > rxBuffer cls then s.rinc u HPT_FRAMES.other 1 else run s

/-- OTHER_DATAGRAM: kind 0 is a fragment, 1 is neither ECP nor RoCEv2, 2 is a frame that is dropped only for a full buffer. -/
def execOtherDatagram (port kind : Nat) (rx : RxFrame) (s : State) : Out :=
  ok (s.frameIn port rx rx.bytes (fun s =>
    if kind = 0 then s.rinc (uPort port) HPT_FRAMES.ip_frag 1
    else if kind = 1 then s.rinc (uPort port) HPT_FRAMES.other 1
    else s))

/-! ### Address protocols (R359) -/

/-- An answer for an own address, in the remaining traffic class. -/
def State.answer (s : State) (port kind ip : Nat) (own : Bool) : State :=
  if s.unitUp (uPort port) ∧ own then
    { s with frames := s.frames ++ [
      { port := port, kind := kind, dest := ip, data := le 6 (mget s.fuses.macs port 0), wire := s.wireOf port 2 ip }] }
  else s

/-- ARP_REQUEST. -/
def execArpRequest (port ip : Nat) (s : State) : Out := ok (s.answer port 0 ip (ip == (s.portCfg port).ip4))
/-- NEIGHBOUR_SOLICITATION. -/
def execNeighbourSolicitation (port ip : Nat) (s : State) : Out := ok (s.answer port 1 ip (ip == (s.portCfg port).ip6))
/-- ECHO_REQUEST. -/
def execEchoRequest (port ip : Nat) (v6 : Bool) (s : State) : Out :=
  ok (s.answer port 2 ip (ip == (if v6 then (s.portCfg port).ip6 else (s.portCfg port).ip4)))

/-! ### What an access reaches (R374) -/

/-- The physical ranges of a VA range, if every page of it is mapped with the permission. -/
def State.runsVa (s : State) (valid : Bool) (root : Nat) (write : Bool) : Nat → Nat → Nat → Option (List (Nat × Nat))
  | 0, _, n => if n = 0 then some [] else none
  | fuel + 1, va, n =>
    if n = 0 then some []
    else
      match s.walkFrom [] valid root va with
      | .page p =>
        match pageFor p va write with
        | .ok pa =>
          let run := min n (p.va + p.size - va)
          (s.runsVa valid root write fuel (va + run) (n - run)).map (fun r => (pa, run) :: r)
        | .error _ => none
      | _ => none

/-- Where a registration begins, and its length: a region's VA range, or a physical range. -/
def State.mrRange (s : State) (m : Mr) : Option (Nat × Nat) :=
  if m.kind = 0 then ((s.ctx m.ctx).plan.regions[m.region]?).map (fun r => (r.va, r.length)) else some (m.pa, m.len)

/-- The physical ranges of an access through an rkey, or `none`: a remote access error. -/
def State.hostRuns (s : State) (rkey a n : Nat) (write : Bool) : Option (List (Nat × Nat)) :=
  match s.mrOf rkey with
  | none => none
  | some m =>
    match s.mrRange m with
    | none => none
    | some (base, len) =>
      if bitsOf m.access (if write then 1 else 0) 1 = 0 ∨ a < base ∨ a + n > base + len then none
      else if m.kind = 0 then
        let root := s.ctxRoot m.ctx
        match s.runsVa root.1 root.2 write (n / 2 ^ 16 + 2) a n with
        | some r => if r.all (fun x => s.paOk x.1 x.2) then some r else none
        | none => none
      else if s.paOk a n then some [(a, n)]
      else none

/-- The context whose tables an access through an rkey uses; 64: none. -/
def State.mrCtx (s : State) (rkey : Nat) : Nat :=
  match s.mrOf rkey with
  | some m => if m.kind = 0 then m.ctx else 64
  | none => 64

/-- The bytes of a packet on their way to physical ranges: over the channel from the port to its tile, and on to the tile of the memory (R361).
`none` where the grid has no way. -/
def State.hostBytes (s : State) (port : Nat) (tag : Nat × Nat × Nat) (c : Nat) : List (Nat × Nat) → List Byte → Option (List Run)
  | [], _ => some []
  | (pa, n) :: rs, bs =>
    match s.route 64 none (s.portTile port) (paTile pa), s.hostBytes port tag c rs (bs.drop n) with
    | some way, some l =>
      some ({ path := fromHost (s.portTile port) :: way, a := pa, tile := paTile pa, data := bs.take n, ctx := c, host := some tag } :: l)
    | _, _ => none

/-! ### The responder (R373 to R377) -/

/-- PSNs are 24 bits wide. -/
def psnNext (p n : Nat) : Nat := (p + n) % 2 ^ 24
def psnOld (q p : Nat) : Bool := 0 < (q + 2 ^ 24 - p) % 2 ^ 24 && (q + 2 ^ 24 - p) % 2 ^ 24 ≤ 2 ^ 23

/-- The packets of a READ response. -/
def readPackets (n : Nat) : Nat := Nat.max 1 (cdiv n 4096)

/-- READ responses under way, and READs that wait (Table 13-5). -/
def Qp.outstanding (q : Qp) (tick : Nat) : Nat := (q.reads.filter (fun t => t > tick)).length + (q.ops.filter (fun o => o.read.isSome)).length

/-- A READ in its turn: the response, up to the packet that an uncorrectable word cuts (R375). -/
def State.readNow (s : State) (p : RocePkt) (ecc : EccHits) (qpn : Nat) (q : Qp) : State :=
  let port := q.port
  match s.hostRuns p.rkey p.va p.len false with
  | none => s.accessError port qpn q
  | some runs =>
    let data := runs.flatMap (fun r => s.mem.bytes r.1 r.2)
    let bytesAt := runs.flatMap (fun r => (List.range r.2).map (fun i => r.1 + i))
    let s := s.memFixed (ecc.memFixed.filter (fun a => bytesAt.contains a))
    let answer (d : List Byte) : FrameOut := { port := port, kind := 5, dest := qpn, code := p.psn, data := d }
    match bytesAt.findIdx? (fun a => ecc.mem.any (fun x => x / 8 == a / 8)) with
    | some i =>
      let s := if i < 4096 then s else s.putRdma (answer (data.take (i / 4096 * 4096)))
      ((s.qpErr qpn q).raise 0x8102 (uPort port) qpn).memError (bytesAt.getD i 0 / 8 * 8)
    | none =>
      let reads := q.reads.filter (fun t => t > s.tick)
      let start := Nat.max s.tick (reads.foldl Nat.max 0)
      (s.setQp qpn { q with reads := reads ++ [start + cdiv (p.len * 8 * 100000000) q.rate] }).putRdma (answer data)

/-- The signal of a SEND: a refusal is returned to nobody (Table 13-8). -/
def State.sendSignal (s : State) (q : Qp) : State :=
  if q.signal = 0 ∨ s.cstate q.ctx = cFree then s else (s.hostSignal none q.port q.ctx q.signal 1).2

/-- The requests of a queue pair that are complete leave it in order: with the last byte of a packet at its completion point its ACK and its
signal go, and a READ sees what the packets before it wrote (DESIGN CHOICE, log 116). -/
def State.completeOps (qpn : Nat) : Nat → State → State
  | 0, s => s
  | fuel + 1, s =>
    match mfind s.qps qpn with
    | none => s
    | some q =>
      match q.ops with
      | [] => s
      | o :: rest =>
        if o.left > 0 then s
        else
          let q := { q with ops := rest }
          let s := s.setQp qpn q
          let s := match o.read with
            | some (p, ecc) => s.readNow p ecc qpn q
            | none => s
          let s := if o.ack then s.ack q.port qpn o.psn else s
          let s := if o.sig then s.sendSignal q else s
          State.completeOps qpn fuel s

/-- A request joins its queue pair. -/
def State.accept (s : State) (qpn : Nat) (q : Qp) (o : HostOp) : State :=
  State.completeOps qpn (q.ops.length + 1) (s.setQp qpn { q with ops := q.ops ++ [o] })

/-- What a request packet meets before its operation: ICRC, its queue pair, what the subset leaves out, its PSN. -/
def State.roceIn (s : State) (port : Nat) (p : RocePkt) (dup run : State → Qp → State) : State :=
  let u := uPort port
  s.frameIn port p.rx p.data.length (fun s =>
    let s := if p.ce then s.rinc u HPT_ROCE.ce 1 else s
    if !p.icrcOk then s.rinc u HPT_ROCE.icrc 1
    else
      match mfind s.qps p.qpn with
      | none => s
      | some q =>
        if q.port ≠ port ∨ q.err then s
        else if p.imm then s.nak port p.qpn nakInvalid
        else if p.psn = q.psn then run s q
        else if psnOld q.psn p.psn then dup s q
        else s.nak port p.qpn nakSequence)

/-- The place of a WRITE packet: rkey, address, and bytes of the message from it on; `none` for one out of place. -/
def writePlace (q : Qp) (p : RocePkt) : Option (Nat × Nat × Nat) :=
  if p.first then (if q.cur.isNone ∧ p.len ≤ 2 ^ 31 then some (p.rkey, p.va, p.len) else none) else q.cur

/-- Bytes in order go to memory; `q` is the queue pair once it has them. The buffer that holds them may ask the peer to pause. -/
def State.hostWrite (s : State) (port : Nat) (p : RocePkt) (q0 q : Qp) (o : HostOp) (rkey a : Nat) : State :=
  let runs := (s.hostRuns rkey a p.data.length true).bind (fun r =>
    s.hostBytes port (p.qpn, p.psn, s.classOf port p.rx) (s.mrCtx rkey) r p.data)
  match runs with
  | none => s.accessError port p.qpn q0
  | some l =>
    let s := s.each l (fun s r => (if paIsHbm r.a then s.charge acctPkg r.tile 10 r.data.length else s).launch r)
    (s.accept p.qpn q o).flowCtl port

/-- A WRITE packet in order. -/
def rdmaWriteEff (port : Nat) (p : RocePkt) (s : State) (q : Qp) : State :=
  let n := p.data.length
  match writePlace q p with
  | none => s.nak port p.qpn nakInvalid
  | some (rkey, a, left) =>
    if n > 4096 ∨ n > left ∨ (p.last ∧ n ≠ left) ∨ (!p.last ∧ (n ≠ 4096 ∨ n = left)) then s.nak port p.qpn nakInvalid
    else
      let due := p.last || q.unacked + 1 ≥ 16
      s.hostWrite port p q { q with
        psn := psnNext q.psn 1, cur := if p.last then none else some (rkey, a + n, left - n), unacked := if due then 0 else q.unacked + 1 }
        { psn := p.psn, left := n, ack := due } rkey a

/-- A WRITE or SEND once more: acknowledged, with its first execution if that is under way. -/
def dupEff (port : Nat) (p : RocePkt) (s : State) (q : Qp) : State :=
  if q.ops.any (fun o => o.psn == p.psn) then
    s.setQp p.qpn { q with ops := q.ops.map (fun o => if o.psn = p.psn then { o with ack := true } else o) }
  else s.ack port p.qpn p.psn

/-- RDMA_WRITE. -/
def execRdmaWrite (port : Nat) (p : RocePkt) (s : State) : Out :=
  s.inTurn (.rdmaWrite port p) (fun s => ok (s.roceIn port p (dupEff port p) (rdmaWriteEff port p)))

/-- A READ. `advance` is a new request. -/
def readEff (port : Nat) (p : RocePkt) (ecc : EccHits) (advance : Bool) (s : State) (q : Qp) : State :=
  if q.cur.isSome ∨ p.len > 2 ^ 31 ∨ q.outstanding s.tick ≥ 16 then s.nak port p.qpn nakInvalid
  else
    s.accept p.qpn { q with psn := if advance then psnNext q.psn (readPackets p.len) else q.psn }
      { psn := p.psn, left := 0, read := some (p, ecc) }

/-- RDMA_READ: a duplicate is executed again from memory. -/
def execRdmaRead (port : Nat) (p : RocePkt) (ecc : EccHits) (s : State) : Out :=
  s.inTurn (.rdmaRead port p ecc) (fun s => ok (s.roceIn port p (readEff port p ecc false) (readEff port p ecc true)))

/-- A SEND in order: into the next slot of its ring. -/
def sendEff (port : Nat) (p : RocePkt) (s : State) (q : Qp) : State :=
  if p.data.length > 4096 ∨ !(p.first && p.last) ∨ q.cur.isSome ∨ q.rkey = 0 then s.nak port p.qpn nakInvalid
  else
    match (s.mrOf q.rkey).bind s.mrRange with
    | none => s.accessError port p.qpn q
    | some (base, len) =>
      s.hostWrite port p q { q with psn := psnNext q.psn 1, slot := (q.slot + 1) % (len / 4096), unacked := 0 }
        { psn := p.psn, left := p.data.length, ack := true, sig := true } q.rkey (base + 4096 * q.slot)

/-- SEND. -/
def execSend (port : Nat) (p : RocePkt) (s : State) : Out :=
  s.inTurn (.send port p) (fun s => ok (s.roceIn port p (dupEff port p) (sendEff port p)))

/-- What the passing of a tick does at the host ports: packets whose bytes have landed complete, and buffers that drained let their peers
go on. -/
def State.hostTick (s : State) : State :=
  let s := s.each (s.qps.map (fun e => (e.1, e.2.ops.length))) (fun s x => State.completeOps x.1 x.2 s)
  s.each [0, 1] State.flowCtl

/-! ### Rates (R377) -/

/-- CONGESTION_NOTIFICATION: not acted on within 5,000 tk of the last one that was. -/
def execCongestionNotification (port qpn : Nat) (s : State) : Out :=
  match mfind s.qps qpn with
  | none => ok s
  | some q =>
    let fresh : Bool := match q.cnpAt with
      | some t => decide (s.tick ≥ t + 5000)
      | none => true
    if s.unitUp (uPort port) ∧ q.port = port ∧ fresh then
      ok ((s.setQp qpn { q with rate := Nat.max (q.rate / 2) 1000000000, cnpAt := some s.tick, rateAt := s.tick }).rinc (uPort port) HPT_ROCE.cnp 1)
    else ok s

/-- RATE_INCREASE: 5,500 tk since the last change. -/
def execRateIncrease (qpn : Nat) (s : State) : Out :=
  match mfind s.qps qpn with
  | none => ok s
  | some q =>
    if s.tick ≥ q.rateAt + 5500 then ok (s.setQp qpn { q with rate := Nat.min (q.rate + 25000000000) 400000000000, rateAt := s.tick }) else ok s

end Sys2Proof.Machine
end

