-- ==== Sys2Proof/Machine/Pins.lean ====
section
/-!
DEFINITION. The management pins: the I3C target and the JTAG port (R470 to R472).
-/

namespace Sys2Proof.Machine

/-- Statuses of Table 18-5. -/
def pinDone : Nat := 0
def pinError : Nat := 5

def State.setMgmt (s : State) (m : MgmtSt) : State := { s with mgmt := m }
def State.returned (s : State) (o : PinOut) : State := s.setMgmt { s.mgmt with out := s.mgmt.out ++ [o] }

/-- A management write, and what it leaves to report. -/
def State.pinWrite (s : State) (a v : Nat) : (Nat × Nat) × State :=
  let r := s.mgmtWrite a v
  ((if r.1 then pinDone else pinError, 0), r.2)

/-- A management read, and what it leaves to report. -/
def State.pinRead (s : State) (a : Nat) (ecc : EccHits) : (Nat × Nat) × State :=
  match s.mgmtRead a ecc with
  | (some v, s') => ((pinDone, v), s')
  | (none, s') => ((pinError, 0), s')

/-! ### I3C (R470, R471) -/

/-- I3C_WRITE. -/
def execI3cWrite (addr : Nat) (v : Word) (s : State) : Out :=
  if s.boot.awake then
    let r := s.pinWrite addr v.toNat
    ok (r.2.setMgmt { r.2.mgmt with i3c := r.1 })
  else ok s

/-- READ_REQUEST. -/
def execReadRequest (addr : Nat) (ecc : EccHits) (s : State) : Out :=
  if s.boot.awake then
    let r := s.pinRead addr ecc
    ok (r.2.setMgmt { r.2.mgmt with i3c := r.1 })
  else ok s

/-- STATUS_READ. -/
def execStatusRead (s : State) : Out :=
  ok (if s.boot.awake then s.returned (.status s.mgmt.i3c.1 s.mgmt.i3c.2) else s)

/-- SETDASA: by the static address, while no dynamic address is assigned. -/
def execSetdasa (static dyn : Nat) (s : State) : Out :=
  ok (if s.boot.awake ∧ static = 0x50 + s.mgmt.strap ∧ s.mgmt.dyn = none then s.setMgmt { s.mgmt with dyn := some dyn } else s)

/-- ENTDAA. -/
def execEntdaa (dyn : Nat) (s : State) : Out :=
  ok (if s.boot.awake ∧ s.mgmt.dyn = none then s.setMgmt { s.mgmt with dyn := some dyn } else s)

/-- GETSTATUS: the two bytes are a free value, for their layout is not given (log 33). -/
def execGetstatus (s : State) : Out :=
  ok (if s.boot.awake then s.free.2.returned (.getstatus (s.free.1 % 2 ^ 16)) else s)

/-! ### JTAG (R472) -/

/-- Instruction codes of Table 18-6. -/
def irExtest : Nat := 0x00
def irSample : Nat := 0x01
def irIdcode : Nat := 0x02
def irMgmt : Nat := 0x10
def irBypass : Nat := 0x3F

def State.setIr (s : State) (i : Nat) : State := s.setMgmt { s.mgmt with ir := i }

/-- The boundary register drives the pins: EXTEST is selected and pkg_rst_n is low; else EXTEST acts as BYPASS. -/
def State.boundDrives (s : State) : Bool := s.mgmt.ir == irExtest && !s.boot.high

/-- EXTEST. -/
def execExtest (s : State) : Out := ok (if s.boot.awake then s.setIr irExtest else s)

/-- SAMPLE_PRELOAD. -/
def execSamplePreload (pins : Nat) (s : State) : Out :=
  ok (if s.boot.awake then s.setMgmt { s.mgmt with ir := irSample, bound := pins } else s)

/-- The identification register. -/
def State.idcode (s : State) : Nat := 0x1 * 2 ^ 28 + (0x4B00 + s.fuses.tiles) * 2 ^ 12 + 0x5A7 * 2 + 1

/-- IDCODE. -/
def execIdcode (s : State) : Out := ok (if s.boot.awake then (s.setIr irIdcode).returned (.idcode s.idcode) else s)

/-- MGMT: the capture returns what the last access left; the update performs this one. -/
def execMgmt (cmd addr : Nat) (v : Word) (ecc : EccHits) (s : State) : Out :=
  if s.boot.awake then
    let s := (s.setIr irMgmt).returned (.capture s.mgmt.jtag.1 s.mgmt.jtag.2)
    let r := if cmd = 1 then s.pinWrite addr v.toNat else if cmd = 2 then s.pinRead addr ecc else ((pinError, 0), s)
    ok (r.2.setMgmt { r.2.mgmt with jtag := r.1 })
  else ok s

/-- BYPASS. -/
def execBypass (s : State) : Out := ok (if s.boot.awake then s.setIr irBypass else s)

/-- TRST_N: the TAP resets, after an access whose update falls in the same tick, which is performed whole (R482). -/
def execTrstN (s : State) : Out := s.inTurn .trstN (fun s => ok (if s.boot.awake then s.setIr irIdcode else s))

end Sys2Proof.Machine
end

