-- ==== Sys2Proof/Machine/Vector.lean ====
section
/-!
DEFINITION. The vector engine: its checks, its elementwise functions, reductions, SORT, TOPK and CONVERT (chapters Number
Formats and Exact Accumulation, Cores and Engines).
-/

namespace Sys2Proof.Machine

/-- The body of a vector command (Table 3-8), decoded. -/
structure VecOp where
  op : Nat
  fmt : Nat
  cvt : Cvt
  n : Nat
  src1 : Nat
  src2 : Nat
  src3 : Nat
  dst : Nat
  imm2 : Bool
  imm3 : Bool
  imm : Nat
  k : Nat
  seed : Nat
  step : Nat
  index : Nat
  deriving DecidableEq, Repr

def vecOp (w : CmdWord) : VecOp :=
  ⟨cmdOp w, fieldOf w 128 8, cvtOf (fieldOf w 136 16), fieldOf w 152 24, fieldOf w 176 24, fieldOf w 200 24, fieldOf w 224 24,
   fieldOf w 248 24, fieldOf w 272 1 == 1, fieldOf w 273 1 == 1, fieldOf w 280 32, fieldOf w 312 16, fieldOf w 328 64,
   fieldOf w 392 32, fieldOf w 424 48⟩

/-- Whole blocks of n elements. -/
def blocksOf (n : Nat) : Nat := cdiv n 32

/-- Bytes of n elements in a format byte, sidecar included (R72, R103). -/
def arrayBytes (fb n : Nat) : Nat :=
  if fmtBlocked fb then blocksOf n * (4 * elemBits (fmtCode fb) + sideBytes (fmtCode fb))
  else cdiv (n * elemBits (fmtCode fb)) 8

def VecOp.binary (o : VecOp) : Bool := 1 ≤ o.op && o.op ≤ 7
def VecOp.ordering (o : VecOp) : Bool := o.op == 0x30 || o.op == 0x31
def VecOp.reduces (o : VecOp) : Bool := 0x20 ≤ o.op && o.op ≤ 0x22

/-- Cycle count (Table 3-9). -/
def VecOp.cycles (o : VecOp) : Nat :=
  if o.op = 5 ∨ (0x10 ≤ o.op ∧ o.op ≤ 0x18) then cdiv o.n 128 + 48
  else if o.reduces then cdiv o.n 512 + 48
  else if o.op = 0x30 then (if o.n ≤ 512 then 160 else if o.n ≤ 1024 then 320 else if o.n ≤ 2048 then 704 else 1536)
  else if o.op = 0x31 then 2 * cdiv o.n 512 + 8 * o.k + 64
  else cdiv o.n 512 + 32

/-- Bytes written from dst. -/
def VecOp.dstBytes (o : VecOp) : Nat :=
  if o.reduces then elemBits (fmtCode o.cvt.dst) / 8
  else if o.op = 0x30 then 8 * o.n
  else if o.op = 0x31 then 8 * o.k
  else arrayBytes o.cvt.dst o.n

/-- The core-store ranges read. -/
def VecOp.reads (o : VecOp) : List (Nat × Nat) :=
  (if (portOf o.src1).isSome then [] else [(o.src1, arrayBytes o.fmt o.n)]) ++
  (if o.binary && !o.imm2 then [(o.src2, arrayBytes o.fmt o.n)] else []) ++
  (if o.op == 4 && !o.imm3 then [(o.src3, arrayBytes o.fmt o.n)] else []) ++
  (if o.ordering then [(o.src2, 4 * o.n)] else [])

/-- The check phase of a vector command. -/
def vecCheck (_ : State) (w : CmdWord) : Option Nat :=
  let o := vecOp w
  let dst := fmtCode o.cvt.dst
  if fieldOf w 274 6 ≠ 0 ∨ fieldOf w 472 40 ≠ 0 ∨ !fmtOk o.fmt ∨ !cvtOk (fieldOf w 136 16) ∨ o.n = 0 then some 1
  else if o.op ≠ 0x40 ∧ (fmtBlocked o.fmt ∨ (dst ≠ 7 ∧ dst ≠ 8)) then some 1
  else if (o.op = 0x30 ∧ o.n > 4096) ∨ (o.op = 0x31 ∧ (o.n > 65536 ∨ o.k = 0 ∨ o.k > 256)) then some 1
  else if !(o.reads.all (fun r => csRange r.1 r.2)) ∨ !csRange o.dst o.dstBytes then some 3
  else if o.cycles > 2400 then some 2
  else none

/-- Element `i` of a source, as a code and a number. -/
def VecOp.elem (o : VecOp) (s : State) (k la i : Nat) : Nat × Num :=
  let a := csAt k la
  let c := elemAt s.mem a (fmtCode o.fmt) i
  (c, operandAt s.mem o.fmt a
    (a + blocksOf o.n * 4 * elemBits (fmtCode o.fmt) + i / 32 * sideBytes (fmtCode o.fmt)) i)

/-- The values of src1: from core store, or the codes taken from a port. -/
def VecOp.srcs (o : VecOp) (s : State) (k : Nat) : List (Nat × Num) :=
  if (portOf o.src1).isSome then
    (s.eng k).portBuf.map (fun c => (c, decodeElem (fmtCode o.fmt) false (c % 2 ^ elemBits (fmtCode o.fmt))))
  else (List.range o.n).map (o.elem s k o.src1)

/-- A second or third source: memory or the immediate, as FP32. -/
def VecOp.other (o : VecOp) (s : State) (k la i : Nat) (imm : Bool) : Num :=
  if imm then dec32 o.imm else (o.elem s k la i).2

/-- A value widened exactly to FP32 (R71, R103). -/
def wide32 (v : Num) : Nat := (num32 v).1

/-- How an element is rounded; its index wraps modulo 2^48 past the 48 bits of R74 (DESIGN CHOICE, log 106). -/
def VecOp.rnd (o : VecOp) (i : Nat) : Rnd :=
  if o.cvt.sr then .sr (srDraw o.seed o.step ((o.index + i) % 2 ^ 48)) else .rne

/-- An FP32 result written through the conversion control word (R103). -/
def VecOp.outcome (o : VecOp) (i : Nat) (r : Nat × Nat) : Nat × Nat :=
  let c := convertOne 8 false o.cvt (o.rnd i) r.1 (dec32 r.1)
  (c.1, r.2 ||| c.2)

/-- Results in order, stored from an LA of core store: each code in the destination's bytes. -/
def State.storeCodes (s : State) (k la bytes : Nat) (rs : List (Nat × Nat)) : State :=
  s.writeMem (csAt k la) (rs.flatMap (fun r => le bytes r.1))

def allFlags (rs : List (Nat × Nat)) : Nat := rs.foldl (fun f r => f ||| r.2) 0

/-- The part every vector command shares: gate, port, uncorrectable words; then `f` gives the new state of the outputs and their
flags. -/
def State.vector (s : State) (c : CoreId) (op : Nat) (ecc : EccHits) (f : VecOp → State → Nat → State × Nat) : State :=
  let k := vecOf c
  let g := match (s.eng k).phase, (s.eng k).queue with
    | .port, w :: _ | .executing, w :: _ =>
      if cmdClass w = 2 ∧ cmdOp w = op ∧ s.dieUp c.die then Gate.run s w else s.gate k 2 op vecCheck
    | _, _ => s.gate k 2 op vecCheck
  match g with
  | .stay s => s
  | .run s w =>
    let o := vecOp w
    let s := s.coreFixed (engCore k) ecc.coreFixed
    match hitsAny ecc.core o.reads with
    | some a => (s.scramble (csAt k o.dst) o.dstBytes).dataError k a
    | none =>
      let run (s : State) : State :=
        let r := f o s k
        r.1.issued k r.2 o.cycles
      match portOf o.src1 with
      | none => run s
      | some m =>
        let s := if (s.eng k).phase = .port ∨ (s.eng k).phase = .executing then s
          else s.setEng k { s.eng k with phase := .port, since := s.tick }
        let s := s.exchange k (engCore k * 8 + m) o.n (o.n + 1)
        if (s.eng k).portBuf.length < o.n then s else run s

/-- An elementwise command: `f` of the index and the source value's FP32 code and number. -/
def elementwise (f : VecOp → State → Nat → Nat → Num → Nat × Nat) (o : VecOp) (s : State) (k : Nat) : State × Nat :=
  let rs := (o.srcs s k).zipIdx.map (fun x => o.outcome x.2 (f o s k x.2 x.1.2))
  (s.storeCodes k o.dst (elemBits (fmtCode o.cvt.dst) / 8) rs, allFlags rs)

/-- An elementwise function of one source: of its FP32 code and its number. -/
def unary (g : Nat → Num → Nat × Nat) : VecOp → State → Nat → State × Nat :=
  elementwise (fun _ _ _ _ v => g (wide32 v) v)

/-- An elementwise function of two sources. -/
def binaryOp (g : Num → Num → Nat × Nat) : VecOp → State → Nat → State × Nat :=
  elementwise (fun o s k i v => g v (o.other s k o.src2 i o.imm2))

/-- ADD. -/
def execAdd (c : CoreId) (ecc : EccHits) (s : State) : Out := ok (s.vector c 0x01 ecc (binaryOp addNum))
/-- SUB. -/
def execSub (c : CoreId) (ecc : EccHits) (s : State) : Out := ok (s.vector c 0x02 ecc (binaryOp (fun a b => addNum a (negNum b))))
/-- MUL. -/
def execMul (c : CoreId) (ecc : EccHits) (s : State) : Out := ok (s.vector c 0x03 ecc (binaryOp mulNum))
/-- FMA: one rounding (R69). -/
def execFma (c : CoreId) (ecc : EccHits) (s : State) : Out :=
  ok (s.vector c 0x04 ecc (elementwise (fun o s k i v =>
    fmaNum v (o.other s k o.src2 i o.imm2) (o.other s k o.src3 i o.imm3))))
/-- DIV. -/
def execDiv (c : CoreId) (ecc : EccHits) (s : State) : Out := ok (s.vector c 0x05 ecc (binaryOp divNum))
/-- MAX. -/
def execMax (c : CoreId) (ecc : EccHits) (s : State) : Out :=
  ok (s.vector c 0x06 ecc (binaryOp (fun a b => (max32 (wide32 a) (wide32 b), 0))))
/-- MIN. -/
def execMin (c : CoreId) (ecc : EccHits) (s : State) : Out :=
  ok (s.vector c 0x07 ecc (binaryOp (fun a b => (min32 (wide32 a) (wide32 b), 0))))
/-- EXP. -/
def execExp (c : CoreId) (ecc : EccHits) (s : State) : Out := ok (s.vector c 0x10 ecc (unary expNum))
/-- LOG. -/
def execLog (c : CoreId) (ecc : EccHits) (s : State) : Out := ok (s.vector c 0x11 ecc (unary logNum))
/-- RSQRT. -/
def execRsqrt (c : CoreId) (ecc : EccHits) (s : State) : Out := ok (s.vector c 0x12 ecc (unary rsqrtNum))
/-- SQRT. -/
def execSqrt (c : CoreId) (ecc : EccHits) (s : State) : Out := ok (s.vector c 0x13 ecc (unary (fun _ v => sqrtNum v)))
/-- TANH. -/
def execTanh (c : CoreId) (ecc : EccHits) (s : State) : Out := ok (s.vector c 0x14 ecc (unary tanhNum))
/-- SIGMOID. -/
def execSigmoid (c : CoreId) (ecc : EccHits) (s : State) : Out := ok (s.vector c 0x15 ecc (unary sigmoidNum))
/-- SIN. -/
def execSin (c : CoreId) (ecc : EccHits) (s : State) : Out := ok (s.vector c 0x16 ecc (unary sinNum))
/-- COS. -/
def execCos (c : CoreId) (ecc : EccHits) (s : State) : Out := ok (s.vector c 0x17 ecc (unary cosNum))
/-- RECIP. -/
def execRecip (c : CoreId) (ecc : EccHits) (s : State) : Out := ok (s.vector c 0x18 ecc (unary recipNum))

/-- A reduction: one value at dst. -/
def reduceOp (g : List (Nat × Nat) → Nat × Nat) (o : VecOp) (s : State) (k : Nat) : State × Nat :=
  let r := o.outcome 0 (g ((o.srcs s k).map (fun x => (wide32 x.2, 0))))
  (s.storeCodes k o.dst (elemBits (fmtCode o.cvt.dst) / 8) [r], r.2)

/-- Sum of a lane: its elements in increasing order, from +0 (R105). -/
def laneSum (xs : List (Nat × Nat)) (lane : Nat) : Nat × Nat :=
  (xs.zipIdx.filter (fun x => x.2 % 512 == lane)).foldl (fun a x => addAcc a x.1) (0, 0)

/-- RSUM: 512 lanes, then a tree of nine levels in lane order. -/
def execRsum (c : CoreId) (ecc : EccHits) (s : State) : Out :=
  ok (s.vector c 0x20 ecc (reduceOp (fun xs => treeSum 9 ((List.range 512).map (laneSum xs)))))

def foldPick (g : Nat → Nat → Nat) : List (Nat × Nat) → Nat × Nat
  | [] => (0, 0)
  | x :: xs => (xs.foldl (fun a y => g a y.1) (g x.1 x.1), 0)

/-- RMAX. -/
def execRmax (c : CoreId) (ecc : EccHits) (s : State) : Out := ok (s.vector c 0x21 ecc (reduceOp (foldPick max32)))
/-- RMIN. -/
def execRmin (c : CoreId) (ecc : EccHits) (s : State) : Out := ok (s.vector c 0x22 ecc (reduceOp (foldPick min32)))

/-- Insertion before the first entry whose key is not smaller: stable when folded from the right. -/
def insertKey (x : Int × Nat × Nat) : List (Int × Nat × Nat) → List (Int × Nat × Nat)
  | [] => [x]
  | y :: ys => if x.1 ≤ y.1 then x :: y :: ys else y :: insertKey x ys

def sortKeys (l : List (Int × Nat × Nat)) : List (Int × Nat × Nat) := l.foldr insertKey []

/-- Keys and payloads of SORT and TOPK. -/
def VecOp.pairs (o : VecOp) (s : State) (k : Nat) : List (Nat × Nat) :=
  (o.srcs s k).zipIdx.map (fun x => (wide32 x.1.2, s.word (csAt k (o.src2 + 4 * x.2)) 4))

/-- Keys through the conversion at dst, payloads at dst + 4 × count. BF16 keys lie 2 bytes apart, and the bytes between them and the payloads
stay as they were: Table 3-9 gives no spacing (DESIGN CHOICE, log 107). -/
def VecOp.storePairs (o : VecOp) (s : State) (k count : Nat) (ps : List (Nat × Nat)) : State × Nat :=
  let rs := ps.zipIdx.map (fun x => o.outcome x.2 (x.1.1, 0))
  let s := s.storeCodes k o.dst (elemBits (fmtCode o.cvt.dst) / 8) rs
  (s.writeMem (csAt k (o.dst + 4 * count)) (ps.flatMap (fun p => le 4 p.2)), allFlags rs)

/-- SORT: ascending by totalOrder, NaNs equal and last, stable (R106). -/
def execSort (c : CoreId) (ecc : EccHits) (s : State) : Out :=
  ok (s.vector c 0x30 ecc (fun o s k =>
    let ps := (o.pairs s k).map (fun p => ((if isNan32 p.1 then (2 ^ 32 : Int) else orderKey p.1), p.1, p.2))
    o.storePairs s k o.n ((sortKeys ps).map (·.2))))

/-- TOPK: descending, NaNs last, equal keys in source order; padded with canonical NaNs (Table 3-9). -/
def execTopk (c : CoreId) (ecc : EccHits) (s : State) : Out :=
  ok (s.vector c 0x31 ecc (fun o s k =>
    let ps := (o.pairs s k).map (fun p => ((if isNan32 p.1 then (2 ^ 32 : Int) else -orderKey p.1), p.1, p.2))
    let top := ((sortKeys ps).map (·.2)).take o.k
    o.storePairs s k o.k (top ++ List.replicate (o.k - top.length) (nan32, 0xFFFFFFFF))))

/-- Blocks of 32 values of a blocked destination, the last padded with zeros (R72). -/
def VecOp.block (o : VecOp) (vs : List Num) (b : Nat) : List Nat × List Nat × Nat :=
  let xs := (vs.drop (32 * b)).take 32
  let xs := xs ++ List.replicate (32 - xs.length) (Num.fin false 0 0)
  convertBlock o.cvt ((List.range 32).map (fun i => o.rnd (32 * b + i))) xs

/-- CONVERT (R70 to R75). -/
def convertEff (o : VecOp) (s : State) (k : Nat) : State × Nat :=
  let fmt := fmtCode o.cvt.dst
  let xs := o.srcs s k
  if fmtBlocked o.cvt.dst then
    let bs := (List.range (blocksOf o.n)).map (o.block (xs.map (·.2)))
    let elems := bs.flatMap (fun b => le (4 * elemBits fmt) (packElems (elemBits fmt) b.1))
    let side := bs.flatMap (fun b => b.2.1.map (BitVec.ofNat 8))
    (s.writeMem (csAt k o.dst) (elems ++ side), bs.foldl (fun f b => f ||| b.2.2) 0)
  else
    let rs := xs.zipIdx.map (fun x => convertOne (fmtCode o.fmt) (fmtBlocked o.fmt) o.cvt (o.rnd x.2) x.1.1 x.1.2)
    (s.writeMem (csAt k o.dst) (le (arrayBytes o.cvt.dst o.n) (packElems (elemBits fmt) (rs.map (·.1)))), allFlags rs)

def execConvert (c : CoreId) (ecc : EccHits) (s : State) : Out := ok (s.vector c 0x40 ecc convertEff)

/-! ### The port timeout (R87) -/

/-- The port a stalled command waits at: a matrix engine's own, or the one the vector command reads. -/
def stalledPort (k : Nat) (w : CmdWord) : Nat :=
  if keyEng k < 4 then keyEng k else (portOf (fieldOf w 176 24)).getD 0

/-- The destination of a vector command, which an error that ends it after its start leaves undefined (R107). -/
def State.spoilVector (s : State) (k : Nat) (w : CmdWord) : State :=
  if cmdClass w = 2 then s.scramble (csAt k (vecOp w).dst) (vecOp w).dstBytes else s

/-- PORT_TIMEOUT (R87). -/
def execPortTimeout (e : EngId) (s : State) : Out := s.inTurn (.portTimeout e) (fun s =>
    let k := engOf e
    let x := s.eng k
    match x.queue with
    | [] => ok s
    | w :: _ =>
      if x.phase ≠ .port ∨ s.tick < x.since + s.rg (uTile e.die) SYN_CORE_TIMEOUT.core_tk ∨ !s.dieUp e.die then ok s
      else
        let m := stalledPort k w
        let s := ((s.spoilVector k w).busyFree k).endHead k 6
        let s := s.raise 0x3014 (uDie e.die) m k
        let s := s.toLog e.die (s.eng (engCore k * 8 + m)).fifo.flatten.length 0 k
        let s := s.rinc (uTile e.die) SYN_COUNTS.timeouts 1
        ok (s.abortCore (engCore k) 0x13))

end Sys2Proof.Machine
end

