-- ==== Sys2Proof/Machine/Dispatch.lean ====
section
/-!
DEFINITION. The effect of each command: one arm for each, in the order of spec/opcode_table.json.
-/

namespace Sys2Proof.Machine

def exec (i : Instr) (s : State) : Host.Outcome State Fault Refusal :=
  match i with
  | .registerWrite addr width v => Sys2Proof.Machine.execRegisterWrite addr width v s
  | .mirrorWrite off v => Sys2Proof.Machine.execMirrorWrite off v s
  | .powerOnReset => Sys2Proof.Machine.execPowerOnReset s
  | .pkgRstNRelease fl => Sys2Proof.Machine.execPkgRstNRelease fl s
  | .bootStageEnd => Sys2Proof.Machine.execBootStageEnd s
  | .stageBound => Sys2Proof.Machine.execStageBound s
  | .linkPhaseEnd => Sys2Proof.Machine.execLinkPhaseEnd s
  | .advertisement tile port id cols => Sys2Proof.Machine.execAdvertisement tile port id cols s
  | .report r => Sys2Proof.Machine.execReport r s
  | .tileAbsent tile => Sys2Proof.Machine.execTileAbsent tile s
  | .pkgRstNFall => Sys2Proof.Machine.execPkgRstNFall s
  | .inputFallsBelow36V mv => Sys2Proof.Machine.execInputFallsBelow36V mv s
  | .referenceClockLoss => Sys2Proof.Machine.execReferenceClockLoss s
  | .packageWarmReset fl => Sys2Proof.Machine.execPackageWarmReset fl s
  | .tileReset unit => Sys2Proof.Machine.execTileReset unit s
  | .computeDieReset unit => Sys2Proof.Machine.execComputeDieReset unit s
  | .opticalEngineReset unit => Sys2Proof.Machine.execOpticalEngineReset unit s
  | .coreReset unit core => Sys2Proof.Machine.execCoreReset unit core s
  | .dieClockLoss unit => Sys2Proof.Machine.execDieClockLoss unit s
  | .clockReturn unit => Sys2Proof.Machine.execClockReturn unit s
  | .selfTestEnd unit pass serial => Sys2Proof.Machine.execSelfTestEnd unit pass serial s
  | .healthPoll answered => Sys2Proof.Machine.execHealthPoll answered s
  | .allModulesDown tile => Sys2Proof.Machine.execAllModulesDown tile s
  | .voteDissent channel output => Sys2Proof.Machine.execVoteDissent channel output s
  | .resynchronisationEnd agree => Sys2Proof.Machine.execResynchronisationEnd agree s
  | .eventRecordArrival n => Sys2Proof.Machine.execEventRecordArrival n s
  | .logAppend => Sys2Proof.Machine.execLogAppend s
  | .eventNoteTimer => Sys2Proof.Machine.execEventNoteTimer s
  | .suppressionWindowClose code unit => Sys2Proof.Machine.execSuppressionWindowClose code unit s
  | .commandFetch c ecc => Sys2Proof.Machine.execCommandFetch c ecc s
  | .nop e => Sys2Proof.Machine.execNop e s
  | .endStream e => Sys2Proof.Machine.execEndStream e s
  | .flagClear e => Sys2Proof.Machine.execFlagClear e s
  | .leaveRelease e => Sys2Proof.Machine.execLeaveRelease e s
  | .tickMark e => Sys2Proof.Machine.execTickMark e s
  | .matmul e ecc => Sys2Proof.Machine.execMatmul e ecc s
  | .add c ecc => Sys2Proof.Machine.execAdd c ecc s
  | .sub c ecc => Sys2Proof.Machine.execSub c ecc s
  | .mul c ecc => Sys2Proof.Machine.execMul c ecc s
  | .fma c ecc => Sys2Proof.Machine.execFma c ecc s
  | .div c ecc => Sys2Proof.Machine.execDiv c ecc s
  | .max c ecc => Sys2Proof.Machine.execMax c ecc s
  | .min c ecc => Sys2Proof.Machine.execMin c ecc s
  | .exp c ecc => Sys2Proof.Machine.execExp c ecc s
  | .log c ecc => Sys2Proof.Machine.execLog c ecc s
  | .rsqrt c ecc => Sys2Proof.Machine.execRsqrt c ecc s
  | .sqrt c ecc => Sys2Proof.Machine.execSqrt c ecc s
  | .tanh c ecc => Sys2Proof.Machine.execTanh c ecc s
  | .sigmoid c ecc => Sys2Proof.Machine.execSigmoid c ecc s
  | .sin c ecc => Sys2Proof.Machine.execSin c ecc s
  | .cos c ecc => Sys2Proof.Machine.execCos c ecc s
  | .recip c ecc => Sys2Proof.Machine.execRecip c ecc s
  | .rsum c ecc => Sys2Proof.Machine.execRsum c ecc s
  | .rmax c ecc => Sys2Proof.Machine.execRmax c ecc s
  | .rmin c ecc => Sys2Proof.Machine.execRmin c ecc s
  | .sort c ecc => Sys2Proof.Machine.execSort c ecc s
  | .topk c ecc => Sys2Proof.Machine.execTopk c ecc s
  | .convert c ecc => Sys2Proof.Machine.execConvert c ecc s
  | .move e ecc => Sys2Proof.Machine.execMove e ecc s
  | .signal c => Sys2Proof.Machine.execSignal c s
  | .wait c => Sys2Proof.Machine.execWait c s
  | .waitTake c => Sys2Proof.Machine.execWaitTake c s
  | .barrierArrive c ecc => Sys2Proof.Machine.execBarrierArrive c ecc s
  | .commandComplete e => Sys2Proof.Machine.execCommandComplete e s
  | .fenceDataComplete e => Sys2Proof.Machine.execFenceDataComplete e s
  | .portTimeout e => Sys2Proof.Machine.execPortTimeout e s
  | .leaveGrant die => Sys2Proof.Machine.execLeaveGrant die s
  | .rampStep c => Sys2Proof.Machine.execRampStep c s
  | .idleRelease c cycles => Sys2Proof.Machine.execIdleRelease c cycles s
  | .fallStep c => Sys2Proof.Machine.execFallStep c s
  | .settle tile => Sys2Proof.Machine.execSettle tile s
  | .coreObjectSettle c => Sys2Proof.Machine.execCoreObjectSettle c s
  | .waiterTimeout tile waiter obj => Sys2Proof.Machine.execWaiterTimeout tile waiter obj s
  | .waiterRetry tile => Sys2Proof.Machine.execWaiterRetry tile s
  | .synDbgSelWrite tile v => Sys2Proof.Machine.execSynDbgSelWrite tile v s
  | .admitPlan h ctx imageVa saveVa root => Sys2Proof.Machine.execAdmitPlan h ctx imageVa saveVa root s
  | .admissionEvaluation ecc copyTk => Sys2Proof.Machine.execAdmissionEvaluation ecc copyTk s
  | .cycleStart ctx => Sys2Proof.Machine.execCycleStart ctx s
  | .cycleDone ctx => Sys2Proof.Machine.execCycleDone ctx s
  | .stop h ctx forced => Sys2Proof.Machine.execStop h ctx forced s
  | .saveComplete ctx ecc => Sys2Proof.Machine.execSaveComplete ctx ecc s
  | .abort h ctx => Sys2Proof.Machine.execAbort h ctx s
  | .epochSet h epoch => Sys2Proof.Machine.execEpochSet h epoch s
  | .beaconSend tile => Sys2Proof.Machine.execBeaconSend tile s
  | .beacon dst b => Sys2Proof.Machine.execBeacon dst b s
  | .acknowledgement tile epoch expiry => Sys2Proof.Machine.execAcknowledgement tile epoch expiry s
  | .ackMissing tile => Sys2Proof.Machine.execAckMissing tile s
  | .ownExpiry tile => Sys2Proof.Machine.execOwnExpiry tile s
  | .beaconCheck tile b => Sys2Proof.Machine.execBeaconCheck tile b s
  | .leaseExpiry => Sys2Proof.Machine.execLeaseExpiry s
  | .take tile => Sys2Proof.Machine.execTake tile s
  | .grant => Sys2Proof.Machine.execGrant s
  | .arbitrate tile silent => Sys2Proof.Machine.execArbitrate tile silent s
  | .epochAnnouncement tile epoch => Sys2Proof.Machine.execEpochAnnouncement tile epoch s
  | .agentReport tile agent ctx start fin delivered => Sys2Proof.Machine.execAgentReport tile agent ctx start fin delivered s
  | .copyRecord tile m => Sys2Proof.Machine.execCopyRecord tile m s
  | .standbyLost tile => Sys2Proof.Machine.execStandbyLost tile s
  | .noLeaseTimeout fl => Sys2Proof.Machine.execNoLeaseTimeout fl s
  | .planCtl f planId what => Sys2Proof.Machine.execPlanCtl f planId what s
  | .mmuCacheCfgWrite tile v => Sys2Proof.Machine.execMmuCacheCfgWrite tile v s
  | .tlbInvStart tile v => Sys2Proof.Machine.execTlbInvStart tile v s
  | .tlbInv h ctx all => Sys2Proof.Machine.execTlbInv h ctx all s
  | .tlbInvComplete => Sys2Proof.Machine.execTlbInvComplete s
  | .tableWalk e ecc => Sys2Proof.Machine.execTableWalk e ecc s
  | .resume e => Sys2Proof.Machine.execResume e s
  | .abandon e => Sys2Proof.Machine.execAbandon e s
  | .dmaResume h die core eng action => Sys2Proof.Machine.execDmaResume h die core eng action s
  | .hbmTemperatureRead stack quarter => Sys2Proof.Machine.execHbmTemperatureRead stack quarter s
  | .refresh stack => Sys2Proof.Machine.execRefresh stack s
  | .scrub stack corrected bad => Sys2Proof.Machine.execScrub stack corrected bad s
  | .srvOpen h ctx tile blockVa => Sys2Proof.Machine.execSrvOpen h ctx tile blockVa s
  | .srvClose h tile => Sys2Proof.Machine.execSrvClose h tile s
  | .srvReq h r => Sys2Proof.Machine.execSrvReq h r s
  | .fragmentTimeout tile reqId => Sys2Proof.Machine.execFragmentTimeout tile reqId s
  | .srvAck h tile reqId index => Sys2Proof.Machine.execSrvAck h tile reqId index s
  | .srvResend h tile reqId index => Sys2Proof.Machine.execSrvResend h tile reqId index s
  | .srvCancel h tile reqId => Sys2Proof.Machine.execSrvCancel h tile reqId s
  | .windowProcedure tile => Sys2Proof.Machine.execWindowProcedure tile s
  | .srvTokTimeout tile reqId => Sys2Proof.Machine.execSrvTokTimeout tile reqId s
  | .retentionEnd tile reqId => Sys2Proof.Machine.execRetentionEnd tile reqId s
  | .trainingRequest unit m => Sys2Proof.Machine.execTrainingRequest unit m s
  | .d2dCtlRetrain unit m => Sys2Proof.Machine.execD2dCtlRetrain unit m s
  | .forwardedClockLoss unit m absent => Sys2Proof.Machine.execForwardedClockLoss unit m absent s
  | .trainingStageEnd unit m o => Sys2Proof.Machine.execTrainingStageEnd unit m o s
  | .alignmentMarker unit m obs => Sys2Proof.Machine.execAlignmentMarker unit m obs s
  | .repair unit m x y epoch => Sys2Proof.Machine.execRepair unit m x y epoch s
  | .repairBoundary unit m => Sys2Proof.Machine.execRepairBoundary unit m s
  | .ack unit m epoch digest => Sys2Proof.Machine.execAck unit m epoch digest s
  | .degrade unit m epoch => Sys2Proof.Machine.execDegrade unit m epoch s
  | .bandSetStep unit m => Sys2Proof.Machine.execBandSetStep unit m s
  | .toeCtlEnable link on => Sys2Proof.Machine.execToeCtlEnable link on s
  | .litEntry link => Sys2Proof.Machine.execLitEntry link s
  | .litCheckArmed link => Sys2Proof.Machine.execLitCheckArmed link s
  | .litCheck link => Sys2Proof.Machine.execLitCheck link s
  | .holdEnd link => Sys2Proof.Machine.execHoldEnd link s
  | .lockTimeout link lam tx => Sys2Proof.Machine.execLockTimeout link lam tx s
  | .opticalMarker m => Sys2Proof.Machine.execOpticalMarker m s
  | .testEnd link => Sys2Proof.Machine.execTestEnd link s
  | .modeStep link => Sys2Proof.Machine.execModeStep link s
  | .agreement link => Sys2Proof.Machine.execAgreement link s
  | .waitEnd link => Sys2Proof.Machine.execWaitEnd link s
  | .toeCtlRestart link => Sys2Proof.Machine.execToeCtlRestart link s
  | .integrationWindow link lam tx deriv drop3dB => Sys2Proof.Machine.execIntegrationWindow link lam tx deriv drop3dB s
  | .identityCheck link lam tx amps expected => Sys2Proof.Machine.execIdentityCheck link lam tx amps expected s
  | .temperatureUpdate link quarter => Sys2Proof.Machine.execTemperatureUpdate link quarter s
  | .calibrationRunEnd link lam tx r => Sys2Proof.Machine.execCalibrationRunEnd link lam tx r s
  | .calibrationRetry link lam tx => Sys2Proof.Machine.execCalibrationRetry link lam tx s
  | .calReport f lam item pass values => Sys2Proof.Machine.execCalReport f lam item pass values s
  | .hourlyMean link lam => Sys2Proof.Machine.execHourlyMean link lam s
  | .fecWindow link lam => Sys2Proof.Machine.execFecWindow link lam s
  | .spareAsk f reason lam => Sys2Proof.Machine.execSpareAsk f reason lam s
  | .spareCmd f action x y epoch m => Sys2Proof.Machine.execSpareCmd f action x y epoch m s
  | .spareAbort f m => Sys2Proof.Machine.execSpareAbort f m s
  | .spareDone f epoch role => Sys2Proof.Machine.execSpareDone f epoch role s
  | .spareDoneTimeout link => Sys2Proof.Machine.execSpareDoneTimeout link s
  | .replacementBoundary link tx => Sys2Proof.Machine.execReplacementBoundary link tx s
  | .emergencyReplacement link lam => Sys2Proof.Machine.execEmergencyReplacement link lam s
  | .idle f => Sys2Proof.Machine.execIdle f s
  | .train f t => Sys2Proof.Machine.execTrain f t s
  | .ping f stamp => Sys2Proof.Machine.execPing f stamp s
  | .pong f stamp => Sys2Proof.Machine.execPong f stamp s
  | .write f d => Sys2Proof.Machine.execWrite f d s
  | .writeFirst f d x => Sys2Proof.Machine.execWriteFirst f d x s
  | .delivered f pod pkg tag => Sys2Proof.Machine.execDelivered f pod pkg tag s
  | .refuse f pod pkg tag cause => Sys2Proof.Machine.execRefuse f pod pkg tag cause s
  | .syncOp f o => Sys2Proof.Machine.execSyncOp f o s
  | .syncResult f waiter span outcome tick => Sys2Proof.Machine.execSyncResult f waiter span outcome tick s
  | .barrierRel f span gen mask => Sys2Proof.Machine.execBarrierRel f span gen mask s
  | .char f value => Sys2Proof.Machine.execChar f value s
  | .charPeriod link => Sys2Proof.Machine.execCharPeriod link s
  | .linkDown f cause => Sys2Proof.Machine.execLinkDown f cause s
  | .event f r => Sys2Proof.Machine.execEvent f r s
  | .replayTimeout link => Sys2Proof.Machine.execReplayTimeout link s
  | .ackDueTimeout link => Sys2Proof.Machine.execAckDueTimeout link s
  | .lnkCtlDown link => Sys2Proof.Machine.execLnkCtlDown link s
  | .lnkCtlTrain link => Sys2Proof.Machine.execLnkCtlTrain link s
  | .claimHello h nonce mram => Sys2Proof.Machine.execClaimHello h nonce mram s
  | .claim h np pub notifyIp notifyPort rsv sig => Sys2Proof.Machine.execClaim h np pub notifyIp notifyPort rsv sig s
  | .release h => Sys2Proof.Machine.execRelease h s
  | .query h sel nonce mram => Sys2Proof.Machine.execQuery h sel nonce mram s
  | .regRead h addr count ecc => Sys2Proof.Machine.execRegRead h addr count ecc s
  | .regWrite h addr v => Sys2Proof.Machine.execRegWrite h addr v s
  | .eventFilter h mask => Sys2Proof.Machine.execEventFilter h mask s
  | .watch h ctx code thr span => Sys2Proof.Machine.execWatch h ctx code thr span s
  | .ecpSignal h ctx span value => Sys2Proof.Machine.execEcpSignal h ctx span value s
  | .mrReg h kind ctx region access pa length => Sys2Proof.Machine.execMrReg h kind ctx region access pa length s
  | .mrDereg h rkey => Sys2Proof.Machine.execMrDereg h rkey s
  | .qpOpen h ctx port peerQpn peerIp psn rkey span => Sys2Proof.Machine.execQpOpen h ctx port peerQpn peerIp psn rkey span s
  | .qpClose h qpn => Sys2Proof.Machine.execQpClose h qpn s
  | .rdmaWrite port p => Sys2Proof.Machine.execRdmaWrite port p s
  | .rdmaRead port p ecc => Sys2Proof.Machine.execRdmaRead port p ecc s
  | .send port p => Sys2Proof.Machine.execSend port p s
  | .congestionNotification port qpn => Sys2Proof.Machine.execCongestionNotification port qpn s
  | .rateIncrease qpn => Sys2Proof.Machine.execRateIncrease qpn s
  | .pfcFrame port prio xoff => Sys2Proof.Machine.execPfcFrame port prio xoff s
  | .pauseFrame port => Sys2Proof.Machine.execPauseFrame port s
  | .arpRequest port ip => Sys2Proof.Machine.execArpRequest port ip s
  | .neighbourSolicitation port ip => Sys2Proof.Machine.execNeighbourSolicitation port ip s
  | .echoRequest port ip v6 => Sys2Proof.Machine.execEchoRequest port ip v6 s
  | .ethernetLinkDown port => Sys2Proof.Machine.execEthernetLinkDown port s
  | .ethernetLinkUp port => Sys2Proof.Machine.execEthernetLinkUp port s
  | .inputLow mv => Sys2Proof.Machine.execInputLow mv s
  | .supplyFault code mv => Sys2Proof.Machine.execSupplyFault code mv s
  | .tileRailFault tile => Sys2Proof.Machine.execTileRailFault tile s
  | .powerSample watts mv => Sys2Proof.Machine.execPowerSample watts mv s
  | .packageLimitGuard => Sys2Proof.Machine.execPackageLimitGuard s
  | .controlTick => Sys2Proof.Machine.execControlTick s
  | .pwrModeWrite v => Sys2Proof.Machine.execPwrModeWrite v s
  | .railSettled die => Sys2Proof.Machine.execRailSettled die s
  | .settleWindowEnd die => Sys2Proof.Machine.execSettleWindowEnd die s
  | .droopTrip c => Sys2Proof.Machine.execDroopTrip c s
  | .stretchEnd c cycles => Sys2Proof.Machine.execStretchEnd c cycles s
  | .stepHoldEnd die => Sys2Proof.Machine.execStepHoldEnd die s
  | .sensorRead tile quarters => Sys2Proof.Machine.execSensorRead tile quarters s
  | .sensorFaulty tile index => Sys2Proof.Machine.execSensorFaulty tile index s
  | .rateComputation tile => Sys2Proof.Machine.execRateComputation tile s
  | .laserZoneDarken engine => Sys2Proof.Machine.execLaserZoneDarken engine s
  | .thermalTrip tile index => Sys2Proof.Machine.execThermalTrip tile index s
  | .reconciliation telemetryMj => Sys2Proof.Machine.execReconciliation telemetryMj s
  | .meteringStart => Sys2Proof.Machine.execMeteringStart s
  | .islandHoldUp importMj exportMj => Sys2Proof.Machine.execIslandHoldUp importMj exportMj s
  | .metPulse => Sys2Proof.Machine.execMetPulse s
  | .intervalEnd => Sys2Proof.Machine.execIntervalEnd s
  | .selfCheck volt shunt osc importMj exportMj mv ma => Sys2Proof.Machine.execSelfCheck volt shunt osc importMj exportMj mv ma s
  | .statusFrame m => Sys2Proof.Machine.execStatusFrame m s
  | .recordFrame no bytes => Sys2Proof.Machine.execRecordFrame no bytes s
  | .mirrorStale => Sys2Proof.Machine.execMirrorStale s
  | .status crc arg => Sys2Proof.Machine.execStatus crc arg s
  | .record crc no => Sys2Proof.Machine.execRecord crc no s
  | .pubkey crc arg => Sys2Proof.Machine.execPubkey crc arg s
  | .calCheck crc prog load measured => Sys2Proof.Machine.execCalCheck crc prog load measured s
  | .pulseTest crc prog count => Sys2Proof.Machine.execPulseTest crc prog count s
  | .seal crc prog arg => Sys2Proof.Machine.execSeal crc prog arg s
  | .lowerTreeBuild => Sys2Proof.Machine.execLowerTreeBuild s
  | .i3cWrite addr v => Sys2Proof.Machine.execI3cWrite addr v s
  | .readRequest addr ecc => Sys2Proof.Machine.execReadRequest addr ecc s
  | .statusRead => Sys2Proof.Machine.execStatusRead s
  | .setdasa static dyn => Sys2Proof.Machine.execSetdasa static dyn s
  | .entdaa dyn => Sys2Proof.Machine.execEntdaa dyn s
  | .getstatus => Sys2Proof.Machine.execGetstatus s
  | .extest => Sys2Proof.Machine.execExtest s
  | .samplePreload pins => Sys2Proof.Machine.execSamplePreload pins s
  | .idcode => Sys2Proof.Machine.execIdcode s
  | .mgmt cmd addr v ecc => Sys2Proof.Machine.execMgmt cmd addr v ecc s
  | .bypass => Sys2Proof.Machine.execBypass s
  | .trstN => Sys2Proof.Machine.execTrstN s
  | .forwardedClockReturn unit m => Sys2Proof.Machine.execForwardedClockReturn unit m s
  | .tickLineLoss tile => Sys2Proof.Machine.execTickLineLoss tile s
  | .crcFailedFlit link => Sys2Proof.Machine.execCrcFailedFlit link s
  | .copyRecordAcknowledgement tile seq => Sys2Proof.Machine.execCopyRecordAcknowledgement tile seq s
  | .otherDatagram port kind rx => Sys2Proof.Machine.execOtherDatagram port kind rx s

end Sys2Proof.Machine
end

