-- ==== Sys2Proof/Machine/Tick.lean ====
section
/-!
DEFINITION. The end of a tick: what is left to do in it, what its passing does, and the tick that follows (R11, R29).
-/

namespace Sys2Proof.Machine

/-- What is left to the end of a tick, once all its commands are done. -/
def State.endTick (s : State) : State := s.compareChars.dueAdmits.endStoppedWaits.applyCuts.decideMode

/-- What the passing of a tick does: time in states, energy, cycles, flits and their symbols, slots, cells, and the cache sizes asked for. -/
def State.passTick (s : State) : State := s.tickPreempted.staticEnergy.tickCores.linkTicks.lineTicks.adcTicks.netTick.hostTick.metTick.fuseTick.decideCaches

/-- The next tick: the end of the one that passes, the tick counter, and what switches at the new one. -/
def State.nextTick (s : State) : State := { s.endTick.passTick with tick := s.tick + 1, fresh := [] }.switchDies.boundaries

end Sys2Proof.Machine
end

