-- ==== Sys2Proof/WellFormed.lean ====
section
/-!
DEFINITION. Which commands are well formed: the ranges of the operands, as the widths of the messages and tables give them.
-/

namespace Sys2Proof

/-- A core of a compute die (R79). -/
def CoreId.wf (c : CoreId) : Bool := decide (c.die < 8) && decide (c.core < 64)

/-- An engine of a core (Table 3-1). -/
def EngId.wf (e : EngId) : Bool := decide (e.die < 8) && decide (e.core < 64) && decide (e.eng < 8)

/-- The flash holds what it can (R419). -/
def Flash.wf (f : Flash) : Bool := decide (f.image.length ≤ f.size)

/-- A discovery report (R34): a tile position, a variant of Table 0-1, three serials. -/
def TileReport.wf (r : TileReport) : Bool :=
  decide (r.tile < 8) && [2, 4, 8].contains r.variant && decide (r.serials.length = 3)

/-- A frame's tag and DSCP (R360). -/
def RxFrame.wf (r : RxFrame) : Bool :=
  decide (r.pcp.getD 0 < 8) && decide (r.dscp < 64) && decide (r.bytes < 2 ^ 16) && decide (r.corrected < 2 ^ 40) && decide (r.uncorrectable < 2 ^ 40)

/-- The header of an ECP datagram, field by field (Table 13-2). -/
def EcpHdr.wf (h : EcpHdr) : Bool :=
  decide (h.port < 2) && decide (h.ip < 2 ^ 128) && decide (h.udp < 2 ^ 16) && decide (h.magic < 2 ^ 16) && decide (h.version < 2 ^ 8) &&
  decide (h.length < 2 ^ 16) && decide (h.flags < 2 ^ 16) && decide (h.seq < 2 ^ 64) && decide (h.reqId < 2 ^ 32) &&
  decide (h.code < 2 ^ 32) && decide (h.rsv < 2 ^ 64) && decide (h.tag.length = 32) && h.rx.wf

/-- The header of a flit (Table 12-1). -/
def FlitHdr.wf (f : FlitHdr) : Bool :=
  decide (f.link < 64) && decide (f.seq < 2 ^ 16) && decide (f.vc < 4) && decide (f.ack < 2 ^ 12) && decide (f.creditVc < 4) &&
  decide (f.freed < 2 ^ 11) && decide (f.len < 2 ^ 16)

/-- The header of a data flit (Table 12-3): at most a flit's data. -/
def DataMsg.wf (d : DataMsg) : Bool :=
  decide (d.dstPod < 64) && decide (d.dstPkg < 128) && decide (d.va < 2 ^ 64) && decide (d.bytes.length < 2 ^ 16)

def XferHdr.wf (x : XferHdr) : Bool := decide (x.planId < 2 ^ 64) && decide (x.srcPod < 64) && decide (x.srcPkg < 128)

/-- A TRAIN (Table 12-7). -/
def TrainMsg.wf (t : TrainMsg) : Bool :=
  decide (t.pod < 64) && decide (t.pkg < 128) && decide (t.link < 64) && decide (t.epoch < 2 ^ 32) && decide (t.char < 2 ^ 64)

/-- An event record (Table 17-1). -/
def EvRec.wf (r : EvRec) : Bool :=
  decide (r.tick < 2 ^ 64) && decide (r.code < 2 ^ 16) && decide (r.unit < 2 ^ 8) && decide (r.prec < 16) && decide (r.object < 2 ^ 32) &&
  decide (r.waiter < 2 ^ 24) && decide (r.pkg < 128) && decide (r.pod < 64) && decide (r.repeats < 2 ^ 16) && decide (r.detail < 2 ^ 64)

def PeerOp.wf (o : PeerOp) : Bool := decide (o.span < 2 ^ 32) && decide (o.value < 2 ^ 16) && decide (o.timeout < 2 ^ 8) && decide (o.waiter < 2 ^ 24)

/-- A marker (Table 10-5) and its period. -/
def OptMarker.wf (m : OptMarker) : Bool :=
  decide (m.link < 64) && decide (m.lam < 10) && decide (m.word < 2 ^ 80) && m.line.all (fun v => decide (v < 1024)) &&
  decide (m.line.length ≤ 16376) && decide (m.margin < 64) && decide (m.power < 256) && decide (m.means.length ≤ 4)

/-- A RoCEv2 packet (Table 13-5): a path MTU of data. -/
def RocePkt.wf (p : RocePkt) : Bool :=
  decide (p.qpn < 2 ^ 24) && decide (p.psn < 2 ^ 24) && decide (p.rkey < 2 ^ 32) && decide (p.va < 2 ^ 64) && decide (p.len < 2 ^ 32) &&
  decide (p.data.length ≤ 4096) && p.rx.wf

/-- A fragment (Table 8-6). -/
def SrvFrag.wf (r : SrvFrag) : Bool := decide (r.tile < 2 ^ 8) && decide (r.reqId < 2 ^ 32) && decide (r.len < 2 ^ 32) && decide (r.off < 2 ^ 32)

/-- A beacon (Table 5-1). -/
def BeaconMsg.wf (b : BeaconMsg) : Bool := decide (b.epoch < 2 ^ 32) && decide (b.holder < 8) && decide (b.crc < 2 ^ 16)

/-- A copy record (R159). -/
def CopyMsg.wf (m : CopyMsg) : Bool := decide (m.seq < 2 ^ 16) && decide (m.epoch < 2 ^ 32) && decide (m.planEpoch < 2 ^ 32) && m.ctxs.all (fun c => decide (c.ctx < 64))

/-- Is a command well formed: does every operand lie in the range of its message, register or table? -/
def Instr.wf (i : Instr) : Bool :=
  match i with
  | .registerWrite addr width _ => decide (addr < 2 ^ 64) && decide (width < 129)
  | .mirrorWrite off _ => decide (off < 2 ^ 40)
  | .powerOnReset => true
  | .pkgRstNRelease fl => fl.wf
  | .bootStageEnd => true
  | .stageBound => true
  | .linkPhaseEnd => true
  | .advertisement tile _ id cols => decide (tile < 8) && decide (id < 8) && decide (cols < 5)
  | .report r => r.wf
  | .tileAbsent tile => decide (tile < 8)
  | .pkgRstNFall => true
  | .inputFallsBelow36V mv => decide (mv < 2 ^ 32)
  | .referenceClockLoss => true
  | .packageWarmReset fl => fl.wf
  | .tileReset unit => decide (unit < 2 ^ 8)
  | .computeDieReset unit => decide (unit < 2 ^ 8)
  | .opticalEngineReset unit => decide (unit < 2 ^ 8)
  | .coreReset unit core => decide (unit < 2 ^ 8) && decide (core < 64)
  | .dieClockLoss unit => decide (unit < 2 ^ 8)
  | .clockReturn unit => decide (unit < 2 ^ 8)
  | .selfTestEnd unit _ serial => decide (unit < 2 ^ 8) && decide (serial < 2 ^ 64)
  | .healthPoll _ => true
  | .allModulesDown tile => decide (tile < 8)
  | .voteDissent channel _ => decide (channel < 3)
  | .resynchronisationEnd _ => true
  | .eventRecordArrival _ => true
  | .logAppend => true
  | .eventNoteTimer => true
  | .suppressionWindowClose code unit => decide (code < 2 ^ 16) && decide (unit < 2 ^ 8)
  | .commandFetch c _ => c.wf
  | .nop e => e.wf
  | .endStream e => e.wf
  | .flagClear e => e.wf
  | .leaveRelease e => e.wf
  | .tickMark e => e.wf
  | .matmul e _ => e.wf
  | .add c _ => c.wf
  | .sub c _ => c.wf
  | .mul c _ => c.wf
  | .fma c _ => c.wf
  | .div c _ => c.wf
  | .max c _ => c.wf
  | .min c _ => c.wf
  | .exp c _ => c.wf
  | .log c _ => c.wf
  | .rsqrt c _ => c.wf
  | .sqrt c _ => c.wf
  | .tanh c _ => c.wf
  | .sigmoid c _ => c.wf
  | .sin c _ => c.wf
  | .cos c _ => c.wf
  | .recip c _ => c.wf
  | .rsum c _ => c.wf
  | .rmax c _ => c.wf
  | .rmin c _ => c.wf
  | .sort c _ => c.wf
  | .topk c _ => c.wf
  | .convert c _ => c.wf
  | .move e _ => e.wf
  | .signal c => c.wf
  | .wait c => c.wf
  | .waitTake c => c.wf
  | .barrierArrive c _ => c.wf
  | .commandComplete e => e.wf
  | .fenceDataComplete e => e.wf
  | .portTimeout e => e.wf
  | .leaveGrant die => decide (die < 8)
  | .rampStep c => c.wf
  | .idleRelease c _ => c.wf
  | .fallStep c => c.wf
  | .settle tile => decide (tile < 8)
  | .coreObjectSettle c => c.wf
  | .waiterTimeout tile waiter obj => decide (tile < 8) && decide (waiter < 2 ^ 24) && decide (obj < 2 ^ 32)
  | .waiterRetry tile => decide (tile < 8)
  | .synDbgSelWrite tile _ => decide (tile < 8)
  | .admitPlan h ctx imageVa saveVa root => h.wf && decide (ctx < 2 ^ 8) && decide (imageVa < 2 ^ 64) && decide (saveVa < 2 ^ 64) && decide (root < 2 ^ 64)
  | .admissionEvaluation _ _ => true
  | .cycleStart ctx => decide (ctx < 2 ^ 8)
  | .cycleDone ctx => decide (ctx < 2 ^ 8)
  | .stop h ctx forced => h.wf && decide (ctx < 2 ^ 8) && decide (forced < 2 ^ 8)
  | .saveComplete ctx _ => decide (ctx < 2 ^ 8)
  | .abort h ctx => h.wf && decide (ctx < 2 ^ 8)
  | .epochSet h epoch => h.wf && decide (epoch < 2 ^ 32)
  | .beaconSend tile => decide (tile < 8)
  | .beacon _ b => b.wf
  | .acknowledgement tile epoch expiry => decide (tile < 8) && decide (epoch < 2 ^ 32) && decide (expiry < 2 ^ 64)
  | .ackMissing tile => decide (tile < 8)
  | .ownExpiry tile => decide (tile < 8)
  | .beaconCheck tile b => decide (tile < 8) && decide (b < 2 ^ 64)
  | .leaseExpiry => true
  | .take tile => decide (tile < 8)
  | .grant => true
  | .arbitrate tile _ => decide (tile < 8)
  | .epochAnnouncement tile epoch => decide (tile < 8) && decide (epoch < 2 ^ 32)
  | .agentReport tile agent ctx start _ _ => decide (tile < 8) && decide (agent < 8) && decide (ctx < 2 ^ 8) && decide (start < 2 ^ 64)
  | .copyRecord tile m => decide (tile < 8) && m.wf
  | .standbyLost tile => decide (tile < 8)
  | .noLeaseTimeout fl => fl.wf
  | .planCtl f planId what => f.wf && decide (planId < 2 ^ 64) && decide (what < 2 ^ 8)
  | .mmuCacheCfgWrite tile _ => decide (tile < 8)
  | .tlbInvStart tile _ => decide (tile < 8)
  | .tlbInv h ctx all => h.wf && decide (ctx < 2 ^ 8) && decide (all < 2 ^ 8)
  | .tlbInvComplete => true
  | .tableWalk e _ => e.wf
  | .resume e => e.wf
  | .abandon e => e.wf
  | .dmaResume h die core eng action => h.wf && decide (die < 8) && decide (core < 64) && decide (eng < 2 ^ 8) && decide (action < 2 ^ 8)
  | .hbmTemperatureRead stack _ => decide (stack < 16)
  | .refresh stack => decide (stack < 16)
  | .scrub stack _ _ => decide (stack < 16)
  | .srvOpen h ctx tile blockVa => h.wf && decide (ctx < 2 ^ 8) && decide (tile < 8) && decide (blockVa < 2 ^ 64)
  | .srvClose h tile => h.wf && decide (tile < 8)
  | .srvReq h r => h.wf && r.wf
  | .fragmentTimeout tile reqId => decide (tile < 8) && decide (reqId < 2 ^ 32)
  | .srvAck h tile reqId index => h.wf && decide (tile < 8) && decide (reqId < 2 ^ 32) && decide (index < 2 ^ 32)
  | .srvResend h tile reqId index => h.wf && decide (tile < 8) && decide (reqId < 2 ^ 32) && decide (index < 2 ^ 32)
  | .srvCancel h tile reqId => h.wf && decide (tile < 8) && decide (reqId < 2 ^ 32)
  | .windowProcedure tile => decide (tile < 8)
  | .srvTokTimeout tile reqId => decide (tile < 8) && decide (reqId < 2 ^ 32)
  | .retentionEnd tile reqId => decide (tile < 8) && decide (reqId < 2 ^ 32)
  | .trainingRequest unit m => decide (unit < 2 ^ 8) && decide (m < 16)
  | .d2dCtlRetrain unit m => decide (unit < 2 ^ 8) && decide (m < 16)
  | .forwardedClockLoss unit m absent => decide (unit < 2 ^ 8) && decide (m < 16) && absent.all (fun c => decide (c < 32))
  | .trainingStageEnd unit m _ => decide (unit < 2 ^ 8) && decide (m < 16)
  | .alignmentMarker unit m _ => decide (unit < 2 ^ 8) && decide (m < 16)
  | .repair unit m x y epoch => decide (unit < 2 ^ 8) && decide (m < 16) && decide (x < 2 ^ 11) && decide (y < 2 ^ 11) && decide (epoch < 2 ^ 8)
  | .repairBoundary unit m => decide (unit < 2 ^ 8) && decide (m < 16)
  | .ack unit m epoch digest => decide (unit < 2 ^ 8) && decide (m < 16) && decide (epoch < 2 ^ 8) && decide (digest < 2 ^ 32)
  | .degrade unit m epoch => decide (unit < 2 ^ 8) && decide (m < 16) && decide (epoch < 2 ^ 8)
  | .bandSetStep unit m => decide (unit < 2 ^ 8) && decide (m < 16)
  | .toeCtlEnable link _ => decide (link < 64)
  | .litEntry link => decide (link < 64)
  | .litCheckArmed link => decide (link < 64)
  | .litCheck link => decide (link < 64)
  | .holdEnd link => decide (link < 64)
  | .lockTimeout link lam _ => decide (link < 64) && decide (lam < 10)
  | .opticalMarker m => m.wf
  | .testEnd link => decide (link < 64)
  | .modeStep link => decide (link < 64)
  | .agreement link => decide (link < 64)
  | .waitEnd link => decide (link < 64)
  | .toeCtlRestart link => decide (link < 64)
  | .integrationWindow link lam _ _ _ => decide (link < 64) && decide (lam < 10)
  | .identityCheck link lam _ amps _ => decide (link < 64) && decide (lam < 10) && decide (amps.length = 10)
  | .temperatureUpdate link _ => decide (link < 64)
  | .calibrationRunEnd link lam _ _ => decide (link < 64) && decide (lam < 10)
  | .calibrationRetry link lam _ => decide (link < 64) && decide (lam < 10)
  | .calReport f lam item pass _ => f.wf && decide (lam < 10) && decide (item < 2 ^ 4) && decide (pass < 4)
  | .hourlyMean link lam => decide (link < 64) && decide (lam < 10)
  | .fecWindow link lam => decide (link < 64) && decide (lam < 10)
  | .spareAsk f reason lam => f.wf && decide (reason < 2 ^ 8) && decide (lam < 10)
  | .spareCmd f action x y epoch m => f.wf && decide (action < 2 ^ 8) && decide (x < 16) && decide (y < 16) && decide (epoch < 2 ^ 8) && decide (m < 2 ^ 16)
  | .spareAbort f m => f.wf && decide (m < 2 ^ 16)
  | .spareDone f epoch role => f.wf && decide (epoch < 2 ^ 8) && decide (role < 2 ^ 40)
  | .spareDoneTimeout link => decide (link < 64)
  | .replacementBoundary link _ => decide (link < 64)
  | .emergencyReplacement link lam => decide (link < 64) && decide (lam < 10)
  | .idle f => f.wf
  | .train f t => f.wf && t.wf
  | .ping f stamp => f.wf && decide (stamp < 2 ^ 64)
  | .pong f stamp => f.wf && decide (stamp < 2 ^ 64)
  | .write f d => f.wf && d.wf
  | .writeFirst f d x => f.wf && d.wf && x.wf
  | .delivered f pod pkg tag => f.wf && decide (pod < 64) && decide (pkg < 128) && decide (tag < 2 ^ 32)
  | .refuse f pod pkg tag cause => f.wf && decide (pod < 64) && decide (pkg < 128) && decide (tag < 2 ^ 32) && decide (cause < 2 ^ 8)
  | .syncOp f o => f.wf && o.wf
  | .syncResult f waiter span outcome tick => f.wf && decide (waiter < 2 ^ 24) && decide (span < 2 ^ 32) && decide (outcome < 2 ^ 8) && decide (tick < 2 ^ 64)
  | .barrierRel f span gen mask => f.wf && decide (span < 2 ^ 32) && decide (gen < 2 ^ 16) && decide (mask < 2 ^ 64)
  | .char f value => f.wf && decide (value < 2 ^ 64)
  | .charPeriod link => decide (link < 64)
  | .linkDown f cause => f.wf && decide (cause < 2 ^ 8)
  | .event f r => f.wf && r.wf
  | .replayTimeout link => decide (link < 64)
  | .ackDueTimeout link => decide (link < 64)
  | .lnkCtlDown link => decide (link < 64)
  | .lnkCtlTrain link => decide (link < 64)
  | .claimHello h nonce _ => h.wf && decide (nonce < 2 ^ 128)
  | .claim h np pub notifyIp notifyPort rsv _ => h.wf && decide (np < 2 ^ 128) && decide (pub < 2 ^ 256) && decide (notifyIp < 2 ^ 128) && decide (notifyPort < 2 ^ 16) && decide (rsv < 2 ^ 16)
  | .release h => h.wf
  | .query h sel nonce _ => h.wf && decide (sel < 2 ^ 8) && decide (nonce < 2 ^ 256)
  | .regRead h addr count _ => h.wf && decide (addr < 2 ^ 64) && decide (count < 2 ^ 8)
  | .regWrite h addr _ => h.wf && decide (addr < 2 ^ 64)
  | .eventFilter h mask => h.wf && decide (mask < 2 ^ 16)
  | .watch h ctx code thr span => h.wf && decide (ctx < 2 ^ 8) && decide (code < 2 ^ 16) && decide (thr < 2 ^ 16) && decide (span < 2 ^ 32)
  | .ecpSignal h ctx span value => h.wf && decide (ctx < 2 ^ 8) && decide (span < 2 ^ 32) && decide (value < 2 ^ 16)
  | .mrReg h kind ctx region access pa length => h.wf && decide (kind < 2 ^ 8) && decide (ctx < 2 ^ 8) && decide (region < 2 ^ 8) && decide (access < 2 ^ 8) && decide (pa < 2 ^ 64) && decide (length < 2 ^ 64)
  | .mrDereg h rkey => h.wf && decide (rkey < 2 ^ 32)
  | .qpOpen h ctx port peerQpn peerIp psn rkey span => h.wf && decide (ctx < 2 ^ 8) && decide (port < 2) && decide (peerQpn < 2 ^ 32) && decide (peerIp < 2 ^ 128) && decide (psn < 2 ^ 32) && decide (rkey < 2 ^ 32) && decide (span < 2 ^ 32)
  | .qpClose h qpn => h.wf && decide (qpn < 2 ^ 32)
  | .rdmaWrite port p => decide (port < 2) && p.wf
  | .rdmaRead port p _ => decide (port < 2) && p.wf
  | .send port p => decide (port < 2) && p.wf
  | .congestionNotification port qpn => decide (port < 2) && decide (qpn < 2 ^ 32)
  | .rateIncrease qpn => decide (qpn < 2 ^ 32)
  | .pfcFrame port prio _ => decide (port < 2) && decide (prio < 8)
  | .pauseFrame port => decide (port < 2)
  | .arpRequest port ip => decide (port < 2) && decide (ip < 2 ^ 128)
  | .neighbourSolicitation port ip => decide (port < 2) && decide (ip < 2 ^ 128)
  | .echoRequest port ip _ => decide (port < 2) && decide (ip < 2 ^ 128)
  | .ethernetLinkDown port => decide (port < 2)
  | .ethernetLinkUp port => decide (port < 2)
  | .inputLow mv => decide (mv < 2 ^ 32)
  | .supplyFault code mv => decide (code < 2 ^ 16) && decide (mv < 2 ^ 32)
  | .tileRailFault tile => decide (tile < 8)
  | .powerSample _ mv => decide (mv < 2 ^ 32)
  | .packageLimitGuard => true
  | .controlTick => true
  | .pwrModeWrite _ => true
  | .railSettled die => decide (die < 8)
  | .settleWindowEnd die => decide (die < 8)
  | .droopTrip c => c.wf
  | .stretchEnd c _ => c.wf
  | .stepHoldEnd die => decide (die < 8)
  | .sensorRead tile _ => decide (tile < 8)
  | .sensorFaulty tile index => decide (tile < 8) && decide (index < 74)
  | .rateComputation tile => decide (tile < 8)
  | .laserZoneDarken engine => decide (engine < 8)
  | .thermalTrip tile index => decide (tile < 8) && decide (index < 74)
  | .reconciliation _ => true
  | .meteringStart => true
  | .islandHoldUp importMj exportMj => decide (importMj < 2 ^ 64) && decide (exportMj < 2 ^ 64)
  | .metPulse => true
  | .intervalEnd => true
  | .selfCheck _ _ _ _ _ mv _ => decide (mv < 2 ^ 32)
  | .statusFrame _ => true
  | .recordFrame no _ => decide (no < 2 ^ 32)
  | .mirrorStale => true
  | .status _ arg => decide (arg < 2 ^ 32)
  | .record _ no => decide (no < 2 ^ 32)
  | .pubkey _ arg => decide (arg < 2 ^ 32)
  | .calCheck _ _ load _ => decide (load < 2 ^ 8)
  | .pulseTest _ _ count => decide (count < 2 ^ 32)
  | .seal _ _ arg => decide (arg < 2 ^ 32)
  | .lowerTreeBuild => true
  | .i3cWrite addr _ => decide (addr < 2 ^ 64)
  | .readRequest addr _ => decide (addr < 2 ^ 64)
  | .statusRead => true
  | .setdasa static dyn => decide (static < 128) && decide (dyn < 128)
  | .entdaa dyn => decide (dyn < 128)
  | .getstatus => true
  | .extest => true
  | .samplePreload _ => true
  | .idcode => true
  | .mgmt cmd addr _ _ => decide (cmd < 2 ^ 8) && decide (addr < 2 ^ 64)
  | .bypass => true
  | .trstN => true
  | .forwardedClockReturn unit m => decide (unit < 2 ^ 8) && decide (m < 16)
  | .tickLineLoss tile => decide (tile < 8)
  | .crcFailedFlit link => decide (link < 64)
  | .copyRecordAcknowledgement tile seq => decide (tile < 8) && decide (seq < 2 ^ 16)
  | .otherDatagram port kind rx => decide (port < 2) && decide (kind < 3) && rx.wf

end Sys2Proof
end

