-- ==== Sys2Proof/Safety.lean ====
section
/-!
DEFINITION. What a safe run is, in the terms that statements use: every command that waits is well formed, and no step stops.
-/

namespace Sys2Proof.Machine

/-- Every command that waits is well formed, those put off in their tick among them. -/
def State.queueWf (s : State) : Prop := (∀ i ∈ s.pending, i.wf = true) ∧ ∀ i ∈ s.later, i.wf = true

/-- A step that goes on. -/
def Goes (s t : State) : Prop := step s = .next t

/-- A run of `n` steps from `s` that does not stop, and its end. -/
def Runs : Nat → State → State → Prop
  | 0, s, t => s = t
  | n + 1, s, t => ∃ u, Goes s u ∧ Runs n u t

/-- A run is safe for a predicate when each of its states has it. -/
def SafeFor (p : State → Prop) (s : State) : Prop := ∀ n t, Runs n s t → p t

/-- The rows that wait for those of their tick that come before them (R445, and the tables of coinciding happenings). -/
def takesTurn : Instr → Bool
  | .inputFallsBelow36V _ | .stageBound | .forwardedClockLoss .. | .beacon .. | .beaconCheck .. | .leaseExpiry | .take _ | .grant
  | .arbitrate .. | .epochAnnouncement .. | .copyRecord .. | .replayTimeout _ | .lnkCtlDown _ | .intervalEnd | .reconciliation _
  | .litCheck _ | .trstN | .admissionEvaluation .. | .cycleDone _ | .leaveGrant _ | .supplyFault .. | .tileRailFault _ | .controlTick
  | .packageWarmReset _ | .noLeaseTimeout _ | .tileReset _ | .computeDieReset _ | .opticalEngineReset _ | .dieClockLoss _
  | .coreReset .. | .healthPoll _ | .allModulesDown _ | .tickLineLoss _ | .referenceClockLoss | .voteDissent .. | .resynchronisationEnd _
  | .rdmaWrite .. | .rdmaRead .. | .send .. | .settle _ | .coreObjectSettle _ | .waiterTimeout .. | .portTimeout _ | .hourlyMean .. | .fecWindow ..
  | .emergencyReplacement .. => true
  | _ => false

/-- The head of engine `k`'s queue is `w`, of this class and op, on a die that is present and with a stream that no fetch has halted, and it may execute: checked and past its
pre-wait, a control op held back at the head, or standing unchecked with no pre-wait and a valid header. -/
def State.mayRun (s : State) (k : Nat) (w : CmdWord) (cls op : Nat) : Bool :=
  s.dieUp (keyDie k) && (!(s.eng k).cut || (s.eng k).phase == .executing) && (s.eng k).queue.head? == some w &&
  headerOk (keyEng k) w && cmdClass w == cls && cmdOp w == op &&
  ((s.eng k).phase == .ready || (s.eng k).phase == .leave || ((s.eng k).phase == .executing && cls == 0) ||
    ((s.eng k).phase == .idle && !cmdPreEn w))

/-- The header, type and body bytes of the ECP request that a row carries (Table 13-4); CLAIM_HELLO and CLAIM, which bear no tag,
are not among them. -/
def ecpOf : Instr → Option (EcpHdr × Nat × List Byte)
  | .release h => some (h, 0x05, [])
  | .query h sel nonce _ => some (h, 0x10, (le 1 sel ++ rsvBytes h 0 7 ++ le 32 nonce).take (h.length - 64))
  | .regRead h addr count _ => some (h, 0x12, le 8 addr ++ le 1 count)
  | .regWrite h addr v => some (h, 0x13, le 8 addr ++ le 8 v.toNat)
  | .eventFilter h mask => some (h, 0x18, le 2 mask)
  | .admitPlan h ctx iv sv root => some (h, 0x20, le 1 ctx ++ rsvBytes h 0 7 ++ le 8 iv ++ le 8 sv ++ le 8 root)
  | .stop h ctx forced => some (h, 0x22, le 1 ctx ++ le 1 forced)
  | .abort h ctx => some (h, 0x23, le 1 ctx)
  | .epochSet h epoch => some (h, 0x25, le 4 epoch)
  | .tlbInv h ctx all => some (h, 0x26, le 1 ctx ++ le 1 all)
  | .dmaResume h die core eng action => some (h, 0x27, le 1 die ++ le 1 core ++ le 1 eng ++ le 1 action)
  | .watch h ctx code thr span => some (h, 0x30, le 1 ctx ++ le 1 code ++ le 2 thr ++ le 4 span)
  | .ecpSignal h ctx span value => some (h, 0x33, le 1 ctx ++ rsvBytes h 0 3 ++ le 4 span ++ le 2 value)
  | .srvOpen h ctx tile va => some (h, 0x40, le 1 ctx ++ le 1 tile ++ rsvBytes h 0 6 ++ le 8 va)
  | .srvClose h tile => some (h, 0x42, le 1 tile)
  | .srvReq h r => some (h, 0x43, fragBytes h r)
  | .srvAck h tile r i => some (h, 0x46, le 1 tile ++ rsvBytes h 0 3 ++ le 4 r ++ le 4 i)
  | .srvResend h tile r i => some (h, 0x47, le 1 tile ++ rsvBytes h 0 3 ++ le 4 r ++ le 4 i)
  | .srvCancel h tile r => some (h, 0x48, le 1 tile ++ rsvBytes h 0 3 ++ le 4 r)
  | .mrReg h kind ctx region access pa length =>
    some (h, 0x50, le 1 kind ++ le 1 ctx ++ le 1 region ++ le 1 access ++ rsvBytes h 0 4 ++ le 8 pa ++ le 8 length)
  | .mrDereg h rkey => some (h, 0x52, le 4 rkey)
  | .qpOpen h ctx port qpn ip psn rkey span => 
    some (h, 0x53, le 1 ctx ++ le 1 port ++ rsvBytes h 0 2 ++ le 4 qpn ++ le 16 ip ++ le 4 psn ++ le 4 rkey ++ le 4 span)
  | .qpClose h qpn => some (h, 0x55, le 4 qpn)
  | _ => none

/-- The state as a request's run finds it: its sequence number taken, its port noted for notifications (R368, R370). -/
def State.ecpTaken (s : State) (h : EcpHdr) : State :=
  let s := s.countFec h.port h.rx
  { s with claim := { s.claim.seqTake h.seq with notifyHpt := h.port } }

/-- The request of a row passes every check and is new, so that it runs (R367 to R369). -/
def State.ecpRuns (s : State) (i : Instr) : Bool :=
  match ecpOf i with
  | some (h, type, body) =>
    s.unitUp (uPort h.port) && lengthOk h && h.magic == 0x5045 && h.version == 1 &&
    (s.countFec h.port h.rx).authentic h type body && s.claim.seqFresh h.seq && !h.short && h.flags == 0 && h.rsv == 0 &&
    !(s.ecpTaken h).executing h.reqId && !(s.ecpTaken h).claim.cache.any (fun e => e.out.reqId == h.reqId && e.rtype == type)
  | none => false

/-- The header, type, reserved bits and destination of the flit that a row carries (R344, Table 12-3). -/
def flitOf : Instr → Option (FlitHdr × Nat × Nat × (Nat × Nat))
  | .idle f => some (f, 0, 0, (0, 0))
  | .train f _ => some (f, 1, 0, (0, 0))
  | .ping f _ => some (f, 2, 0, (0, 0))
  | .pong f _ => some (f, 3, 0, (0, 0))
  | .write f d => some (f, 0x10, d.rsv, (d.dstPod, d.dstPkg))
  | .writeFirst f d _ => some (f, 0x11, d.rsv, (d.dstPod, d.dstPkg))
  | .delivered f pod pkg _ => some (f, 0x18, 0, (pod, pkg))
  | .refuse f pod pkg _ _ => some (f, 0x19, 0, (pod, pkg))
  | .syncOp f _ => some (f, 0x20, 0, (0, 0))
  | .syncResult f _ _ _ _ => some (f, 0x21, 0, (0, 0))
  | .barrierRel f _ _ _ => some (f, 0x22, 0, (0, 0))
  | .char f _ => some (f, 0x30, 0, (0, 0))
  | .linkDown f _ => some (f, 0x31, 0, (0, 0))
  | .spareAsk f _ _ => some (f, 0x32, 0, (0, 0))
  | .spareCmd f _ _ _ _ _ => some (f, 0x32, 0, (0, 0))
  | .spareAbort f _ => some (f, 0x32, 0, (0, 0))
  | .spareDone f _ _ => some (f, 0x32, 0, (0, 0))
  | .calReport f _ _ _ _ => some (f, 0x32, 0, (0, 0))
  | .planCtl f _ _ => some (f, 0x33, 0, (0, 0))
  | .event f _ => some (f, 0x34, 0, (0, 0))
  | _ => none

/-- The state as a sequenced flit's message finds it: its header applied, its number accepted and counted (R341). -/
def State.flitTaken (s : State) (f : FlitHdr) : State :=
  let s := s.applyHeader f
  let k := s.link f.link
  let n := k.accSince + 1
  let s := (s.setLink f.link { k with
    expect := (k.expect + 1) % 2 ^ 16, accSince := n, ackDue := k.ackDue || decide (n ≥ 32)
    rfreed := listSet k.rfreed f.vc (listAt k.rfreed f.vc + 1) }).startAck f.link
  s.rs (uTile (linkTile f.link)) LNK_FLITS.accepted (s.lg f.link LNK_FLITS.accepted + 1) (dLink f.link)

/-- The sequenced flit of a row runs: its link is ACTIVE or QUARANTINED, it passes every check, and its number is the next (R341,
R344). -/
def State.flitRuns (s : State) (i : Instr) : Bool :=
  match flitOf i with
  | some (f, type, rsv, dst) =>
    s.tileUp (linkTile f.link) && (s.lg f.link LNK_STATUS.state == 2 || s.lg f.link LNK_STATUS.state == 3) &&
    (s.flitCheck f type rsv dst).isNone && decide (3 < type) && seqDiff f.seq ((s.applyHeader f).link f.link).expect == 0
  | none => false

end Sys2Proof.Machine
end

