-- ==== Sys2Proof/Certificates/Slice0/Obligations.lean ====
section
/-!
DEFINITION. The statements about the block, each with the rules it states. `exec` and `step` are those of `Machine/Dispatch.lean` and
`Machine/Step.lean`.
-/

open Sys2Proof Sys2Proof.Machine

/-- A step takes the command at the front of the queue. For every command c, every rest of the queue and every state s: a step of s
with c at the front of its queue is exec of c on s with the rest as its queue. The queue is the model's own way of taking commands
one at a time. (spec/95_what_each_step_holds.md, spec/00_scope.md) -/
def Obligations.StepRunsTheFrontCommand : Prop :=
  ∀ (c : Instr) (rest : List Instr) (s : State), step { s with pending := c :: rest } = exec c { s with pending := rest }

/-- With no command waiting, the commands put off take their turns, and then a tick passes. A command of a row that takes its turn in
its tick (an event of Table 17-3, a settle, a timeout and the other rows that a table of coinciding happenings orders), met while a
command of an earlier turn still waits, is put among those put off, and nothing else changes; so is an ECP register access while an
I3C access of its tick waits (R471). With an empty queue a step runs the first command put off on the state without it. With none
put off either, a step answers a next state whose tick counter is one higher, with nothing waiting. That all commands waiting
belong to one tick, and that an empty queue lets it pass, is the model's choice (logs 1 and 7). (spec/00_scope.md,
spec/17_events_resets_faults.md, spec/18_electrical_mechanical.md) -/
def Obligations.EmptyQueueIsATick : Prop :=
  (∀ (i : Instr) (s : State), takesTurn i = true → s.yields i = true → exec i s = .next { s with later := insertLater i s.later }) ∧
  (∀ (h : EcpHdr) (addr count : Nat) (ecc : EccHits) (s : State), s.accessYields h.seq = true →
    exec (.regRead h addr count ecc) s = .next { s with later := insertLater (.regRead h addr count ecc) s.later }) ∧
  (∀ (h : EcpHdr) (addr : Nat) (v : Word) (s : State), s.accessYields h.seq = true →
    exec (.regWrite h addr v) s = .next { s with later := insertLater (.regWrite h addr v) s.later }) ∧
  (∀ (c : Instr) (rest : List Instr) (s : State), s.pending = [] → s.later = c :: rest → step s = exec c { s with later := rest }) ∧
  (∀ s : State, s.pending = [] → s.later = [] → ∃ t, step s = .next t ∧ t.tick = s.tick + 1 ∧ t.pending = [] ∧ t.later = [])

/-- What the machine holds right after power-on reset. In State.reset no command waits or is put off, every register field reads its
reset value, memory is in canonical form with nothing listed, every core is in leave state IDLE without a context, no engine holds a
command, every hub is empty, nothing is on the base network, the part is unclaimed, the log is empty, the outputs of the pins
pkg_ready and pkg_fault_n are not asserted, and the tick counter is 0 (the counter's start and memory's contents are the model's
choices, logs 2, 3 and 5). (spec/00_scope.md, spec/03_cores_and_engines.md, spec/16_boot_configuration_security.md,
spec/17_events_resets_faults.md) -/
def Obligations.ResetIsTheColdPart : Prop :=
  State.reset.pending = [] ∧ State.reset.later = [] ∧ (∀ u f d, State.reset.rg u f d = f.rst) ∧ State.reset.mem.wf = true ∧
    State.reset.mem = {} ∧ (∀ k, (State.reset.core k).leave = .idle ∧ (State.reset.core k).ctx = none) ∧
    (∀ k, (State.reset.eng k).queue = []) ∧ (∀ t, State.reset.hub t = {}) ∧ State.reset.net = [] ∧
    State.reset.claim.claimed = false ∧ State.reset.ev.log = [] ∧ State.reset.boot.ready = false ∧ State.reset.boot.fault = false ∧
    State.reset.tick = 0

/-- No command of the block stops the machine. For every command, with every value of its operands, and every state, exec answers a
next state: a command that does not apply is turned away by a register, a reply, an event or no effect, as its rule says, and
never by a fault or a refusal. (spec/95_what_each_step_holds.md, spec/00_scope.md) -/
def Obligations.EveryCommandAnswersANextState : Prop :=
  ∀ (c : Instr) (s : State), ∃ t, exec c s = .next t

/-- No command changes the queue of the commands that wait. For every command, with every value of its operands, and every state, exec
answers a state whose queue is that of the state it ran on: what a command sends is recorded as sent and is no command of the
queue, and one that must wait for its turn in the tick is put off beside the queue. The queue is the model's own.
(spec/95_what_each_step_holds.md) -/
def Obligations.CommandsLeaveTheQueue : Prop :=
  ∀ (c : Instr) (s t : State), exec c s = .next t → t.pending = s.pending

/-- Every step keeps the canonical form of memory. If the memory of a state is in canonical form (addresses strictly rising, no entry
equal to what an unlisted address reads as) and a step answers a next state, then the memory of that state is in canonical form.
The form is the model's own. (spec/07_memory_translation_dma.md, spec/03_cores_and_engines.md) -/
def Obligations.MemoryKeepsItsForm : Prop :=
  ∀ s t : State, s.mem.wf = true → step s = .next t → t.mem.wf = true

/-- Only the security version and the revoke bits of the fuses change, and they only grow. Over every step that answers a next state,
the fused security version does not fall, no revoke bit is cleared, and everything else that the fuses hold is unchanged.
(spec/16_boot_configuration_security.md) -/
def Obligations.FusesOnlyGain : Prop :=
  ∀ s t : State, step s = .next t → s.fuses.secFused ≤ t.fuses.secFused ∧ s.fuses.revoked &&& t.fuses.revoked = s.fuses.revoked ∧
    { t.fuses with secFused := s.fuses.secFused, revoked := s.fuses.revoked } = s.fuses

/-- The metering island's totals, record number and used leaves never fall, and its seal stays. Over every step that answers a next
state, the island's import and export totals, its record number, its count of used leaves, of refused commands and of power-ups
are not lower than before, and a sealed island stays sealed. (spec/15_energy_metrology.md) -/
def Obligations.MeteringOnlyRises : Prop :=
  ∀ s t : State, step s = .next t → s.met.total ≤ t.met.total ∧ s.met.exported ≤ t.met.exported ∧ s.met.recordNo ≤ t.met.recordNo ∧
    s.met.leaves ≤ t.met.leaves ∧ s.met.refusals ≤ t.met.refusals ∧ s.met.powerUps ≤ t.met.powerUps ∧
    (s.met.sealed = true → t.met.sealed = true)

/-- Only CLAIM, RELEASE and a cold reset change whether the part is claimed and its pairing key. For every command other than CLAIM,
RELEASE, POWER_ON_RESET, PKG_RST_N_RELEASE, PKG_RST_N_FALL and INPUT_FALLS_BELOW_36V, whether the part is CLAIMED and its pairing
key are after the command what they were before it. (spec/13_host_ports.md, spec/17_events_resets_faults.md) -/
def Obligations.ClaimChangesOnlyByItsCommands : Prop :=
  ∀ (c : Instr) (s t : State), exec c s = .next t →
    (match c with
     | .claim .. | .release .. | .powerOnReset | .pkgRstNRelease .. | .pkgRstNFall | .inputFallsBelow36V .. => True
     | _ => t.claim.claimed = s.claim.claimed ∧ t.claim.key = s.claim.key)

/-- Power-on, the reset pin, and what a cold reset keeps. POWER_ON_RESET in a part whose internal reset is asserted leaves the cold
state with the reset released and pkg_rst_n low. PKG_RST_N_RELEASE in a part that is out of its internal reset with pkg_rst_n low
leaves the cold state with the pin high, the flash as the board has it and cfg_busy high. PKG_RST_N_FALL with the pin high leaves
the cold state. INPUT_FALLS_BELOW_36V, with nothing of its tick before it and the part out of its internal reset, leaves with
pkg_rst_n low the cold state with the internal reset asserted; with it high, and the part not shut down, the supply shutdown with
cause 0x2001 and the flush of its events come first. With pkg_rst_n high, PKG_RST_N_FALL answers a next state in which: the fuses,
the metering island, the event log, its pointers, next_leaf, the shutdown records and the management pins are kept; every other
register field reads its reset value; the claim is gone; no core, engine, hub, context, link, module, optical link, wavelength,
memory registration or queue pair holds anything; every byte of memory below 2^52 is undefined (a free byte); pkg_rst_n is low, and
pkg_ready and pkg_fault_n are not asserted. (spec/16_boot_configuration_security.md, spec/18_electrical_mechanical.md,
spec/17_events_resets_faults.md) -/
def Obligations.SupplyAndColdReset : Prop :=
  ((∀ s : State, s.boot.awake = false →
    exec .powerOnReset s = .next { s.coldClear with boot := { s.coldClear.boot with awake := true }, mgmt := {} }) ∧
  (∀ (s : State) (fl : Flash), s.boot.awake = true → s.boot.high = false →
    exec (.pkgRstNRelease fl) s = .next { s.coldClear with boot := { s.coldClear.boot with high := true, flash := fl, busy := true } }) ∧
  (∀ s : State, s.boot.high = true → exec .pkgRstNFall s = .next s.coldClear) ∧
  (∀ (s : State) (mv : Nat), s.yields (.inputFallsBelow36V mv) = false → s.boot.awake = true → s.boot.high = false →
    exec (.inputFallsBelow36V mv) s = .next { s.coldClear with boot := { s.coldClear.boot with awake := false }, mgmt := {} }) ∧
  (∀ (s : State) (mv : Nat), s.yields (.inputFallsBelow36V mv) = false → s.boot.awake = true → s.boot.high = true →
    s.pwr.down = .up → ∃ t u,
    t = ((({ s with pwr := { s.pwr with mv := mv } }).raise 0x2001 0 0 0 0 false).shutdown .supply 0x2001 0 0xFF).flushEvents ∧
    u = t.coldClear ∧ t.pwr.down = .supply ∧ t.shutNo = s.shutNo + 1 ∧
    exec (.inputFallsBelow36V mv) s = .next { u with boot := { u.boot with awake := false }, mgmt := {} })) ∧
  (∀ s : State, s.boot.high = true → ∃ t, exec .pkgRstNFall s = .next t ∧
    t.fuses = s.fuses ∧ t.met = s.met ∧ t.mgmt = s.mgmt ∧ t.ev.log = s.ev.log ∧ t.shuts = s.shuts ∧
    (∀ u f d, t.rg u f d = if coldKept (regKey u f d) = true then s.rg u f d else f.rst) ∧
    t.claim = {} ∧ t.cores = [] ∧ t.engs = [] ∧ t.hubs = [] ∧ t.ctxs = [] ∧ t.links = [] ∧ t.d2d = [] ∧ t.opts = [] ∧ t.waves = [] ∧
    t.mrs = [] ∧ t.qps = [] ∧ (∀ a, a < 2 ^ 52 → t.mem.read a = Config.freeByte s.freeCtr a) ∧
    t.boot.high = false ∧ t.boot.awake = s.boot.awake ∧ t.boot.ready = false ∧ t.boot.fault = false)

/-- The boot stages, their bounds, and where a part stops when one passes. In a part that runs, BOOT_STAGE_END before the bound of the
stage moves ROM to the flash stage if the fuses' digest matches and else holds the part with 0xA050; the flash stage to VERIFY if
the flash answers and else holds it with 0xA001; VERIFY ends by its checks; POWER powers the tiles and enters D2D; D2D, once every
position was heard or where no discovery runs, ends by the checks that follow discovery, and before that does not end; the stages
after it enter the next, the last of them with the links that the light list enables enabled. LINK_PHASE_END in stage LINKS, once
the links have settled, grants the lease, blows the revoke bits, records its time in CFG_BOOT.ready_ms, raises pkg_ready and the
in-band interrupt. STAGE_BOUND, with nothing of its tick before it, in a stage up to LINKS with the tick at or past the stage's
bound, answers the hold with 0xA040, a next state in which CFG_BOOT.stage is HELD (9), CFG_BOOT.code is 0xA040, the keeper holds
one new event 0xA040 of unit 0 with precedence 11, cfg_busy is low, no tile position is present and no core, engine or link holds
anything. (spec/16_boot_configuration_security.md, spec/01_package_and_hierarchy.md) -/
def Obligations.BootStagesPass : Prop :=
  ((∀ s : State, s.booting 0 = true → s.fuses.intact = true → exec .bootStageEnd s = .next (s.enter 1)) ∧
  (∀ s : State, s.booting 0 = true → s.fuses.intact = false → exec .bootStageEnd s = .next (s.hold 0xA050)) ∧
  (∀ s : State, s.booting 1 = true → s.boot.flash.sfdp = true → exec .bootStageEnd s = .next (s.enter 2)) ∧
  (∀ s : State, s.booting 1 = true → s.boot.flash.sfdp = false → exec .bootStageEnd s = .next (s.hold 0xA001)) ∧
  (∀ s : State, s.booting 2 = true → exec .bootStageEnd s = .next s.verifyEnd) ∧
  (∀ s : State, s.booting 3 = true → exec .bootStageEnd s = .next (s.powerTiles.enter 4)) ∧
  (∀ s : State, s.booting 4 = true → s.boot.stuck = false → (s.allHeard = true ∨ s.rediscovers = false) →
    exec .bootStageEnd s = .next (match s.afterDiscovery with
      | some code => s.hold code
      | none => { s with boot := { s.boot with lostAny := false } }.enter 5)) ∧
  (∀ s : State, s.booting 4 = true → (s.boot.stuck = true ∨ (s.allHeard = false ∧ s.rediscovers = true)) →
    exec .bootStageEnd s = .next s) ∧
  (∀ s : State, s.booting 5 = true → exec .bootStageEnd s = .next (s.enter 6)) ∧
  (∀ s : State, s.booting 6 = true → exec .bootStageEnd s = .next ((s.each (List.range s.nLinks) (fun s l =>
    if s.toeUp (linkTile l) = true ∧ s.og l TOE_CTL.enable = 1 then toeCtlEnableEff l true s else s)).enter 7)) ∧
  (∀ s : State, s.booting 7 = true → s.linksSettled = true → ∃ x t, exec .linkPhaseEnd s = .next t ∧
    x = (s.enter 8).firstGrant.advanceFuses ∧ t = ({ x.rs 0 CFG_BOOT.ready_ms ((x.tick - x.boot.start) / 100000) with
      boot := { x.boot with ready := true } }).interrupt ∧ t.boot.ready = true)) ∧
  (∀ s : State, s.yields .stageBound = false → s.running = true → s.stage ≤ 7 →
    s.tick ≥ s.boot.start + stageMs s.stage * 100000 → ∃ t, exec .stageBound s = .next t ∧ t = s.hold 0xA040 ∧
    t.stage = 9 ∧ t.rg 0 CFG_BOOT.code = 0xA040 ∧ t.ev.held = s.ev.held ++ [{ tick := s.tick, code := 0xA040, unit := 0, prec := 11 }] ∧
    t.boot.busy = false ∧ (∀ x, t.tileUp x = false) ∧ t.cores = [] ∧ t.engs = [] ∧ t.links = [])

/-- Discovery: advertisements give IDs, reports are checked, an absent tile is found by time. While a position is being discovered: an
advertisement that it receives without an ID gives it the ID that the port implies, and it advertises it on every edge that has
trained; one that agrees with its ID changes nothing; one that differs fails discovery with 0x5010. A report of a position that may
report, under the ID i that it holds and with the edge set that it has: with edges that do not match, or an ID other than C over
K1's tile, it fails discovery with 0x5010; with matching edges and a variant or serials other than the fused ones it fails it with
0xA010; and else, in stage D2D, the die and engine of the position take the ID i, the tile is present, its edge set is recorded,
the position was heard, and once every position was, the tiles are released; after READY the tile has returned. A position that
is overdue (not heard 10,000 tk after the first assignment) is recorded as absent, with CFG_BOOT.degraded, where the light list
allows a degraded package, and else fails discovery with 0x5011. (spec/01_package_and_hierarchy.md) -/
def Obligations.DiscoveryReports : Prop :=
  (∀ (s : State) (tile : Nat) (port : Port) (id cols : Nat), s.discovering tile = true → s.idOf tile = none →
    exec (.advertisement tile port id cols) s = .next ({ s with boot := { s.boot with
      ids := mput s.boot.ids tile (idFrom port id cols).toNat } }.each (bitsSet 4 (s.edgeSet tile)) (fun t p =>
        t.advertise tile (idFrom port id cols).toNat p))) ∧
  (∀ (s : State) (tile j : Nat) (port : Port) (id cols : Nat), s.discovering tile = true → s.idOf tile = some j →
    exec (.advertisement tile port id cols) s = .next (if idFrom port id cols = j then s
      else s.failDiscovery tile 0x5010 (s.edgeSet tile + 16 * ((idFrom port id cols).emod 256).toNat))) ∧
  (∀ (s u : State) (r : TileReport) (i : Nat), s.idOf r.tile = some i → s.mayReport r.tile = true → u = s.passId r.tile i →
    (((r.tile = s.cols ∧ i ≠ s.cols) ∨ u.edgesOk i (s.edgeSet r.tile) = false) →
      exec (.report r) s = .next (u.failDiscovery r.tile 0x5010 (s.edgeSet r.tile + 16 * i))) ∧
    (¬ (r.tile = s.cols ∧ i ≠ s.cols) → u.edgesOk i (s.edgeSet r.tile) = true →
      ((r.variant ≠ s.fuses.tiles ∨ r.serials ≠ s.serialsOf i) →
        exec (.report r) s = .next (u.failDiscovery r.tile 0xA010 0)) ∧
      (r.variant = s.fuses.tiles → r.serials = s.serialsOf i → ∃ v,
        v = { u with boot := { u.boot with edges := mput u.boot.edges r.tile (s.edgeSet r.tile) } } ∧
        (s.stage = 8 → exec (.report r) s = .next (v.returnTile r.tile)) ∧
        (s.stage ≠ 8 → ∃ x, x = { v.admitTile r.tile with
            boot := { (v.admitTile r.tile).boot with heard := s.boot.heard ++ [r.tile] } } ∧
          exec (.report r) s = .next (if x.allHeard = true then x.releaseAll else x))))) ∧
  (∀ (s : State) (tile : Nat), s.overdue tile = true → s.light.degraded = false →
    exec (.tileAbsent tile) s = .next (s.failDiscovery tile 0x5011 0)) ∧
  (∀ (s : State) (tile : Nat), s.overdue tile = true → s.light.degraded = true → ∃ x,
    x = { s.rs 0 CFG_BOOT.degraded 1 with boot := { s.boot with heard := s.boot.heard ++ [tile] } } ∧
    exec (.tileAbsent tile) s = .next (if x.allHeard = true then x.releaseAll else x))

/-- Core, engine and warm resets, and what a warm reset keeps. With nothing of its tick before it: where the keeper accepts a reset of
its level, and the tick has not already ended the package or the unit, PACKAGE_WARM_RESET is the warm reset, TILE_RESET the tile
reset of the position, COMPUTE_DIE_RESET and OPTICAL_ENGINE_RESET the reset of that die or engine (0x5021 and its fence),
CORE_RESET that of the core. Where it is not accepted, a part out of its internal reset sets EVT_STATUS.reset_refused and changes
nothing else, unless the tick has already ended the unit: then the event is logged as subsumed. A second warm reset of one tick
changes nothing. NO_LEASE_TIMEOUT at READY with the lease not held, 10,000 tk past its expiry, raises 0x9406 and warm-resets the
package. An accepted PACKAGE_WARM_RESET answers a next state in which the part is claimed as before with the same pairing key,
fuses, metering island and event log are unchanged, the log pointers, the keeper's lease record, next_leaf and the mirror's
registers are kept and every other register field reads its reset value, no core, engine, hub, context, link, optical link, module,
memory registration or queue pair holds anything, and the boot begins again with stage ROM from this tick.
(spec/17_events_resets_faults.md, spec/05_sequencer_lease_and_failover.md, spec/16_boot_configuration_security.md,
spec/13_host_ports.md) -/
def Obligations.ResetLevelsStart : Prop :=
  ((∀ (s : State) (fl : Flash), s.yields (.packageWarmReset fl) = false → s.endedNow oPackage = true →
    exec (.packageWarmReset fl) s = .next s) ∧
  (∀ (s : State) (u : Nat), s.yields (.tileReset u) = false → s.resetOk 2 u 0 = true → s.unitEnded u = false →
    exec (.tileReset u) s = .next (s.tileReset (u % 16))) ∧
  (∀ (s : State) (u : Nat), s.yields (.computeDieReset u) = false → s.resetOk 3 u 0 = true →
    exec (.computeDieReset u) s = .next ((s.startSelfTest u).fenceUnit u)) ∧
  (∀ (s : State) (u : Nat), s.yields (.opticalEngineReset u) = false → s.resetOk 4 u 0 = true →
    exec (.opticalEngineReset u) s = .next ((s.startSelfTest u).fenceUnit u)) ∧
  (∀ (s : State) (u c : Nat), s.yields (.coreReset u c) = false → s.resetOk 5 u c = true →
    exec (.coreReset u c) s = .next (s.coreReset (u % 16) c)) ∧
  (∀ (s : State) (u c : Nat) (fl : Flash), s.boot.awake = true →
    (s.yields (.packageWarmReset fl) = false → s.endedNow oPackage = false → s.resetOk 1 0 0 = false →
      exec (.packageWarmReset fl) s = .next (s.rinc 0 EVT_STATUS.reset_refused 1)) ∧
    (s.yields (.tileReset u) = false → (s.resetOk 2 u 0 = false ∨ s.unitEnded u = true) → exec (.tileReset u) s = .next
      (if s.unitEnded u = true then s.raise 0x5031 u 0 0 0 true else s.rinc 0 EVT_STATUS.reset_refused 1)) ∧
    (s.yields (.computeDieReset u) = false → s.resetOk 3 u 0 = false → exec (.computeDieReset u) s = .next
      (if s.unitEnded u = true then s.raise 0x5021 u 0 0 0 true else s.rinc 0 EVT_STATUS.reset_refused 1)) ∧
    (s.yields (.opticalEngineReset u) = false → s.resetOk 4 u 0 = false → exec (.opticalEngineReset u) s = .next
      (if s.unitEnded u = true then s.raise 0x5021 u 0 0 0 true else s.rinc 0 EVT_STATUS.reset_refused 1)) ∧
    (s.yields (.coreReset u c) = false → s.resetOk 5 u c = false → exec (.coreReset u c) s = .next
      (if s.unitEnded u = true then s.raise 0x5022 u 0 0 0 true else s.rinc 0 EVT_STATUS.reset_refused 1))) ∧
  (∀ (s : State) (fl : Flash), s.yields (.noLeaseTimeout fl) = false → s.running = true → s.stage = 8 →
    s.rg 0 KPR_LEASE.held = 0 → s.tick ≥ s.rg 0 KPR_LEASE_EXP.expiry + 10000 →
    exec (.noLeaseTimeout fl) s = .next ((s.raise 0x9406 0).warmReset fl))) ∧
  (∀ (s : State) (fl : Flash), s.yields (.packageWarmReset fl) = false → s.endedNow oPackage = false → s.resetOk 1 0 0 = true →
    ∃ t, exec (.packageWarmReset fl) s = .next t ∧ t = s.warmReset fl ∧
    t.claim.claimed = s.claim.claimed ∧ t.claim.key = s.claim.key ∧ t.fuses = s.fuses ∧ t.met = s.met ∧ t.ev.log = s.ev.log ∧
    (∀ u f d, u < 256 → f.off + d < 2 ^ 40 → f.lo < 64 →
      t.rg u f d = if keyUnit (regKey u f d) = 0xF0 ∨ warmKept (regKey u f d) = true then s.rg u f d else f.rst) ∧
    t.cores = [] ∧ t.engs = [] ∧ t.hubs = [] ∧ t.ctxs = [] ∧ t.links = [] ∧ t.opts = [] ∧ t.d2d = [] ∧ t.mrs = [] ∧ t.qps = [] ∧
    t.boot.start = s.tick ∧ t.boot.warm = true ∧ t.boot.flash = fl ∧ t.boot.ready = false)

/-- Units and tiles are lost, fenced, and return. With nothing of its tick before it, DIE_CLOCK_LOSS of a die or engine that runs
raises 0x5020 for it and fences it; of one that the tick has already ended it only logs the event as subsumed. CLOCK_RETURN of a
fenced unit that is not under test raises 0x5021, puts it in its self-test and takes pkg_ready down. SELF_TEST_END of a fenced unit
under test that fails marks the unit failed (state 3); one that passes relearns its ID from its tile, and with that ID its place's
and the fused serial it is readmitted, and else stays fenced. With nothing of its tick before it, in a part that runs: HEALTH_POLL in a
tick of a poll takes each present tile in order, sets its count of missed polls to 0 where it answered and one higher where it did
not, and loses it at three; ALL_MODULES_DOWN of a present tile whose modules have all been DOWN for 10,000 tk loses it;
TICK_LINE_LOSS of a present tile, and REFERENCE_CLOCK_LOSS for every present tile, raises 0x5020 for the tile, loses it, and logs
0x5020 of its die and engine as subsumed. (spec/17_events_resets_faults.md, spec/01_package_and_hierarchy.md,
spec/18_electrical_mechanical.md) -/
def Obligations.UnitsAreLostAndReturn : Prop :=
  ((∀ (s : State) (u : Nat), s.yields (.dieClockLoss u) = false → s.unitRuns u = true →
    exec (.dieClockLoss u) s = .next ((s.raise 0x5020 u).fenceUnit u)) ∧
  (∀ (s : State) (u : Nat), s.yields (.dieClockLoss u) = false → s.unitRuns u = false → s.unitEnded u = true →
    exec (.dieClockLoss u) s = .next (s.raise 0x5020 u 0 0 0 true)) ∧
  (∀ (s : State) (u : Nat), s.fenced u = true → s.testing.contains u = false → ∃ t, exec (.clockReturn u) s = .next t ∧
    t = s.startSelfTest u ∧ t.testing = s.testing ++ [u] ∧ t.boot.ready = false) ∧
  (∀ (s : State) (u serial : Nat), s.testing.contains u = true → s.fenced u = true → ∃ t v,
    t = { s with testing := s.testing.filter (fun x => x != u) } ∧ v = t.relearn u ∧
    exec (.selfTestEnd u false serial) s = .next (t.setFence (u % 16) (if isDie u then EVT_FENCE.die else EVT_FENCE.engine) 3) ∧
    exec (.selfTestEnd u true serial) s = .next (if v.matchesMap u serial = true then v.readmit u else v))) ∧
  ((∀ (s : State) (l : List Nat), s.yields (.healthPoll l) = false → s.running = true → s.tick % 1000 = 0 →
    exec (.healthPoll l) s = .next (s.each s.present (fun s t =>
      if (if l.contains t then 0 else mget s.missed t 0 + 1) ≥ 3 then
        State.loseTile { s with missed := mput s.missed t (if l.contains t then 0 else mget s.missed t 0 + 1) } t
      else { s with missed := mput s.missed t (if l.contains t then 0 else mget s.missed t 0 + 1) }))) ∧
  (∀ (s : State) (tile : Nat), s.yields (.allModulesDown tile) = false → s.running = true → s.tileUp tile = true →
    (∀ m, m < 10 → (s.otherSide (uTile tile) m).isSome = true →
      s.modState (uTile tile) m = 9 ∧ s.tick ≥ (s.mod (uTile tile) m).downAt + 10000) →
    exec (.allModulesDown tile) s = .next (s.loseTile tile)) ∧
  (∀ (s : State) (tile : Nat), s.yields (.tickLineLoss tile) = false → s.running = true → s.tileUp tile = true → ∃ t,
    t = (s.raise 0x5020 (uTile tile) 0 0 0 (s.unitEnded (uTile tile))).loseTile tile ∧
    exec (.tickLineLoss tile) s = .next ((t.raise 0x5020 (uDie tile) 0 0 0 true).raise 0x5020 (uToe tile) 0 0 0 true)) ∧
  (∀ s : State, s.yields .referenceClockLoss = false → (∀ t, s.endedNow (uTile t) = false) →
    exec .referenceClockLoss s = .next (s.each s.present State.loseTick)))

/-- The keeper vote resynchronises one dissenting channel and stops without a majority. With nothing of its tick before it, in a part
that runs with no channel resynchronising, VOTE_DISSENT of a channel (0 to 2) at an output raises 0xA060 with the output and
channel, counts one dissent, records channel and output in EVT_VOTE and sets resyncing; at an output of the lease it also counts a
split vote (which outputs those are is a free function of the part). While a channel resynchronises, further dissent of that
channel changes nothing; dissent of another one, and RESYNCHRONISATION_END without agreement, raise 0xA061 and stop the package
safely; with agreement the resynchronisation ends. (spec/17_events_resets_faults.md, spec/05_sequencer_lease_and_failover.md) -/
def Obligations.KeeperVote : Prop :=
  (∀ (s : State) (c o : Nat), s.yields (.voteDissent c o) = false → s.running = true → c ≤ 2 → s.rg 0 EVT_VOTE.resyncing = 0 → ∃ t,
    t = ((((s.raise 0xA060 0 0 0 (o % 2 ^ 16 + c * 2 ^ 16)).rinc 0 EVT_VOTE.dissents 1).rs 0 EVT_VOTE.last_channel c).rs 0
      EVT_VOTE.last_output o).rs 0 EVT_VOTE.resyncing 1 ∧
    exec (.voteDissent c o) s = .next (if Config.leaseOutput o = true then t.rinc 0 KPR_LEASE.votes_split 1 else t)) ∧
  (∀ (s : State) (c o : Nat), s.yields (.voteDissent c o) = false → s.running = true → c ≤ 2 → s.rg 0 EVT_VOTE.resyncing ≠ 0 →
    exec (.voteDissent c o) s = .next (if c = s.rg 0 EVT_VOTE.last_channel then s else (s.raise 0xA061 0).packageSafeStop)) ∧
  (∀ (s : State) (b : Bool), s.yields (.resynchronisationEnd b) = false → s.running = true → s.rg 0 EVT_VOTE.resyncing ≠ 0 →
    exec (.resynchronisationEnd b) s = .next (if b = true then s.rs 0 EVT_VOTE.resyncing 0 else (s.raise 0xA061 0).packageSafeStop))

/-- Event records arrive, are held, and are logged at the head. EVENT_RECORD_ARRIVAL of the n-th record under way holds it at the
keeper, or, more than 64 tk after its stamp, counts it as late and logs it at once. LOG_APPEND takes the first held record in log
order once 64 tk have passed since its stamp. EVENT_NOTE_TIMER 10,000 tk after the oldest waiting record's append sends the notes.
SUPPRESSION_WINDOW_CLOSE of an open window that has run 100,000 tk removes it, and where it suppressed records appends the last of
them with their number, which opens the next window. LOG_APPEND of a first held record that is 64 tk past its stamp, has
precedence 7 to 9 (or none), in a part that is not claimed and owes no gap entry, writes the record to slot head mod 8,192, raises
head by 1 modulo 2^32, removes one occurrence of it from the held records, and leaves every other slot of the log as it was.
(spec/17_events_resets_faults.md) -/
def Obligations.EventRecordsReachTheLog : Prop :=
  ((∀ (s : State) (n : Nat) (r : EvRec), s.ev.travel[n]? = some r → ∃ t, t = { s with ev := { s.ev with travel := s.ev.travel.eraseIdx n } } ∧
    exec (.eventRecordArrival n) s = .next (if s.tick > r.tick + 64 then (t.rinc 0 EVT_STATUS.late 1).logOne r
      else { t with ev := { t.ev with held := s.ev.held ++ [r] } })) ∧
  (∀ (s : State) (r : EvRec), firstHeld s.ev.held = some r → s.tick ≥ r.tick + 64 →
    exec .logAppend s = .next (({ s with ev := { s.ev with held := s.ev.held.erase r } }).logOne r)) ∧
  (∀ (s : State) (x : NoteRec) (l : List NoteRec), s.ev.notes = x :: l → s.tick ≥ x.at_ + 10000 →
    exec .eventNoteTimer s = .next s.sendNotes) ∧
  (∀ (s : State) (code unit : Nat) (w : SupWin), s.ev.wins.find? (sameWin code unit) = some w → s.tick ≥ w.opened + 100000 →
    exec (.suppressionWindowClose code unit) s = .next (match w.last with
      | none => { s with ev := { s.ev with wins := s.ev.wins.filter (fun x => !sameWin code unit x) } }
      | some r => State.append { s with ev := { s.ev with
          wins := s.ev.wins.filter (fun x => !sameWin code unit x) ++ [SupWin.mk code unit s.tick 0 none] } }
          { r with repeats := Nat.min w.count 0xFFFF }))) ∧
  (∀ (s : State) (r : EvRec), firstHeld s.ev.held = some r → s.tick ≥ r.tick + 64 → r.prec ≤ 9 → (r.prec = 0 ∨ 7 ≤ r.prec) →
    s.claim.claimed = false → s.ev.lost = 0 → ∃ t, exec .logAppend s = .next t ∧
    mfind t.ev.log (s.rg 0 EVT_LOG_PTR.head % 8192) = some r ∧
    (∀ i, i ≠ s.rg 0 EVT_LOG_PTR.head % 8192 → mfind t.ev.log i = mfind s.ev.log i) ∧
    t.rg 0 EVT_LOG_PTR.head = (s.rg 0 EVT_LOG_PTR.head + 1) % 2 ^ 32 ∧ t.ev.held = s.ev.held.erase r)

/-- COMMAND_FETCH takes the next 64 bytes of the stream whose turn it is. On a die that is present, with the first engine in
round-robin order that wants a fetch being e, the next turn starts after e, and COMMAND_FETCH: inside core store and without an
uncorrectable word counts the corrected words, places the 64 bytes at stream base + 64 × the commands fetched, little-endian, at the
end of that engine's queue, counts it, and ends the fetching at an END or at the stream's count; past the end of core store it halts
the stream with status 0x03, raises 0x9100 and aborts for reason 0x10; on an uncorrectable word it counts the corrected words, halts
the stream with status 0x04, counts the word, raises 0x4100 with its address and aborts for reason 0x11. With no engine that wants
a fetch nothing changes. (spec/03_cores_and_engines.md) -/
def Obligations.IssueUnitFetches : Prop :=
  ∀ (c : CoreId) (ecc : EccHits) (s : State), s.dieUp c.die = true →
    (∀ e, ((List.range 8).map (fun i => ((s.core (coreKey c.die c.core)).rr + i) % 8)).find?
        (fun e => (s.eng (coreKey c.die c.core * 8 + e)).wantsFetch) = some e → ∃ (k la : Nat) (x : Eng) (u v : State),
      k = coreKey c.die c.core * 8 + e ∧ x = s.eng k ∧ la = x.base + 64 * x.fetched ∧
      u = s.setCore (coreKey c.die c.core) { s.core (coreKey c.die c.core) with rr := (e + 1) % 8 } ∧
      v = u.coreFixed (coreKey c.die c.core) ecc.coreFixed ∧
      (la + 64 ≤ 0x400000 → hitsRange ecc.core la 64 = none → ∃ w : CmdWord, w = BitVec.ofNat 512 (s.word (csAt k la) 64) ∧
        exec (.commandFetch c ecc) s = .next ((v.setEng k { x with
          queue := x.queue ++ [w], fetched := x.fetched + 1,
          fetching := !((cmdClass w == 0 && cmdOp w == 1) || x.fetched + 1 == x.count) }).askLeave (coreKey c.die c.core))) ∧
      (la + 64 > 0x400000 → exec (.commandFetch c ecc) s = .next
        (((u.haltStream k 3).raise 0x9100 (uDie c.die) 0 k ((x.queue.getLast?.map cmdSeq).getD x.lastSeq)).abortCore
          (coreKey c.die c.core) 0x10)) ∧
      (∀ a, la + 64 ≤ 0x400000 → hitsRange ecc.core la 64 = some a → exec (.commandFetch c ecc) s = .next
        ((((v.haltStream k 4).rinc (uDie c.die) CORE_ECC.uncorrected 1 (dCore c.core)).raise 0x4100 (uDie c.die) 0 k a).abortCore
          (coreKey c.die c.core) 0x11))) ∧
    (((List.range 8).map (fun i => ((s.core (coreKey c.die c.core)).rr + i) % 8)).find?
        (fun e => (s.eng (coreKey c.die c.core * 8 + e)).wantsFetch) = none → exec (.commandFetch c ecc) s = .next s)

/-- The control ops, LEAVE_RELEASE by the state of its core among them. A control op at the head of an engine's queue that may
execute: NOP and END leave only the engine's head waiting for completion with no flags, for a free number of busy cycles;
FLAG_CLEAR also clears the flags whose bits its word names, and no other, and leaves memory and cores as they are; TICK_MARK with
an address of core store also writes the 8 bytes of the tick counter there and no other byte of memory, and leaves registers and
cores as they are. A LEAVE_RELEASE that may execute completes without effect on the leave logic in IDLE, REQ and DOWN; in FULL with
no matrix command of the core executing it asks for the way down, which is sampled at the next tick and cannot be withdrawn; in
RAMP, and in FULL with one executing, it stays at the head, executing. (spec/03_cores_and_engines.md,
spec/14_power_and_thermal.md) -/
def Obligations.ControlOpsExecute : Prop :=
  ((∀ (e : EngId) (w : CmdWord) (s : State), s.mayRun (engOf e) w 0 0 = true →
    exec (.nop e) s = .next ({ s with freeCtr := s.freeCtr + 1 }.setEng (engOf e)
      { s.eng (engOf e) with phase := .done, status := 0, flags := 0, busy := Config.freeNat s.freeCtr })) ∧
  (∀ (e : EngId) (w : CmdWord) (s : State), s.mayRun (engOf e) w 0 1 = true →
    exec (.endStream e) s = .next ({ s with freeCtr := s.freeCtr + 1 }.setEng (engOf e)
      { s.eng (engOf e) with phase := .done, status := 0, flags := 0, busy := Config.freeNat s.freeCtr })) ∧
  (∀ (e : EngId) (w : CmdWord) (s : State), s.mayRun (engOf e) w 0 2 = true → ∃ t, exec (.flagClear e) s = .next t ∧
    t.flags (engOf e) = s.flags (engOf e) &&& (255 - fieldOf w 128 8) ∧ t.mem = s.mem ∧ t.cores = s.cores ∧
    t.eng (engOf e) = { s.eng (engOf e) with phase := .done, status := 0, flags := 0, busy := Config.freeNat s.freeCtr }) ∧
  (∀ (e : EngId) (w : CmdWord) (s : State), s.mayRun (engOf e) w 0 4 = true → csRange (fieldOf w 128 24) 8 = true →
    ∃ t, exec (.tickMark e) s = .next t ∧ t.mem = s.mem.writes (csAt (engOf e) (fieldOf w 128 24)) (le 8 s.tick) ∧
    (∀ a, (a < csAt (engOf e) (fieldOf w 128 24) ∨ csAt (engOf e) (fieldOf w 128 24) + 8 ≤ a) → t.mem.read a = s.mem.read a) ∧
    t.regs = s.regs ∧ t.cores = s.cores ∧
    t.eng (engOf e) = { s.eng (engOf e) with phase := .done, status := 0, flags := 0, busy := Config.freeNat s.freeCtr })) ∧
  (∀ (e : EngId) (w : CmdWord) (s : State), s.mayRun (engOf e) w 0 3 = true →
    (((s.core (engCore (engOf e))).leave = .idle ∨ (s.core (engCore (engOf e))).leave = .req ∨
        (s.core (engCore (engOf e))).leave = .down) →
      exec (.leaveRelease e) s = .next ({ s with freeCtr := s.freeCtr + 1 }.setEng (engOf e)
        { s.eng (engOf e) with phase := .done, status := 0, flags := 0, busy := Config.freeNat s.freeCtr })) ∧
    ((s.core (engCore (engOf e))).leave = .full → s.matrixBusy (engCore (engOf e)) = false →
      ∃ t, exec (.leaveRelease e) s = .next t ∧ (t.core (engCore (engOf e))).downHard = true ∧
        (t.core (engCore (engOf e))).downReq = some ((s.core (engCore (engOf e))).downReq.getD (s.tick + 1)) ∧
        t.eng (engOf e) = { s.eng (engOf e) with phase := .done, status := 0, flags := 0, busy := Config.freeNat s.freeCtr }) ∧
    (((s.core (engCore (engOf e))).leave = .ramp ∨
        ((s.core (engCore (engOf e))).leave = .full ∧ s.matrixBusy (engCore (engOf e)) = true)) →
      exec (.leaveRelease e) s = .next (s.setEng (engOf e) { s.eng (engOf e) with phase := .executing })))

/-- A head that fails its header check is rejected, and a pre-wait parks it. On a die that is present, for a command that stands
unchecked at the head of an engine's queue whose stream no fetch has halted: with an invalid header each row of a control op (NOP,
END, FLAG_CLEAR, LEAVE_RELEASE, TICK_MARK) ends as a rejection with status 0x01; with a valid header of class and op NOP and pre_en
set, the row NOP leaves only the head waiting on its object since this tick. (spec/03_cores_and_engines.md) -/
def Obligations.CommandsAreCheckedBeforeTheyRun : Prop :=
  ∀ (e : EngId) (w : CmdWord) (rest : List CmdWord) (s : State), s.dieUp (keyDie (engOf e)) = true →
    (s.eng (engOf e)).queue = w :: rest → (s.eng (engOf e)).phase = .idle → (s.eng (engOf e)).cut = false →
    (headerOk (keyEng (engOf e)) w = false → exec (.nop e) s = .next (s.rejectHead (engOf e) 1) ∧
      exec (.endStream e) s = .next (s.rejectHead (engOf e) 1) ∧ exec (.flagClear e) s = .next (s.rejectHead (engOf e) 1) ∧
      exec (.leaveRelease e) s = .next (s.rejectHead (engOf e) 1) ∧ exec (.tickMark e) s = .next (s.rejectHead (engOf e) 1)) ∧
    (headerOk (keyEng (engOf e)) w = true → cmdClass w = 0 → cmdOp w = 0 → cmdPreEn w = true →
      exec (.nop e) s = .next (s.setEng (engOf e) { s.eng (engOf e) with phase := .preWait, since := s.tick }))

/-- Completion: the rows that end a command, its post and its record. On a die that is present: COMMAND_COMPLETE of a head that has
issued its outputs starts FENCE.DATA where the command asks for it and else ends the head with its status; FENCE_DATA_COMPLETE of
a fence whose engine has nothing under way on the base network or to peers ends the head; PORT_TIMEOUT, with nothing of its tick
before it, of a head that has stalled at a port for SYN_CORE_TIMEOUT.core_tk leaves a vector command's destination undefined, ends
the head with status 0x06 and a free number of busy cycles, raises 0x3014, logs the stall, counts it and aborts for reason 0x13.
COMMAND_COMPLETE of a head with status 0 and without FENCE.DATA, on an engine that no stop waits for: the queue of the engine moves
on by one (an END empties it and finishes the stream) and its phase is IDLE or, at the safe point that a stop waits for, STOPPED;
CORE_ENG_STATE.last_status is 0; with post_en the signal to post_obj of post_add is posted on the core behind those already posted,
and without it no signal is; no other engine changes. (spec/03_cores_and_engines.md, spec/06_synchronisation.md,
spec/07_memory_translation_dma.md) -/
def Obligations.CommandsComplete : Prop :=
  ((∀ (e : EngId) (w : CmdWord) (rest : List CmdWord) (s : State), s.dieUp e.die = true → (s.eng (engOf e)).queue = w :: rest →
    (s.eng (engOf e)).phase = .done →
    exec (.commandComplete e) s = .next (if cmdPostFence w = true then s.setEng (engOf e) { s.eng (engOf e) with phase := .fence }
      else s.endHead (engOf e) (s.eng (engOf e)).status)) ∧
  (∀ (e : EngId) (s : State), s.dieUp e.die = true → (s.eng (engOf e)).phase = .fence →
    (∀ r ∈ s.net, r.eng ≠ some (engOf e)) → (∀ l ∈ s.links, ∀ o ∈ l.2.out, o.eng ≠ engOf e) →
    exec (.fenceDataComplete e) s = .next (s.endHead (engOf e) (s.eng (engOf e)).status)) ∧
  (∀ (e : EngId) (w : CmdWord) (rest : List CmdWord) (s : State), s.yields (.portTimeout e) = false → s.dieUp e.die = true →
    (s.eng (engOf e)).queue = w :: rest → (s.eng (engOf e)).phase = .port →
    s.tick ≥ (s.eng (engOf e)).since + s.rg (uTile e.die) SYN_CORE_TIMEOUT.core_tk →
    ∃ (k m : Nat) (u : State), k = engOf e ∧ m = stalledPort k w ∧
      u = (((if cmdClass w = 2 then s.scramble (csAt k (vecOp w).dst) (vecOp w).dstBytes else s).busyFree k).endHead k 6).raise
        0x3014 (uDie e.die) m k ∧
      exec (.portTimeout e) s = .next (((u.toLog e.die (u.eng (engCore k * 8 + m)).fifo.flatten.length 0 k).rinc (uTile e.die)
        SYN_COUNTS.timeouts 1).abortCore (engCore k) 0x13))) ∧
  (∀ (e : EngId) (w : CmdWord) (rest : List CmdWord) (s : State), s.dieUp e.die = true → (s.eng (engOf e)).queue = w :: rest →
    (s.eng (engOf e)).phase = .done → (s.eng (engOf e)).status = 0 → (s.eng (engOf e)).halting = false → cmdPostFence w = false →
    ∃ t, exec (.commandComplete e) s = .next t ∧
      (¬ (cmdClass w = 0 ∧ cmdOp w = 1) → (t.eng (engOf e)).queue = rest) ∧
      (cmdClass w = 0 → cmdOp w = 1 → (t.eng (engOf e)).queue = [] ∧ (t.eng (engOf e)).finished = true) ∧
      ((t.eng (engOf e)).phase = .idle ∨ (t.eng (engOf e)).phase = .stopped) ∧ (t.eng (engOf e)).lastSeq = cmdSeq w ∧
      t.eg (engOf e) CORE_ENG_STATE.last_status = 0 ∧
      (t.core (engCore (engOf e))).sigs = (s.core (engCore (engOf e))).sigs ++
        (if cmdPostEn w = true then [(keyEng (engOf e), cmdPostObj w, cmdPostAdd w)] else []) ∧
      (∀ k, k ≠ engOf e → t.eng k = s.eng k))

/-- The steps of the leave logic. RAMP_STEP on a present die, 25 tk after the start of step j, raises the level by one below step 8
and enters FULL at the end of step 8, from where a core in reset asks for its way down. IDLE_RELEASE in FULL with no matrix command
at any head, after at least max(1, idle_release) cycles, asks for a way down that may be withdrawn. FALL_STEP of a fall that has
begun lowers the level every 25 tk, and after level 1 leaves the core IDLE at level 0, out of its reset, with the request of a
waiting matrix command sampled anew; where no fall has begun nothing changes. LEAVE_GRANT of a present die in a part that is up,
with nothing of its tick before it, makes the tick's revocations and serves the pending requests of that die.
(spec/03_cores_and_engines.md, spec/14_power_and_thermal.md) -/
def Obligations.LeaveLogicSteps : Prop :=
  (∀ (c : CoreId) (s : State) (x : CoreSt), x = s.core (coreKey c.die c.core) → x.leave = .ramp → s.tick ≥ x.stepAt + 25 * x.level →
    s.dieUp c.die = true →
    (x.level < 8 → exec (.rampStep c) s = .next (s.setCore (coreKey c.die c.core) { x with level := x.level + 1 })) ∧
    (8 ≤ x.level → x.inReset = false →
      exec (.rampStep c) s = .next (s.setCore (coreKey c.die c.core) { x with leave := .full, level := 8 })) ∧
    (8 ≤ x.level → x.inReset = true → exec (.rampStep c) s = .next
      ((s.setCore (coreKey c.die c.core) { x with leave := .full, level := 8 }).askDown (coreKey c.die c.core) true))) ∧
  (∀ (c : CoreId) (cycles : Nat) (s : State), (s.core (coreKey c.die c.core)).leave = .full → s.dieUp c.die = true →
    (∀ m, m < 4 → ∀ w, (s.eng (coreKey c.die c.core * 8 + m)).queue.head? = some w → cmdClass w ≠ 1) →
    cycles ≥ max 1 (s.rg (uDie c.die) CORE_LEAVE.idle_release (dCore c.core)) →
    exec (.idleRelease c cycles) s = .next (s.askDown (coreKey c.die c.core) false)) ∧
  (∀ (c : CoreId) (s : State) (x : CoreSt), x = s.core (coreKey c.die c.core) → x.leave = .down →
    (x.falling = false → exec (.fallStep c) s = .next s) ∧
    (x.falling = true → s.tick ≥ x.stepAt + 25 * (9 - x.level) → 1 < x.level →
      exec (.fallStep c) s = .next (s.setCore (coreKey c.die c.core) { x with level := x.level - 1 })) ∧
    (x.falling = true → s.tick ≥ x.stepAt + 25 * (9 - x.level) → x.level ≤ 1 → exec (.fallStep c) s = .next
      ((s.setCore (coreKey c.die c.core) { x with leave := .idle, level := 0, falling := false, inReset := false }).askLeave
        (coreKey c.die c.core)))) ∧
  (∀ (die : Nat) (s : State), s.yields (.leaveGrant die) = false → s.dieUp die = true → s.pwr.down = .up →
    exec (.leaveGrant die) s = .next (leaveGrantEff die s.applyCuts))

/-- MATMUL in a core that holds its leave grant writes its outputs and nothing else. A MATMUL that passes its checks, may execute, in
a core in RAMP or FULL, with no uncorrectable word in what it reads: the corrected words are counted and the outputs drain. A byte
of memory is unchanged outside the ranges of its outputs, where they go to memory, and, with marking, of its inexact map. With its
outputs in memory the head waits for completion with the command's cycles; with its matrix port as their destination it stalls
there, or waits for completion where every row has entered. (spec/03_cores_and_engines.md,
spec/02_number_formats_and_accumulation.md) -/
def Obligations.MatmulDrains : Prop :=
  ∀ (e : EngId) (ecc : EccHits) (w : CmdWord) (s : State), s.mayRun (engOf e) w 1 1 = true → matCheck e.eng s w = none → e.eng < 4 →
    e.core < 64 → ((s.core (engCore (engOf e))).leave = .ramp ∨ (s.core (engCore (engOf e))).leave = .full) →
    hitsAny ecc.core (matOp w).reads = none →
    ∃ t, exec (.matmul e ecc) s = .next t ∧ t = (s.coreFixed (engCore (engOf e)) ecc.coreFixed).matDrain (engOf e) (matOp w) ∧
      (∀ a, ((matOp w).out ≠ portLa e.eng → ∀ x, x < (matOp w).m * (matOp w).n →
          a < slotAt (engOf e) (matOp w).out (formBytes (matOp w).form) x ∨
          slotAt (engOf e) (matOp w).out (formBytes (matOp w).form) x +
            (if isAcc (matOp w).out then 32 else formBytes (matOp w).form) ≤ a) →
        ((matOp w).mark = true → a < csAt (engOf e) (matOp w).map ∨
          csAt (engOf e) (matOp w).map + cdiv ((matOp w).m * (matOp w).n) 8 ≤ a) →
        t.mem.read a = s.mem.read a) ∧
      ((matOp w).out ≠ portLa e.eng → (t.eng (engOf e)).phase = .done ∧ (t.eng (engOf e)).busy = (matOp w).cycles) ∧
      ((matOp w).out = portLa e.eng → (t.eng (engOf e)).phase = .port ∨ (t.eng (engOf e)).phase = .done)

/-- An exact accumulation does not depend on the order or the split of its contributions. For every unit, window, and starting
accumulator, adding the same contributions in any order gives the same accumulator in every field; and adding the contributions of
two lists to two empty accumulators and merging them gives what adding both lists to one empty accumulator gives. (The statement
is about the arithmetic that MATMUL folds over; that the stored result follows from the accumulator alone is the meaning of the
finishing step.) (R65, R57, spec/02_number_formats_and_accumulation.md) -/
def Obligations.ExactSumIsOrderFree : Prop :=
  (∀ (unit : Int) (red : Bool) (a : ExAcc) (l l' : List Machine.Num), l.Perm l' →
    l.foldl (contribute unit red) a = l'.foldl (contribute unit red) a) ∧
  (∀ (unit : Int) (red : Bool) (l l' : List Machine.Num),
    (l ++ l').foldl (contribute unit red) {} = (l.foldl (contribute unit red) {}).merge (l'.foldl (contribute unit red) {}))

/-- What one contribution does to an accumulator of the full window. With the full window of E_ref, whose unit is 2^(E_ref − 96): a
finite contribution of magnitude below 2^(E_ref + 95) is truncated toward zero to a multiple of 2^(E_ref − 96) before it is added
(its magnitude m × 2^e lies in [k, k + 1) units for the k added with its sign), and window underflow is set exactly when the
truncation discards a nonzero part, or was set before; no other state changes. A finite contribution of magnitude 2^(E_ref + 95)
or more is not added and sets the overflow state of its sign, changing nothing else. (R53, R54) -/
def Obligations.ContributionsInTheFullWindow : Prop :=
  ∀ (eref : Int) (a : ExAcc) (neg : Bool) (m : Nat) (e : Int),
    let big : Prop := (2 : ℚ) ^ (eref + 95) ≤ (m : ℚ) * (2 : ℚ) ^ e
    (¬ big → ∃ (k : Nat) (lost : Bool), (k : ℚ) * (2 : ℚ) ^ (eref - 96) ≤ (m : ℚ) * (2 : ℚ) ^ e ∧
      (m : ℚ) * (2 : ℚ) ^ e < ((k : ℚ) + 1) * (2 : ℚ) ^ (eref - 96) ∧
      (lost = true ↔ (k : ℚ) * (2 : ℚ) ^ (eref - 96) ≠ (m : ℚ) * (2 : ℚ) ^ e) ∧
      contribute (winUnit eref false) false a (.fin neg m e) =
        { a with sum := a.sum + (if neg then -(k : Int) else (k : Int)), wuf := a.wuf || lost }) ∧
    (big → contribute (winUnit eref false) false a (.fin neg m e) = if neg then { a with ovn := true } else { a with ovp := true })

/-- Vector commands run, and ADD stores the sums. For each of ADD, SUB, MUL, FMA, DIV, MAX, MIN, EXP, LOG, RSQRT, SQRT, TANH, SIGMOID,
SIN, COS, RECIP, RSUM, RMAX, RMIN, SORT, TOPK and CONVERT, with its op code: a command at the head of the vector engine that passes
its checks and may execute, with no uncorrectable word in what it reads, counts the corrected words; with its first source in core
store it stores the op's results and issues them with the op's flags and cycles; with its first source at a matrix port it draws
values from the port, does the same once it has its n, and else waits at the port; and so it goes on while it stands at the port.
An ADD that passes its checks and may execute, with FP32 sources in core store, an FP32 destination, rounding to nearest even and no
uncorrectable word, in a memory of canonical form: the four bytes at destination + 4 × i hold the FP32 sum of the i-th elements of
the sources (or of the immediate), for every i below n; every byte outside the destination keeps its value; every other engine's
state, the cores' leave states and the events are unchanged. (spec/03_cores_and_engines.md,
spec/02_number_formats_and_accumulation.md) -/
def Obligations.VectorCommandsRun : Prop :=
  let runs (row : CoreId → EccHits → Instr) (op : Nat) (f : VecOp → State → Nat → State × Nat) : Prop :=
    ∀ (c : CoreId) (ecc : EccHits) (w : CmdWord) (s u : State), hitsAny ecc.core (vecOp w).reads = none →
      u = s.coreFixed (engCore (vecOf c)) ecc.coreFixed →
      (s.mayRun (vecOf c) w 2 op = true → vecCheck s w = none →
        (portOf (vecOp w).src1 = none → exec (row c ecc) s = .next
          ((f (vecOp w) u (vecOf c)).1.issued (vecOf c) (f (vecOp w) u (vecOf c)).2 (vecOp w).cycles)) ∧
        (∀ m v, portOf (vecOp w).src1 = some m →
          v = (u.setEng (vecOf c) { u.eng (vecOf c) with phase := .port, since := s.tick }).exchange (vecOf c)
            (engCore (vecOf c) * 8 + m) (vecOp w).n ((vecOp w).n + 1) →
          exec (row c ecc) s = .next (if (v.eng (vecOf c)).portBuf.length < (vecOp w).n then v
            else (f (vecOp w) v (vecOf c)).1.issued (vecOf c) (f (vecOp w) v (vecOf c)).2 (vecOp w).cycles))) ∧
      (∀ m v rest, s.dieUp c.die = true → ((s.eng (vecOf c)).phase = .port ∨ (s.eng (vecOf c)).phase = .executing) →
        (s.eng (vecOf c)).queue = w :: rest → cmdClass w = 2 → cmdOp w = op → portOf (vecOp w).src1 = some m →
        v = u.exchange (vecOf c) (engCore (vecOf c) * 8 + m) (vecOp w).n ((vecOp w).n + 1) →
        exec (row c ecc) s = .next (if (v.eng (vecOf c)).portBuf.length < (vecOp w).n then v
          else (f (vecOp w) v (vecOf c)).1.issued (vecOf c) (f (vecOp w) v (vecOf c)).2 (vecOp w).cycles))
  (runs .add 0x01 (binaryOp addNum) ∧ runs .sub 0x02 (binaryOp (fun a b => addNum a (negNum b))) ∧ runs .mul 0x03 (binaryOp mulNum) ∧
    runs .fma 0x04 (elementwise (fun o s k i v => fmaNum v (o.other s k o.src2 i o.imm2) (o.other s k o.src3 i o.imm3))) ∧
    runs .div 0x05 (binaryOp divNum) ∧ runs .max 0x06 (binaryOp (fun a b => (max32 (wide32 a) (wide32 b), 0))) ∧
    runs .min 0x07 (binaryOp (fun a b => (min32 (wide32 a) (wide32 b), 0))) ∧ runs .exp 0x10 (unary expNum) ∧
    runs .log 0x11 (unary logNum) ∧ runs .rsqrt 0x12 (unary rsqrtNum) ∧ runs .sqrt 0x13 (unary (fun _ v => sqrtNum v)) ∧
    runs .tanh 0x14 (unary tanhNum) ∧ runs .sigmoid 0x15 (unary sigmoidNum) ∧ runs .sin 0x16 (unary sinNum) ∧
    runs .cos 0x17 (unary cosNum) ∧ runs .recip 0x18 (unary recipNum) ∧
    runs .rsum 0x20 (reduceOp (fun xs => treeSum 9 ((List.range 512).map (laneSum xs)))) ∧
    runs .rmax 0x21 (reduceOp (foldPick max32)) ∧ runs .rmin 0x22 (reduceOp (foldPick min32)) ∧
    runs .sort 0x30 (fun o s k => o.storePairs s k o.n ((sortKeys ((o.pairs s k).map (fun p =>
      ((if isNan32 p.1 then (2 ^ 32 : Int) else orderKey p.1), p.1, p.2)))).map (·.2))) ∧
    runs .topk 0x31 (fun o s k => o.storePairs s k o.k (((sortKeys ((o.pairs s k).map (fun p =>
      ((if isNan32 p.1 then (2 ^ 32 : Int) else -orderKey p.1), p.1, p.2)))).map (·.2)).take o.k ++
      List.replicate (o.k - (((sortKeys ((o.pairs s k).map (fun p =>
        ((if isNan32 p.1 then (2 ^ 32 : Int) else -orderKey p.1), p.1, p.2)))).map (·.2)).take o.k).length) (nan32, 0xFFFFFFFF))) ∧
    runs .convert 0x40 convertEff) ∧
  (∀ (c : CoreId) (ecc : EccHits) (w : CmdWord) (s : State), s.mayRun (vecOf c) w 2 1 = true → vecCheck s w = none → s.mem.wf = true →
    hitsAny ecc.core (vecOp w).reads = none → portOf (vecOp w).src1 = none → (vecOp w).fmt = 8 → (vecOp w).cvt.dst = 8 →
    (vecOp w).cvt.sr = false → ∃ t, exec (.add c ecc) s = .next t ∧
      (∀ i, i < (vecOp w).n → t.mem.bytes (csAt (vecOf c) (vecOp w).dst + 4 * i) 4 =
        le 4 (addNum ((vecOp w).elem s (vecOf c) (vecOp w).src1 i).2 ((vecOp w).other s (vecOf c) (vecOp w).src2 i (vecOp w).imm2)).1) ∧
      (∀ a, (a < csAt (vecOf c) (vecOp w).dst ∨ csAt (vecOf c) (vecOp w).dst + 4 * (vecOp w).n ≤ a) → t.mem.read a = s.mem.read a) ∧
      (∀ k, k ≠ vecOf c → t.eng k = s.eng k) ∧ t.cores = s.cores ∧ t.ev = s.ev)

/-- The open result of a bounded function lies within its ulp bound. The result that RECIP, RSQRT, EXP, LOG, TANH, SIGMOID, SIN and
COS give for a computed value (m × 2^e with a sign; which result is the model's open choice, log 11) with a bound of w ulp, from 1
to 4: it is an infinity only for a magnitude of 2^127 or more, and else a finite FP32 value whose distance from the value is at
most w units of the last place of that value. (spec/03_cores_and_engines.md, spec/02_number_formats_and_accumulation.md) -/
def Obligations.FunctionsKeepTheirBound : Prop :=
  ∀ (op w bits : Nat) (neg : Bool) (m : Nat) (e : Int), 0 < m → 1 ≤ w → w ≤ 4 →
    (∃ n, decodeBin fp32 (within op w bits neg m e).1 = .inf n ∧ (2 : ℚ) ^ 127 ≤ (m : ℚ) * (2 : ℚ) ^ e) ∨
    (∃ n k j, decodeBin fp32 (within op w bits neg m e).1 = .fin n k j ∧
      |(if n then -1 else 1) * (k : ℚ) * (2 : ℚ) ^ j - (if neg then -1 else 1) * (m : ℚ) * (2 : ℚ) ^ e| ≤
        (w : ℚ) * (2 : ℚ) ^ (max ((Nat.log2 m : Int) + e) (-126) - 23))


/-- SIGNAL, WAIT, WAIT_TAKE and BARRIER_ARRIVE issue their operation, or are refused. For a sync command of each row that passes its
checks and may execute, BARRIER_ARRIVE with no uncorrectable word in its copy of the descriptor and with the corrected words counted
first: in a core with a context, with an object that resolves to a hub of this package or a reachable peer and is a counter for
SIGNAL, WAIT and WAIT_TAKE and a barrier slot for BARRIER_ARRIVE, the operation, with the command's value, its waiter ID, unit,
context and the tick, for BARRIER_ARRIVE with the CRC of its copy, goes to where it resolves; SIGNAL has then issued its output (for
a free number of busy cycles) and the others wait as span operations. Without a context, with an object that leads nowhere, or with
one of the other type, the operation is refused: 0x3020 is raised and the command ends as a rejection with status 0x01.
(spec/03_cores_and_engines.md, spec/06_synchronisation.md) -/
def Obligations.SyncUnitIssues : Prop :=
  let issues (run : State → Out) (k : Nat) (w : CmdWord) (kind : SpanKind) (crc : Nat) (s v : State) : Prop :=
    (∀ ctx p dest, v.coreCtx (engCore k) = some ctx → v.resolve (keyDie k) ctx (syncObj w) = (p, dest) → dest ≠ .bad →
      (spanBarrier p = true ↔ kind = .arrive) →
      ∃ u, u = v.sendSpan dest
        { kind := kind, obj := p, value := syncVal w, waiter := k, unit := uDie (keyDie k), ctx := ctx, reg := v.tick, expire := 0
          crc := crc, seq := cmdSeq w } (syncTo w) (v.ctx ctx).plan.planId ∧
      run s = .next (if kind = .signal then u.issuedFree k else u.setEng k { u.eng k with phase := .span })) ∧
    ((v.coreCtx (engCore k) = none ∨ (∃ ctx, v.coreCtx (engCore k) = some ctx ∧ ((v.resolve (keyDie k) ctx (syncObj w)).2 = .bad ∨
        ¬ (spanBarrier (v.resolve (keyDie k) ctx (syncObj w)).1 = true ↔ kind = .arrive)))) →
      run s = .next ((v.raise 0x3020 (uTile (keyDie k)) (syncObj w) k
        (((v.eng k).queue.head?.map cmdSeq).getD 0)).rejectHead k 1))
  (∀ (c : CoreId) (w : CmdWord) (s : State), s.mayRun (syncOf c) w 4 1 = true → syncCheck false w = none →
    issues (exec (.signal c)) (syncOf c) w .signal 0 s s) ∧
  (∀ (c : CoreId) (w : CmdWord) (s : State), s.mayRun (syncOf c) w 4 2 = true → syncCheck false w = none →
    issues (exec (.wait c)) (syncOf c) w .wait 0 s s) ∧
  (∀ (c : CoreId) (w : CmdWord) (s : State), s.mayRun (syncOf c) w 4 3 = true → syncCheck false w = none →
    issues (exec (.waitTake c)) (syncOf c) w .take 0 s s) ∧
  (∀ (c : CoreId) (ecc : EccHits) (w : CmdWord) (s : State), s.mayRun (syncOf c) w 4 4 = true →
    arriveCheck (syncOf c) s w = none → hitsRange ecc.core (syncDesc w) 64 = none →
    issues (exec (.barrierArrive c ecc)) (syncOf c) w .arrive (descCrc (s.barrierDescAt (syncOf c) (syncDesc w))) s
      (s.coreFixed (engCore (syncOf c)) ecc.coreFixed))

/-- A settle of span objects and of core objects. SETTLE of a present tile, with nothing of its tick before it, answers the steps of
the settle. Where the hub's inbox holds one SIGNAL of the context that holds the counter, and the hub has no waiters, no barrier
slots and no snapshot due: the counter's value is min(old + amount, 65,535), its overflow mark is set if the sum exceeds 65,535 and
is kept otherwise, the inbox is empty, and every other object of the hub, every other hub, memory, the engines and the cores are
unchanged. CORE_OBJECT_SETTLE on a present die, with nothing of its tick before it, answers the steps of the settle of the core's
objects. Where one signal is posted on the core and no engine of the core waits on an object: the object's value is
min(old + amount, 65,535), its last_engine is the signaller and last_valid is 1, no posted signal is left, and memory, the engines
and the values of the core's objects of other numbers are unchanged. Where one engine waits without taking, at a threshold that the
object's value reaches, and no signal is posted, that engine becomes ready, and no object and no byte of memory changes.
(spec/06_synchronisation.md, spec/03_cores_and_engines.md) -/
def Obligations.ObjectsSettle : Prop :=
  ((∀ (tile : Nat) (s : State), s.yields (.settle tile) = false → s.tileUp tile = true → exec (.settle tile) s = .next (settleEff tile s)) ∧
  (∀ (tile : Nat) (op : SpanOp) (s : State), s.yields (.settle tile) = false → s.tileUp tile = true → (s.hub tile).inbox = [op] →
    op.kind = .signal → op.plan = none → (s.obj tile (spanKey op.obj)).held = some op.ctx → (s.hub tile).waiters = [] →
    (∀ e ∈ (s.hub tile).objs, e.1 < 4096) → spanKey op.obj < 4096 → (s.hub tile).snap = false →
    ∃ t, exec (.settle tile) s = .next t ∧
      (t.obj tile (spanKey op.obj)).value = min ((s.obj tile (spanKey op.obj)).value + op.value) 65535 ∧
      (t.obj tile (spanKey op.obj)).overflow =
        ((s.obj tile (spanKey op.obj)).overflow || decide ((s.obj tile (spanKey op.obj)).value + op.value > 65535)) ∧
      (t.hub tile).inbox = [] ∧ (∀ k, k ≠ spanKey op.obj → t.obj tile k = s.obj tile k) ∧ (∀ k, k ≠ tile → t.hub k = s.hub k) ∧
      t.mem = s.mem ∧ t.engs = s.engs ∧ t.cores = s.cores)) ∧
  ((∀ (c : CoreId) (s : State), s.yields (.coreObjectSettle c) = false → s.dieUp c.die = true →
    exec (.coreObjectSettle c) s = .next (coreObjectSettleEff (coreKey c.die c.core) s)) ∧
  (∀ (c : CoreId) (e i n : Nat) (s : State), s.yields (.coreObjectSettle c) = false → s.dieUp c.die = true → c.core < 64 → e < 8 →
    i < 48 → (s.core (coreKey c.die c.core)).sigs = [(e, i, n)] →
    (∀ k, k < 8 → (s.eng (coreKey c.die c.core * 8 + k)).phase ≠ .preWait) → ∃ t, exec (.coreObjectSettle c) s = .next t ∧
      t.rg (uDie c.die) SYN_COBJ.value (dObj c.core i) = min (s.rg (uDie c.die) SYN_COBJ.value (dObj c.core i) + n) 65535 ∧
      t.rg (uDie c.die) SYN_COBJ.last_engine (dObj c.core i) = e ∧ t.rg (uDie c.die) SYN_COBJ.last_valid (dObj c.core i) = 1 ∧
      (t.core (coreKey c.die c.core)).sigs = [] ∧ t.engs = s.engs ∧ t.mem = s.mem ∧
      (∀ j, j < 48 → j ≠ i → t.rg (uDie c.die) SYN_COBJ.value (dObj c.core j) = s.rg (uDie c.die) SYN_COBJ.value (dObj c.core j))) ∧
  (∀ (c : CoreId) (e : Nat) (w : CmdWord) (rest : List CmdWord) (s : State), s.yields (.coreObjectSettle c) = false →
    s.dieUp c.die = true → c.core < 64 → e < 8 → (s.core (coreKey c.die c.core)).sigs = [] →
    (s.eng (coreKey c.die c.core * 8 + e)).queue = w :: rest → (s.eng (coreKey c.die c.core * 8 + e)).phase = .preWait →
    cmdPreTake w = false → cmdPreThr w ≤ s.rg (uDie c.die) SYN_COBJ.value (dObj c.core (cmdPreObj w)) →
    (∀ k, k < 8 → k ≠ e → (s.eng (coreKey c.die c.core * 8 + k)).phase ≠ .preWait) → ∃ t, exec (.coreObjectSettle c) s = .next t ∧
      t.eng (coreKey c.die c.core * 8 + e) = { s.eng (coreKey c.die c.core * 8 + e) with phase := .ready } ∧
      t.regs = s.regs ∧ t.mem = s.mem))

/-- The takers that a value releases are a prefix of their queue, and the value falls by what they take. For every value and every
queue of consuming waiters, the settle releases a prefix of the queue whose thresholds together do not exceed the value, leaves
the value less their sum, and stops at the first waiter whose threshold exceeds what is left, so that no later waiter overtakes
it. (spec/06_synchronisation.md) -/
def Obligations.TakersAreServedInOrder : Prop :=
  ∀ (v : Nat) (l : List SpanOp), ∃ pre post, l = pre ++ post ∧ takeRun v l = (pre, v - (pre.map (·.value)).sum) ∧
    (pre.map (·.value)).sum ≤ v ∧ (∀ w, post.head? = some w → v - (pre.map (·.value)).sum < w.value)

/-- WAITER_TIMEOUT, WAITER_RETRY and SYN_DBG_SEL_WRITE. WAITER_TIMEOUT, with nothing of its tick before it, acts after what has come
to the hub, and to the core of the engine that waits, has settled. Of a waiter of a present tile's hub past its timeout it is the
timeout of that span operation; of the pre-wait of an engine, past SYN_CORE_TIMEOUT.core_tk, it ends the head with status 0x06,
raises 0x3010, logs the object's value and threshold, counts it and aborts for reason 0x13; of a waiter that is no longer there it
does nothing more. WAITER_RETRY of a present tile moves the operations that found the table full, and are due at a multiple of 16 tk
from their first attempt, back to the inbox and no others. SYN_DBG_SEL_WRITE on a present tile sets index, barrier and widx from the
word and asks for a snapshot, and leaves memory, the engines, the cores, the events and every other hub as they are.
(spec/06_synchronisation.md) -/
def Obligations.WaitersTimeOutAndRetry : Prop :=
  (∀ (tile waiter obj : Nat) (s v : State), s.yields (.waiterTimeout tile waiter obj) = false → v = s.settled tile waiter →
    (∀ w, ((v.hub tile).waiters ++ (v.hub tile).retry).find? (fun w => w.waiter == waiter && w.obj == obj) = some w →
      v.tileUp tile = true → v.tick ≥ w.expire → exec (.waiterTimeout tile waiter obj) s = .next (v.timeoutSpan tile w)) ∧
    (((v.hub tile).waiters ++ (v.hub tile).retry).find? (fun w => w.waiter == waiter && w.obj == obj) = none →
      (∀ (w : CmdWord) (rest : List CmdWord), waiterIsEngine waiter = true → keyDie waiter = tile → v.dieUp tile = true →
        (v.eng waiter).queue = w :: rest → (v.eng waiter).phase = .preWait → cmdPreObj w = obj →
        v.tick ≥ (v.eng waiter).since + v.rg (uTile tile) SYN_CORE_TIMEOUT.core_tk → ∃ u,
          u = (v.endHead waiter 6).raise 0x3010 (uDie tile) obj waiter ∧ exec (.waiterTimeout tile waiter obj) s = .next
            (((u.toLog tile (v.rg (uDie tile) SYN_COBJ.value (dObj (keyCore waiter) obj)) (cmdPreThr w) waiter).rinc (uTile tile)
              SYN_COUNTS.timeouts 1).abortCore (engCore waiter) 0x13)) ∧
      ((v.eng waiter).phase ≠ .preWait → exec (.waiterTimeout tile waiter obj) s = .next v))) ∧
  (∀ (tile : Nat) (s : State), s.tileUp tile = true → ∃ t due, exec (.waiterRetry tile) s = .next t ∧
    due = (s.hub tile).retry.filter (fun w => s.tick > w.reg && (s.tick - w.reg) % 16 == 0) ∧
    t = s.setHub tile { s.hub tile with
      retry := (s.hub tile).retry.filter (fun w => w ∉ due), inbox := (s.hub tile).inbox ++ due }) ∧
  (∀ (tile : Nat) (v : Word) (s : State), s.tileUp tile = true → ∃ t, exec (.synDbgSelWrite tile v) s = .next t ∧
    t.rg (uTile tile) SYN_DBG_SEL.index = bitsOf v.toNat 0 11 ∧ t.rg (uTile tile) SYN_DBG_SEL.barrier = bitsOf v.toNat 11 1 ∧
    t.rg (uTile tile) SYN_DBG_SEL.widx = bitsOf v.toNat 12 10 ∧ t.hub tile = { s.hub tile with snap := true } ∧
    t.mem = s.mem ∧ t.engs = s.engs ∧ t.cores = s.cores ∧ t.ev = s.ev ∧ (∀ k, k ≠ tile → t.hub k = s.hub k))

/-- MOVE runs, and carries the bytes of its rows. A MOVE that passes its check and may execute shows DMA_STATE 1 and goes on with its
descriptors from where it stands. TABLE_WALK of an engine whose transfer asks for a walk reads the table entries of the walk, those
in HBM through the cache: a page with the permission fills the TLB in front, 64 entries kept, and the transfer goes on; a page
without it, or a walk that faults, parks the transfer with its cause, unless the transfer's link no longer carries it or its source
is uncorrectable there, which end it; an uncorrectable table word ends it with error code 0x06; for a context under invalidation the
walk is made again later. RESUME of a parked engine asks again for the walk that faulted, unless an abandon falls in the same tick;
ABANDON ends its transfer with error code 0x09; either of an engine that is not parked, and was not in this tick, only counts a stray
resume. A MOVE of one descriptor at its start, from core store to a virtual address whose page is in the engine's TLB with write
permission, maps to a physical address that exists, and holds the whole row, without a flow, with a way to the tile of that address,
that passes every fetch check, with no uncorrectable word: the bytes of the source enter the network, through the core's bond port on
that way, for the physical address of the destination; memory and the events are unchanged, and the transfer has issued its outputs
(phase done, no flags). A run of unplanned bytes that is alone in the network, at a bond port that is the last station of its way and
carries as many bytes in a tick, stands in memory at its address after the tick's moves, and nothing is left in the network. (Which
way bytes take is the model's choice, log 109.) (spec/07_memory_translation_dma.md, spec/03_cores_and_engines.md,
spec/04_plans_and_the_sequencer.md) -/
def Obligations.MoveRuns : Prop :=
  ((∀ (e : EngId) (ecc : EccHits) (w : CmdWord) (s : State), s.mayRun (engOf e) w 3 1 = true → moveCheck s w = none →
    exec (.move e ecc) s = .next (((s.setEng (engOf e) { s.eng (engOf e) with phase := .executing }).dmaState (engOf e) 1).dmaRun
      (engOf e) ecc)) ∧
  (∀ (e : EngId) (ecc : EccHits) (r : WalkReq) (c : Nat) (s : State), (s.eng (engOf e)).walk = some r →
    s.coreCtx (engCore (engOf e)) = some c → s.dieUp e.die = true →
    (s.invalidating c = true → exec (.tableWalk e ecc) s = .next s) ∧
    (s.invalidating c = false → ∀ (k : Nat) (u : State), k = engOf e →
      u = s.each (s.walkReads (s.ctxRoot c).2 r.va) (fun s a => s.cacheRead a 8) →
      (∀ p pa, u.walkCtx ecc.mem c r.va = .page p → pageFor p r.va (r.side == 1) = .ok pa → exec (.tableWalk e ecc) s = .next
        ((u.setEng k { s.eng k with
          walk := none, tlb := (⟨c, p.va, p.size, p.pa, p.read, p.write⟩ :: (s.eng k).tlb).take 64 }).dmaRun k ecc)) ∧
      (∀ p cause, u.walkCtx ecc.mem c r.va = .page p → pageFor p r.va (r.side == 1) = .error cause → exec (.tableWalk e ecc) s =
        .next (u.stand k c (s.curDesc k) (u.orFault k c ecc (s.curDesc k) (s.eng k).off r.va r.side cause))) ∧
      (∀ cause, u.walkCtx ecc.mem c r.va = .fault cause → exec (.tableWalk e ecc) s =
        .next (u.stand k c (s.curDesc k) (u.orFault k c ecc (s.curDesc k) (s.eng k).off r.va r.side cause))) ∧
      (∀ pa, u.walkCtx ecc.mem c r.va = .ecc pa →
        exec (.tableWalk e ecc) s = .next ((u.memError pa).dmaError k c 6 (s.curDesc k))))) ∧
  (∀ (e : EngId) (s : State), s.dieUp e.die = true →
    ((s.eng (engOf e)).parked = true → s.abandonSoon (engOf e) = false → exec (.resume e) s = .next ((s.setEng (engOf e)
      { s.eng (engOf e) with
        parked := false, walk := some ⟨s.dg (engOf e) DMA_FAULT.va, s.dg (engOf e) DMA_FAULT.side⟩ }).dmaState (engOf e) 1)) ∧
    ((s.eng (engOf e)).parked = true → s.abandonSoon (engOf e) = true → exec (.resume e) s = .next s) ∧
    (∀ c, (s.eng (engOf e)).parked = true → s.coreCtx (engCore (engOf e)) = some c →
      exec (.abandon e) s = .next ((s.markEnd (oEng (engOf e))).dmaError (engOf e) c 9 (s.curDesc (engOf e)))) ∧
    ((s.eng (engOf e)).parked = false → s.endedNow (oEng (engOf e)) = false →
      exec (.resume e) s = .next (s.rinc (uTile (keyDie (engOf e))) MMU_FAULTS.stray_resumes 1) ∧
      exec (.abandon e) s = .next (s.rinc (uTile (keyDie (engOf e))) MMU_FAULTS.stray_resumes 1)))) ∧
  (∀ (e : EngId) (w : CmdWord) (s : State) (c : Nat) (d : Desc) (pg : TlbEntry) (pa : Nat) (way : List Nat),
    s.mayRun (engOf e) w 3 1 = true → moveCheck s w = none → moveCount w = 1 → s.coreCtx (engCore (engOf e)) = some c →
    (s.eng (engOf e)).descIdx = 0 → (s.eng (engOf e)).off = 0 → (s.eng (engOf e)).descOk = false →
    d = descOf (s.word (csAt (engOf e) (moveDesc w)) 64) → d.check s c = none → d.sk = 0 → d.dk = 1 →
    d.flowEn = false → d.rows = 1 → tlbFind (s.eng (engOf e)).tlb c d.dst = some pg → pg.write = true →
    d.dst + d.len ≤ pg.va + pg.size → pa = pg.pa + (d.dst - pg.va) → s.paOk pa 1 = true →
    s.route c none (keyDie (engOf e)) (paTile pa) = some way → ∃ t, exec (.move e {}) s = .next t ∧
      t.net = s.net ++
        [{ path := bondOut (engCore (engOf e)) :: way, a := pa, tile := paTile pa, data := s.mem.bytes (csAt (engOf e) d.src) d.len
           ctx := c, eng := some (engOf e), dla := moveDesc w }] ∧
      t.mem = s.mem ∧ (t.eng (engOf e)).phase = .done ∧ (t.eng (engOf e)).flags = 0 ∧ t.ev = s.ev) ∧
  (∀ (s : State) (r : Run) (st : Nat), s.net = [r] → r.path = [st] → 0x10000 ≤ st → r.msg = none → r.flow = none → r.from_ = none →
    r.host = none → r.mess = false → 0 < r.data.length → r.data.length ≤ s.bondBytes ((st - 0x10000) / 2) →
    s.netTick.net = [] ∧ s.netTick.mem = s.mem.writes r.a r.data ∧
    (∀ a, (a < r.a ∨ r.a + r.data.length ≤ a) → s.netTick.mem.read a = s.mem.read a))

/-- TLB invalidation, the cache configuration, and the HBM rows. TLB_INV_START on a present tile sets the fields of the word; with its
start bit and none in progress it begins, and MMU_TLB_INV shows it pending; with one in progress, or without the bit, nothing else
changes. TLB_INV_COMPLETE of the invalidation in progress, once every access of a covered context has reached its completion point,
drops the TLB entries it covers, answers its ECP request if it has one, and starts the first that waits; before, and with none in
progress, nothing changes. MMU_CACHE_CFG_WRITE on a present tile clears the refused bit where it is written, and holds the size
asked for until the end of the tick, where a size other than the one in force is decided: with every context FREE the size is the new
one; with one not FREE the size stays, refused is set, 0x4501 is raised and memory is unchanged. HBM_TEMPERATURE_READ at a multiple
of 1,000 tk sets the stack's temperature in whole degrees and the row that it asks for. REFRESH at a multiple of 195 tk puts the
wanted row in force, with its event and mode when it changes, and issues a refresh unless the row is normal mode and the tick no
multiple of 390. SCRUB, one in each 24 hours, counts the corrected words, reports each uncorrectable word of the stack, and counts
the pass. (spec/07_memory_translation_dma.md) -/
def Obligations.CacheInvalidationAndHbmRows : Prop :=
  ((∀ (tile : Nat) (v : Word) (s : State), s.tileUp tile = true → ∃ u,
    u = (s.rs (uTile tile) MMU_TLB_INV.ctx (bitsOf v.toNat 0 6)).rs (uTile tile) MMU_TLB_INV.allCtx (bitsOf v.toNat 6 1) ∧
    exec (.tlbInvStart tile v) s = .next (if bitsOf v.toNat 7 1 = 1 ∧ s.tlbCur = none then
      u.startInv ⟨none, bitsOf v.toNat 0 6, bitsOf v.toNat 6 1 == 1⟩ else u) ∧
    (bitsOf v.toNat 7 1 = 1 → s.tlbCur = none →
      (u.startInv ⟨none, bitsOf v.toNat 0 6, bitsOf v.toNat 6 1 == 1⟩).rg seqHome MMU_TLB_INV.pending = 1)) ∧
  (∀ (r : TlbReq) (s : State), s.tlbCur = some r → s.quiet (fun c => r.all || c == r.ctx) = true → ∃ u v,
    u = { s.dropTlb (fun c => r.all || c == r.ctx) with tlbCur := none }.rs seqHome MMU_TLB_INV.pending 0 ∧
    v = (match r.hdr with
      | some h => u.reply h 0x26 0x06 0 []
      | none => u) ∧
    exec .tlbInvComplete s = .next (match v.tlbHeld with
      | [] => v
      | h :: rest => { v with tlbHeld := rest }.startInv h)) ∧
  (∀ s : State, (s.tlbCur = none ∨ ∃ r, s.tlbCur = some r ∧ s.quiet (fun c => r.all || c == r.ctx) = false) →
    exec .tlbInvComplete s = .next s)) ∧
  ((∀ (tile : Nat) (v : Word) (s : State), s.tileUp tile = true → ∃ u,
    u = (if bitsOf v.toNat 2 1 = 1 then s.clr (uTile tile) MMU_CACHE_CFG.refused else s) ∧
    exec (.mmuCacheCfgWrite tile v) s = .next { u with cacheReq := mput s.cacheReq tile (bitsOf v.toNat 0 2) }) ∧
  (∀ (tile n : Nat) (s : State), s.cacheReq = [(tile, n)] → n < 4 → n ≠ s.rg (uTile tile) MMU_CACHE_CFG.size →
    s.decideCaches.cacheReq = [] ∧
    (s.allFree = true → s.decideCaches.rg (uTile tile) MMU_CACHE_CFG.size = n ∧ s.decideCaches.ev = s.ev) ∧
    (s.allFree = false → s.decideCaches.rg (uTile tile) MMU_CACHE_CFG.size = s.rg (uTile tile) MMU_CACHE_CFG.size ∧
      s.decideCaches.rg (uTile tile) MMU_CACHE_CFG.refused = 1 ∧ s.decideCaches.mem = s.mem ∧
      s.decideCaches.ev = (s.raise 0x4501 (uTile tile)).ev)) ∧
  (∀ (stack : Nat) (q : Int) (s : State), s.tileUp (stack / 2) = true → s.tick % 1000 = 0 →
    ∃ t, exec (.hbmTemperatureRead stack q) s = .next t ∧
    t.rg (uTile (stack / 2)) MMU_HBM_STAT.temp (8 * (stack % 2)) = twos 8 (q / 4) ∧
    t.hbmOf stack = { s.hbmOf stack with want := hbmRow (s.hbmOf stack).want q } ∧ t.mem = s.mem ∧ t.ev = s.ev) ∧
  (∀ (stack : Nat) (s : State), s.tileUp (stack / 2) = true → s.tick % 195 = 0 → ∃ t, exec (.refresh stack) s = .next t ∧
    t.hbmOf stack = { s.hbmOf stack with
      row := (s.hbmOf stack).want
      refresh := (s.hbmOf stack).refresh + (if (s.hbmOf stack).want ≠ 0 ∨ s.tick % 390 = 0 then 1 else 0) } ∧
    ((s.hbmOf stack).want = (s.hbmOf stack).row → t.ev = s.ev ∧ t.regs = s.regs) ∧
    ((s.hbmOf stack).want ≠ (s.hbmOf stack).row →
      t.rg (uTile (stack / 2)) MMU_HBM_STAT.mode (8 * (stack % 2)) = min (s.hbmOf stack).want 2 ∧
      t.ev = (s.raise (if (s.hbmOf stack).want = 0 then 0x4403 else if (s.hbmOf stack).want = 1 then 0x4400
        else if (s.hbmOf stack).want = 2 then 0x4401 else 0x4402) (uTile (stack / 2)) stack).ev)) ∧
  (∀ (stack corrected : Nat) (bad : List Nat) (s : State), s.tileUp (stack / 2) = true →
    (s.hbmOf stack).scrubs ≤ s.tick / dayTk → ∃ u,
    u = ((s.rinc (uTile (stack / 2)) MMU_HBM_STAT.corrected corrected (8 * (stack % 2))).each
      (bad.filter (fun pa => paIsHbm pa && paStack pa == stack)) State.memError) ∧
    exec (.scrub stack corrected bad) s = .next (u.setHbm stack { u.hbmOf stack with scrubs := (u.hbmOf stack).scrubs + 1 })))

/-- Every tagged ECP request passes the checks of the receiving port in order. For each row that carries a tagged ECP request, with
its type and body bytes as Table 13-4 lays them out (for the register accesses, when no access of their tick comes before): on a
port that answers, what the codewords of its frame met is counted first; a datagram of bad length is dropped and counted as len;
else one of another magic or version is dropped and counted as fmt; else one that finds the part unclaimed, or a claim that completes
in its tick, or whose tag is not the HMAC of its bytes under the pairing key, is an authentication drop; else one whose sequence
number is not fresh is dropped and counted as replay; else its number is taken, and a body too short or a flags or reserved field
that is not 0 is dropped and counted as fmt; else the port is noted for notifications, a request that is still being executed is not
answered twice, and one whose reply is cached gets that reply once more. On a port that does not answer nothing changes.
(spec/13_host_ports.md, spec/05_sequencer_lease_and_failover.md) -/
def Obligations.EcpRequestsAreCheckedInOrder : Prop :=
  ∀ (i : Instr) (h : EcpHdr) (type : Nat) (body : List Byte) (s : State), ecpOf i = some (h, type, body) →
    (s.accessYields h.seq = false ∨ (type ≠ 0x12 ∧ type ≠ 0x13)) →
    (s.unitUp (uPort h.port) = false → exec i s = .next s) ∧
    (s.unitUp (uPort h.port) = true → ∀ v, v = s.countFec h.port h.rx →
      (lengthOk h = false → exec i s = .next (v.ecpDrop h HPT_ECP_DROP.len)) ∧
      (lengthOk h = true → (h.magic ≠ 0x5045 ∨ h.version ≠ 1) → exec i s = .next (v.ecpDrop h HPT_ECP_DROP.fmt)) ∧
      (lengthOk h = true → h.magic = 0x5045 → h.version = 1 →
        ((v.claim.claimed = false ∨ v.claimSoon = true ∨ h.tag ≠ hmac v.claim.key (ecpBytes h type body)) →
          exec i s = .next (v.authDrop h)) ∧
        (v.claim.claimed = true → v.claimSoon = false → h.tag = hmac v.claim.key (ecpBytes h type body) →
          (v.claim.seqFresh h.seq = false → exec i s = .next (v.ecpDrop h HPT_ECP_DROP.replay)) ∧
          (v.claim.seqFresh h.seq = true →
            ((h.short = true ∨ h.flags ≠ 0 ∨ h.rsv ≠ 0) →
              exec i s = .next (State.ecpDrop { v with claim := v.claim.seqTake h.seq } h HPT_ECP_DROP.fmt)) ∧
            (h.short = false → h.flags = 0 → h.rsv = 0 →
              ((s.ecpTaken h).executing h.reqId = true → exec i s = .next (s.ecpTaken h)) ∧
              ((s.ecpTaken h).executing h.reqId = false → ∀ e,
                (s.ecpTaken h).claim.cache.find? (fun e => e.out.reqId == h.reqId && e.rtype == type) = some e →
                exec i s = .next ((s.ecpTaken h).resend h e.out)))))))

/-- ADMIT, STOP, ABORT and EPOCH_SET reach the sequencer, or wait for one. An ECP request ADMIT, STOP or ABORT that runs: while a
sequencer holds the lease, ADMIT joins the end of the pending admissions with its operands and tick; STOP of a context number of
64 or more, or with forced 2 or more, is answered 2; STOP of a context that is RUNNING makes it STOPPING with code 0, at a safe
point or forced; a forced STOP of one that is STOPPING at a safe point, forwarded to the members of its plan, forces that stop with
code 0; any other STOP is answered 1; ABORT of a number of 64 or more is answered 2, of a FREE context 1, and of another one aborts
it for reason 0x16 and is answered 0. While none holds the lease, with fewer than 64 queued, each of the four requests joins the
queue; with 64 it is dropped and counted. An ECP request EPOCH_SET that runs while a sequencer holds the lease: with every context
FREE every present tile holds the epoch (modulo its width), LNK_CHAR holds the characteristic that follows from the new state, memory
and contexts are unchanged, and the reply is 0; with one that is not FREE the request is answered 1 and nothing else changes.
(spec/04_plans_and_the_sequencer.md, spec/05_sequencer_lease_and_failover.md, spec/13_host_ports.md, R124,
spec/12_ruino_link_layer.md) -/
def Obligations.ContextRequestsRun : Prop :=
  ((∀ (h : EcpHdr) (ctx iv sv root : Nat) (s u : State), s.ecpRuns (.admitPlan h ctx iv sv root) = true → u = s.ecpTaken h →
    u.acting.isSome = true →
    exec (.admitPlan h ctx iv sv root) s = .next { u with admits := s.admits ++ [⟨h, ctx, iv, sv, root, s.tick⟩] }) ∧
  (∀ (h : EcpHdr) (ctx forced : Nat) (s u : State), s.ecpRuns (.stop h ctx forced) = true → u = s.ecpTaken h → u.acting.isSome = true →
    ((64 ≤ ctx ∨ 2 ≤ forced) → exec (.stop h ctx forced) s = .next (u.genReply h 0x22 2)) ∧
    (ctx < 64 → forced < 2 → u.cstate ctx = cRunning → ∃ v, exec (.stop h ctx forced) s = .next (v.genReply h 0x22 0) ∧
      v = (stopCtx ctx (forced == 1) true u).1 ∧ v.cstate ctx = cStopping) ∧
    (ctx < 64 → forced = 1 → u.cstate ctx = cStopping → (u.ctx ctx).forced = false →
      exec (.stop h ctx forced) s = .next (((u.tellMembers ctx 3).forceStop ctx).genReply h 0x22 0)) ∧
    (ctx < 64 → forced < 2 → u.cstate ctx ≠ cRunning →
      ¬ (forced = 1 ∧ u.cstate ctx = cStopping ∧ (u.ctx ctx).forced = false) →
      exec (.stop h ctx forced) s = .next (u.genReply h 0x22 1))) ∧
  (∀ (h : EcpHdr) (ctx : Nat) (s u : State), s.ecpRuns (.abort h ctx) = true → u = s.ecpTaken h → u.acting.isSome = true →
    (64 ≤ ctx → exec (.abort h ctx) s = .next (u.genReply h 0x23 2)) ∧
    (ctx < 64 → u.cstate ctx = cFree → exec (.abort h ctx) s = .next (u.genReply h 0x23 1)) ∧
    (ctx < 64 → u.cstate ctx ≠ cFree → exec (.abort h ctx) s = .next ((u.abortCtx ctx 0x16).genReply h 0x23 0))) ∧
  (∀ (h : EcpHdr) (i : Instr) (s u : State), (∃ ctx iv sv root, i = .admitPlan h ctx iv sv root) ∨ (∃ ctx f, i = .stop h ctx f) ∨
      (∃ ctx, i = .abort h ctx) ∨ (∃ e, i = .epochSet h e) → s.ecpRuns i = true → u = s.ecpTaken h → u.acting = none →
    (s.claim.queued.length < 64 → exec i s = .next { u with claim := { u.claim with queued := s.claim.queued ++ [i] } }) ∧
    (64 ≤ s.claim.queued.length → exec i s = .next { u with claim := { u.claim with dropped := s.claim.dropped + 1 } }))) ∧
  (∀ (h : EcpHdr) (epoch : Nat) (s u : State), s.ecpRuns (.epochSet h epoch) = true → u = s.ecpTaken h → u.acting.isSome = true →
    (u.allFree = true → ∃ v : State, exec (.epochSet h epoch) s = .next (v.genReply h 0x25 0) ∧
      (∀ t, t < u.nTiles → u.tileUp t = true → v.rg (uTile t) SEQ_EPOCH.epoch = epoch % 2 ^ 32) ∧
      v.rg 0 LNK_CHAR.value = v.charOf ownMajor ownMinor % 2 ^ LNK_CHAR.value.w ∧ v.mem = s.mem ∧ v.ctxs = s.ctxs) ∧
    (u.allFree = false → exec (.epochSet h epoch) s = .next (u.genReply h 0x25 1)))

/-- ADMISSION_EVALUATION, CYCLE_START, CYCLE_DONE and SAVE_COMPLETE. ADMISSION_EVALUATION, with nothing of its tick before it: with a
sequencer that holds the lease, at a cycle boundary of a RUNNING context or with none RUNNING, it empties the pending admissions and
judges each in order; else nothing changes. CYCLE_START at the start tick, less the part of a resumed cycle that is skipped, at a
multiple of 16, of an admitted context whose members are ready, or of a RUNNING one whose next cycle has not started: the context is
RUNNING with its cycle started, memory is unchanged, and each engine of the cores of a context that is not resumed stands before its
stream's first command with nothing fetched. CYCLE_DONE, with nothing of its tick before it, of a started cycle that is over: with a
sequencer that holds the lease it notes the overruns, counts the cycle, and frees the context when its cycles are done, leaves a stop
at safe point 0 to its save, and else fixes the next start; with none it keeps its tick for the next holder. SAVE_COMPLETE of a
STOPPING context whose engines have all stopped, with no uncorrectable word in what it saves, saves its cores, releases them and
leaves the context PREEMPTED with one more pre-emption counted; with one it counts and reports that word and aborts the context for
reason 0x11. (spec/04_plans_and_the_sequencer.md, spec/05_sequencer_lease_and_failover.md) -/
def Obligations.ContextRowsRun : Prop :=
  (∀ (ecc : EccHits) (copyTk : Nat) (s : State), s.yields (.admissionEvaluation ecc copyTk) = false →
    (s.acting.isSome = true → s.evaluationTime = true → exec (.admissionEvaluation ecc copyTk) s =
      .next (State.each { s with admits := [] } s.admits (fun s a => s.judge ecc.mem copyTk a))) ∧
    ((s.acting = none ∨ s.evaluationTime = false) → exec (.admissionEvaluation ecc copyTk) s = .next s)) ∧
  (∀ (ctx : Nat) (s : State), ctx < 64 → s.tick % 16 = 0 → s.tick = s.cg SEQ_CTX_START.start ctx + (s.ctx ctx).skip →
    ((s.cstate ctx = cAdmitted ∧ s.membersReady (s.ctx ctx).plan = true) ∨ (s.cstate ctx = cRunning ∧ (s.ctx ctx).started = false)) →
    ∃ t, exec (.cycleStart ctx) s = .next t ∧ t.cstate ctx = cRunning ∧ (t.ctx ctx).started = true ∧ t.mem = s.mem ∧
      ((s.ctx ctx).resumed = false → ∀ ck ∈ (s.ctx ctx).plan.coreKeys, ∀ k ∈ coreEngs ck, (t.eng k).queue = [] ∧
        (t.eng k).phase = .idle ∧ (t.eng k).fetched = 0 ∧ (t.eng k).base = s.eg k CORE_STREAM.base ∧
        (t.eng k).count = s.eg k CORE_STREAM.count)) ∧
  (∀ (ctx : Nat) (s : State), s.yields (.cycleDone ctx) = false → (s.ctx ctx).started = true → s.cycleOver ctx = true →
    (s.cstate ctx = cRunning ∨ (s.cstate ctx = cStopping ∧ (s.ctx ctx).forced = false ∧ (s.ctx ctx).target = 0)) →
    (s.acting = none → exec (.cycleDone ctx) s = .next (s.setCtx ctx { s.ctx ctx with doneAt := some ((s.ctx ctx).doneAt.getD s.tick) })) ∧
    (s.acting.isSome = true → ∃ (n : Nat) (v u : State), v = (s.noteOverrun ctx).markEnd (oCycle ctx) ∧
      n = v.cg SEQ_CTX_STATE.cycles ctx + 1 ∧
      u = (v.cs SEQ_CTX_STATE.cycles ctx n).setCtx ctx { s.ctx ctx with started := false, doneAt := none } ∧
      exec (.cycleDone ctx) s = .next (if (s.ctx ctx).plan.cycles ≠ 0 ∧ n ≥ (s.ctx ctx).plan.cycles then
        (u.sendCopy .cycle [ctx]).freeCtx ctx 0
        else if u.cstate ctx = cStopping then u.sendCopy .cycle [ctx] else u.scheduleNext ctx ((s.ctx ctx).doneAt.getD s.tick)))) ∧
  (∀ (ctx : Nat) (ecc : EccHits) (s : State), ctx < 64 → s.acting.isSome = true → s.cstate ctx = cStopping → s.allStopped ctx = true →
    (saveHit (s.ctx ctx) ecc.core = none → ∃ t, exec (.saveComplete ctx ecc) s = .next t ∧ t.cstate ctx = cPreempted ∧
      (t.ctx ctx).saved = (s.ctx ctx).plan.coreKeys.map (fun ck => s.saveCore (s.ctx ctx) ck) ∧
      (∀ k, (t.core k).ctx ≠ some ctx) ∧
      t.cg SEQ_CTX_PREEMPT.count ctx = min (s.cg SEQ_CTX_PREEMPT.count ctx + 1) (2 ^ SEQ_CTX_PREEMPT.count.w - 1)) ∧
    (∀ ck la, saveHit (s.ctx ctx) ecc.core = some (ck, la) → exec (.saveComplete ctx ecc) s = .next
      (((s.rinc (uDie (ck / 64)) CORE_ECC.uncorrected 1 (dCore (ck % 64))).raise 0x4100 (uDie (ck / 64)) 0 0 la).abortCtx ctx 0x11)))

/-- The next start is the smallest tick that R128 allows, and the slip is its distance from the planned end. CYCLE_DONE, with nothing
of its tick before it, of a RUNNING context whose started cycle is over and was not its last, under a sequencer that has no tick
before which it may not start (R165), with the next start below 2^64 (the width of the register) and d_k the tick at which the cycle
was done: the new start t is at least e_k = s_k + P and at least d_k + 16, t − e_k is a multiple of 16, and every tick with these
three properties is at least t; the slip count grows by t − e_k (saturating at its width), so that no cycle is shortened. (R128) -/
def Obligations.NextStartIsTheSmallestTick : Prop :=
  ∀ (ctx tile d : Nat) (s : State), ctx < 64 → s.yields (.cycleDone ctx) = false → s.acting = some tile → (s.seq tile).notBefore = 0 →
    (s.ctx ctx).started = true → s.cycleOver ctx = true → s.cstate ctx = cRunning → d = (s.ctx ctx).doneAt.getD s.tick →
    ((s.ctx ctx).plan.cycles = 0 ∨ s.cg SEQ_CTX_STATE.cycles ctx + 1 < (s.ctx ctx).plan.cycles) →
    s.cg SEQ_CTX_START.start ctx + (s.ctx ctx).plan.period + d + 32 < 2 ^ 64 → ∃ t start,
      exec (.cycleDone ctx) s = .next t ∧ t.cg SEQ_CTX_START.start ctx = start ∧
      s.cg SEQ_CTX_START.start ctx + (s.ctx ctx).plan.period ≤ start ∧ d + 16 ≤ start ∧
      (start - (s.cg SEQ_CTX_START.start ctx + (s.ctx ctx).plan.period)) % 16 = 0 ∧
      (∀ x, s.cg SEQ_CTX_START.start ctx + (s.ctx ctx).plan.period ≤ x → d + 16 ≤ x →
        (x - (s.cg SEQ_CTX_START.start ctx + (s.ctx ctx).plan.period)) % 16 = 0 → start ≤ x) ∧
      (s.cg SEQ_CTX_SLIP.slip_tk ctx < 2 ^ SEQ_CTX_SLIP.slip_tk.w → t.cg SEQ_CTX_SLIP.slip_tk ctx =
        min (s.cg SEQ_CTX_SLIP.slip_tk ctx + (start - (s.cg SEQ_CTX_START.start ctx + (s.ctx ctx).plan.period)))
          (2 ^ SEQ_CTX_SLIP.slip_tk.w - 1))

/-- Beacons, acknowledgements and expiry at the holder and the standby. BEACON_SEND of the holder at a multiple of 100 tk sends one
beacon on each path with tick, epoch, holder, copy_seq and CRC. ACKNOWLEDGEMENT of the holder's epoch sets its own expiry, notes its
tick and takes back the ack alarm; ACK_MISSING 400 tk after the last one raises 0x9404 once. OWN_EXPIRY at or after the own expiry ends
the role. A BEACON with a bad CRC, with nothing of its tick before it, changes nothing at a present tile; a good one of a lower epoch
than seen raises 0x9407; one of the standby's is noted with its path. BEACON_CHECK of beacon tick b at b + 90 on the standby, with
nothing of its tick before it, counts the paths: with neither beacon received and both counts at 3, with the copy ready and no loss
raised yet, it finds both paths silent, raises 0x9402 and asks the keeper with TAKE; with one received and the count of the other,
not declared faulty, at 3, it finds exactly that one silent and asks with ARBITRATE. (spec/05_sequencer_lease_and_failover.md) -/
def Obligations.HolderAndStandbyRows : Prop :=
  (∀ (tile : Nat) (s : State), s.acting = some tile → s.tick % 100 = 0 → ∃ b1 b2 : BeaconMsg,
    exec (.beaconSend tile) s = .next (s.say [.beacon b1, .beacon b2]) ∧ b1.path = .net ∧ b2.path = .ring ∧ b1.crc = beaconCrc b1 ∧
    b2.crc = beaconCrc b2 ∧ b1.tickLo = s.tick % 2 ^ 32 ∧ b1.holder = tile ∧ b1.epoch = s.rg (uTile tile) SEQ_LEASE.epoch ∧
    b1.copySeq = s.rg (uTile tile) SEQ_BEACON.copy_seq ∧ b2.tickLo = b1.tickLo ∧ b2.holder = tile ∧ b2.epoch = b1.epoch ∧
    b2.copySeq = b1.copySeq) ∧
  (∀ (tile expiry : Nat) (s : State), s.acting = some tile → ∃ t,
    exec (.acknowledgement tile (s.rg (uTile tile) SEQ_LEASE.epoch) expiry) s = .next t ∧
    t.seq tile = { s.seq tile with ownExp := expiry, lastAck := s.tick, ackRaised := false } ∧ t.ev = s.ev ∧ t.mem = s.mem) ∧
  (∀ (tile : Nat) (s : State), s.acting = some tile → s.tick ≥ (s.seq tile).lastAck + 400 → (s.seq tile).ackRaised = false →
    exec (.ackMissing tile) s = .next ((s.setSeq tile { s.seq tile with ackRaised := true }).raise 0x9404 (uTile tile))) ∧
  (∀ (tile : Nat) (s : State), s.tileUp tile = true → s.rg (uTile tile) SEQ_ROLE.lease_held = 1 → s.tick ≥ (s.seq tile).ownExp →
    ∃ t, exec (.ownExpiry tile) s = .next t ∧ t.rg (uTile tile) SEQ_ROLE.role = 0 ∧ t.rg (uTile tile) SEQ_ROLE.lease_held = 0 ∧
      t.seqs = s.seqs ∧ t.ev = s.ev ∧ t.mem = s.mem) ∧
  (∀ (tile : Nat) (b : BeaconMsg) (s : State), s.yields (.beacon (some tile) b) = false → s.tileUp tile = true →
    (b.crc ≠ beaconCrc b → exec (.beacon (some tile) b) s = .next s) ∧
    (b.crc = beaconCrc b → b.epoch < s.rg (uTile tile) SEQ_LEASE.epoch →
      exec (.beacon (some tile) b) s = .next (s.raise 0x9407 (uTile tile))) ∧
    (b.crc = beaconCrc b → s.rg (uTile tile) SEQ_LEASE.epoch ≤ b.epoch → s.rg (uTile tile) SEQ_ROLE.role = 2 → ∃ t,
      exec (.beacon (some tile) b) s = .next t ∧ t.ev = s.ev ∧
      t.seq tile = { s.seq tile with got := (s.beaconTick b, b.path) :: (s.seq tile).got.take 31 })) ∧
  (∀ (tile b : Nat) (s : State), s.yields (.beaconCheck tile b) = false → s.tileUp tile = true →
    s.rg (uTile tile) SEQ_ROLE.role = 2 → b % 100 = 0 → s.tick = b + 90 →
    ((s.seq tile).got.contains (b, .net) = false → (s.seq tile).got.contains (b, .ring) = false → (s.seq tile).faultNet = false →
      (s.seq tile).faultRing = false → s.rg (uTile tile) SEQ_BEACON.miss_net = 3 → s.rg (uTile tile) SEQ_BEACON.miss_ring = 3 →
      s.rg (uTile tile) SEQ_BEACON.ready = 1 → (s.seq tile).lostRaised = false → ∃ t, exec (.beaconCheck tile b) s = .next t ∧
        t.lease.sent = s.lease.sent ++ [.take tile] ∧ t.ev = (s.raise 0x9402 (uTile tile)).ev ∧
        (t.seq tile).silentNet = true ∧ (t.seq tile).silentRing = true ∧ (t.seq tile).lostRaised = true) ∧
    ((s.seq tile).got.contains (b, .net) = false → (s.seq tile).got.contains (b, .ring) = true → (s.seq tile).faultNet = false →
      s.rg (uTile tile) SEQ_BEACON.miss_net = 3 → (s.seq tile).silentNet = false → ∃ t, exec (.beaconCheck tile b) s = .next t ∧
        t.lease.sent = s.lease.sent ++ [.arbitrate tile .net] ∧ t.ev = s.ev ∧ (t.seq tile).silentNet = true ∧
        (t.seq tile).silentRing = false) ∧
    ((s.seq tile).got.contains (b, .net) = true → (s.seq tile).got.contains (b, .ring) = false → (s.seq tile).faultRing = false →
      s.rg (uTile tile) SEQ_BEACON.miss_ring = 3 → (s.seq tile).silentRing = false → ∃ t, exec (.beaconCheck tile b) s = .next t ∧
        t.lease.sent = s.lease.sent ++ [.arbitrate tile .ring] ∧ t.ev = s.ev ∧ (t.seq tile).silentRing = true ∧
        (t.seq tile).silentNet = false))

/-- Renewal, expiry, TAKE, GRANT and ARBITRATE at the keeper. In a part that has not stopped safely, each row with nothing of its tick
before it: a BEACON at the keeper of good CRC and of the epoch and holder of a lease that is held and not expired renews the expiry to
at least the beacon's tick + 3,200 and never earlier than it was, and is acknowledged with it; a TAKE that is held is denied then, and
no longer held. LEASE_EXPIRY at or after the expiry of a held lease takes it and raises 0x9400. A TAKE of a present tile that the
light list names is held if none is. GRANT of a held TAKE of a present tile, not before 200 tk past the expiry, gives the holder's
place and the next epoch to that tile with an expiry 3,200 tk from now, announces the epoch and raises 0x9401. ARBITRATE of a present
tile that the light list names, with no TAKE held, is answered STAY, with the silent path faulty, while the last beacon of either path
is at most 400 tk old, and else is taken as a TAKE. (spec/05_sequencer_lease_and_failover.md) -/
def Obligations.KeeperDecidesTheLease : Prop :=
  (∀ (b : BeaconMsg) (s : State), s.yields (.beacon none b) = false → s.safeStopped = false → b.crc = beaconCrc b →
    b.epoch = s.rg 0 KPR_LEASE.epoch → b.holder = s.rg 0 KPR_LEASE.holder → s.rg 0 KPR_LEASE.held = 1 →
    s.tick < s.rg 0 KPR_LEASE_EXP.expiry → ∃ t e, exec (.beacon none b) s = .next t ∧
      e = Nat.max (s.rg 0 KPR_LEASE_EXP.expiry) (s.beaconTick b + 3200) ∧
      t.rg 0 KPR_LEASE_EXP.expiry = e % 2 ^ KPR_LEASE_EXP.expiry.w ∧ t.rg 0 KPR_LEASE.holder = s.rg 0 KPR_LEASE.holder ∧
      t.rg 0 KPR_LEASE.epoch = s.rg 0 KPR_LEASE.epoch ∧ t.lease.take = none ∧
      (s.lease.take = none → t.lease.sent = s.lease.sent ++ [.ack b.holder b.epoch e] ∧ t.ev = s.ev) ∧
      (∀ tile at_, s.lease.take = some (tile, at_) → t.rg 0 KPR_LEASE.take_pending = 0 ∧
        t.lease.sent = s.lease.sent ++ [.ack b.holder b.epoch e, .deny tile] ∧ t.ev = (s.raise 0x9403 0 0 0 3).ev)) ∧
  (∀ s : State, s.yields .leaseExpiry = false → s.rg 0 KPR_LEASE.held = 1 → s.tick ≥ s.rg 0 KPR_LEASE_EXP.expiry →
    s.safeStopped = false → exec .leaseExpiry s = .next ((s.rs 0 KPR_LEASE.held 0).raise 0x9400 0)) ∧
  (∀ (tile : Nat) (s : State), s.yields (.take tile) = false → s.safeStopped = false → s.lease.take = none → s.tileUp tile = true →
    (tile = s.light.primary ∨ tile = s.light.standby) → ∃ t, exec (.take tile) s = .next t ∧
    t.lease.take = some (tile, s.tick) ∧ t.rg 0 KPR_LEASE.take_pending = 1 ∧ t.rg 0 KPR_LEASE.holder = s.rg 0 KPR_LEASE.holder ∧
    t.rg 0 KPR_LEASE.epoch = s.rg 0 KPR_LEASE.epoch) ∧
  (∀ (tile at_ : Nat) (s : State), s.yields .grant = false → s.lease.take = some (tile, at_) → s.safeStopped = false →
    at_ ≤ s.tick → s.rg 0 KPR_LEASE_EXP.expiry + 200 ≤ s.tick → s.tileUp tile = true → tile < 8 → s.tick + 3200 < 2 ^ 64 →
    ∃ t, exec .grant s = .next t ∧
      t.rg 0 KPR_LEASE.holder = tile ∧ t.rg 0 KPR_LEASE.epoch = (s.rg 0 KPR_LEASE.epoch + 1) % 2 ^ 32 ∧ t.rg 0 KPR_LEASE.held = 1 ∧
      t.rg 0 KPR_LEASE_EXP.expiry = s.tick + 3200 ∧ t.lease.take = none ∧ t.rg 0 KPR_LEASE.take_pending = 0 ∧
      t.lease.sent = s.lease.sent ++ [.announce ((s.rg 0 KPR_LEASE.epoch + 1) % 2 ^ 32)] ∧ t.seqs = s.seqs ∧
      ∃ detail, t.ev = (s.raise 0x9401 0 0 0 detail).ev) ∧
  (∀ (tile : Nat) (p : Path) (s : State), s.yields (.arbitrate tile p) = false → s.safeStopped = false → s.lease.take = none →
    s.tileUp tile = true → (tile = s.light.primary ∨ tile = s.light.standby) →
    ((∀ b, s.lease.lastNet = some b → b + 400 < s.tick) → (∀ b, s.lease.lastRing = some b → b + 400 < s.tick) →
      exec (.arbitrate tile p) s = .next (takeEff tile s)) ∧
    (∀ b, (s.lease.lastNet = some b ∨ s.lease.lastRing = some b) → s.tick ≤ b + 400 → ∃ t, exec (.arbitrate tile p) s = .next t ∧
      t.lease.sent = s.lease.sent ++ [.stay tile p] ∧ t.lease.take = none ∧ t.ev = (s.raise 0x9403 0 0 0 (pathBit p + 1)).ev ∧
      (p = .net → (t.seq tile).faultNet = true) ∧ (p = .ring → (t.seq tile).faultRing = true)))

/-- Announcements, reports and the state copy. EPOCH_ANNOUNCEMENT, with nothing of its tick before it, of a lower epoch than a present
tile has seen raises 0x9407 and changes nothing else; of another one sets the epoch and reports the contexts that run there, and the
tile that the keeper names as holder of it, without the lease so far, takes over. AGENT_REPORT at the holder of a later start than
the one held, of a die that the context uses, adopts that start and counts the cycle. COPY_RECORD, with nothing of its tick before it,
at a present tile that the light list names and that does not hold the lease: one of a lower lease epoch than seen raises 0x9407; a
snapshot replaces the copy, makes the tile standby and ready, and is acknowledged; another record in order is applied and
acknowledged; one out of order is acknowledged alone. COPY_RECORD_ACKNOWLEDGEMENT at the holder, after a loss of the standby, brings a
fresh snapshot with nothing else unacknowledged; else it removes the record from those unacknowledged, and sets ready if that was a
snapshot. STANDBY_LOST with a record unacknowledged for 1,000 tk raises 0x9405 and clears ready. (That a record out of order is
acknowledged is the model's reading, log 113.) (spec/05_sequencer_lease_and_failover.md) -/
def Obligations.TakeoverRows : Prop :=
  (∀ (tile epoch : Nat) (s : State), s.yields (.epochAnnouncement tile epoch) = false → s.tileUp tile = true →
    (epoch < s.rg (uTile tile) SEQ_LEASE.epoch → exec (.epochAnnouncement tile epoch) s = .next (s.raise 0x9407 (uTile tile))) ∧
    (s.rg (uTile tile) SEQ_LEASE.epoch ≤ epoch → ∃ u, u = (s.rs (uTile tile) SEQ_LEASE.epoch epoch).say
        ((s.rs (uTile tile) SEQ_LEASE.epoch epoch).reports tile) ∧
      exec (.epochAnnouncement tile epoch) s = .next (if tile = u.rg 0 KPR_LEASE.holder ∧ epoch = u.rg 0 KPR_LEASE.epoch ∧
        u.rg 0 KPR_LEASE.held = 1 ∧ u.rg (uTile tile) SEQ_ROLE.lease_held = 0 then u.takeOver tile else u))) ∧
  (∀ (tile agent ctx start : Nat) (fin : Bool) (dl : List (Nat × Nat)) (s : State), ctx < 64 → s.acting = some tile →
    s.holdsCores ctx = true → s.cg SEQ_CTX_START.start ctx < start → start < 2 ^ 64 → (s.ctx ctx).plan.usesDie agent = true → ∃ t,
      exec (.agentReport tile agent ctx start fin dl) s = .next t ∧ t.cg SEQ_CTX_START.start ctx = start ∧
      t.cg SEQ_CTX_STATE.cycles ctx = (s.cg SEQ_CTX_STATE.cycles ctx + 1) % 2 ^ SEQ_CTX_STATE.cycles.w ∧ t.ctxs = s.ctxs ∧
      t.mem = s.mem) ∧
  (∀ (tile : Nat) (m : CopyMsg) (s : State), s.yields (.copyRecord tile m) = false → s.tileUp tile = true →
    (tile = s.light.primary ∨ tile = s.light.standby) → s.acting ≠ some tile → m.seq < 2 ^ 16 →
    (m.epoch < s.rg (uTile tile) SEQ_LEASE.epoch → exec (.copyRecord tile m) s = .next (s.raise 0x9407 (uTile tile))) ∧
    (s.rg (uTile tile) SEQ_LEASE.epoch ≤ m.epoch → ∃ t, exec (.copyRecord tile m) s = .next t ∧
      t.lease.sent = s.lease.sent ++ [.copyAck tile m.seq s.copyPath] ∧ t.mem = s.mem ∧ t.ctxs = s.ctxs ∧ t.ev = s.ev ∧
      (m.kind = .snapshot → t.rg (uTile tile) SEQ_ROLE.role = 2 ∧ t.rg (uTile tile) SEQ_BEACON.ready = 1 ∧
        t.rg (uTile tile) SEQ_BEACON.copy_seq = m.seq ∧
        t.seq tile = { s.seq tile with copies := m.ctxs.foldl (fun l c => mput l c.ctx c) [], copyEpoch := m.planEpoch }) ∧
      (m.kind ≠ .snapshot → s.rg (uTile tile) SEQ_BEACON.ready = 1 →
        m.seq = (s.rg (uTile tile) SEQ_BEACON.copy_seq + 1) % 2 ^ 16 → t.rg (uTile tile) SEQ_BEACON.copy_seq = m.seq ∧
        t.seq tile = { s.seq tile with copies := applyCopy m (s.seq tile).copies }) ∧
      (m.kind ≠ .snapshot → (s.rg (uTile tile) SEQ_BEACON.ready ≠ 1 ∨
        m.seq ≠ (s.rg (uTile tile) SEQ_BEACON.copy_seq + 1) % 2 ^ 16) → t.seqs = s.seqs))) ∧
  (∀ (tile n : Nat) (s : State), s.acting = some tile →
    ((s.seq tile).standbyLost = true → exec (.copyRecordAcknowledgement tile n) s = .next ((s.setSeq tile { s.seq tile with
      unacked := [], readyView := false, standbyLost := false }).sendCopy .snapshot allCtx)) ∧
    ((s.seq tile).standbyLost = false → ∃ t snap, exec (.copyRecordAcknowledgement tile n) s = .next t ∧
      snap = (s.seq tile).unacked.any (fun r => r.msg.seq == n && r.msg.kind == .snapshot) ∧
      t.seq tile = { s.seq tile with
        unacked := (s.seq tile).unacked.filter (fun r => r.msg.seq != n), readyView := (s.seq tile).readyView || snap } ∧
      (snap = true → t.rg (uTile tile) SEQ_BEACON.ready = 1) ∧ (snap = false → t.regs = s.regs) ∧ t.ctxs = s.ctxs ∧ t.mem = s.mem)) ∧
  (∀ (tile : Nat) (r : CopyOut) (s : State), s.acting = some tile → (s.seq tile).standbyLost = false → r ∈ (s.seq tile).unacked →
    s.tick ≥ r.at_ + 1000 → exec (.standbyLost tile) s = .next (((s.setSeq tile { s.seq tile with
      readyView := false, standbyLost := true }).rs (uTile tile) SEQ_BEACON.ready 0).raise 0x9405 (uTile tile)))

/-- SRV_OPEN, SRV_CLOSE, SRV_REQ, SRV_ACK, SRV_RESEND and SRV_CANCEL. A serving request that runs: SRV_OPEN whose code is 0 opens the
instance its header describes, with its late and stray registers 0, lets its service wait for its first candidates, and is answered 0;
another code is answered and opens nothing. SRV_CLOSE of an open instance closes it at the next window; of none it changes nothing
more. SRV_REQ with no open instance is answered 1; a fragment that is refused is answered with its code, and the request so far is
forgotten, but for code 2; one that is taken joins the queue (the last one), answered with the number of requests ahead, or the
assembly. SRV_ACK of a request that the service knows raises its acknowledged index, never above what was sent; SRV_RESEND sends what
was generated and sent again, from the index or the acknowledged one, and the end of an ended request; SRV_CANCEL marks the request;
each of the three counts a stray for a request the service does not know, where an instance is open.
(spec/08_token_serving.md, spec/13_host_ports.md) -/
def Obligations.ServingRequestsRun : Prop :=
  (∀ (h : EcpHdr) (ctx tile va : Nat) (s u : State), s.ecpRuns (.srvOpen h ctx tile va) = true → u = s.ecpTaken h →
    ((u.openCode ctx tile va).1 ≠ 0 → exec (.srvOpen h ctx tile va) s =
      .next (u.reply h 0x40 0x41 (u.openCode ctx tile va).1 (le 1 tile ++ le 1 (u.openCode ctx tile va).1))) ∧
    ((u.openCode ctx tile va).1 = 0 → ∃ v : State,
      exec (.srvOpen h ctx tile va) s = .next ((v.servWait tile).reply h 0x40 0x41 0 (le 1 tile ++ le 1 0)) ∧
      v.serv tile = { (u.openCode ctx tile va).2 with done := (s.serv tile).done, lastE := mget s.energy.acct ctx 0 } ∧
      v.rg (uTile tile) SRV_STATUS.stray = 0 ∧ v.rg (uTile tile) SRV_LATE.steps = 0 ∧ v.rg (uTile tile) SRV_LATE.max_tk = 0 ∧
      v.mem = s.mem ∧ v.ctxs = s.ctxs ∧ v.ev = s.ev)) ∧
  (∀ (h : EcpHdr) (tile : Nat) (s : State), s.ecpRuns (.srvClose h tile) = true →
    ((s.srvCtx tile).isSome = true →
      exec (.srvClose h tile) s = .next ((s.ecpTaken h).setServ tile { s.serv tile with closing := true })) ∧
    (s.srvCtx tile = none → exec (.srvClose h tile) s = .next (s.ecpTaken h))) ∧
  (∀ (h : EcpHdr) (r : SrvFrag) (s u : State), s.ecpRuns (.srvReq h r) = true → u = s.ecpTaken h →
    (s.srvCtx r.tile = none → exec (.srvReq h r) s = .next (u.reqReply h r 1 0)) ∧
    ((s.srvCtx r.tile).isSome = true →
      (∀ code, (s.serv r.tile).takeFrag h r s.tick = .inr code → ∃ t : State, exec (.srvReq h r) s = .next (t.reqReply h r code 0) ∧
        t = u.setServ r.tile { s.serv r.tile with
          asm := if code = 2 then (s.serv r.tile).asm else (s.serv r.tile).asm.filter (fun x => x.reqId != r.reqId) }) ∧
      (∀ q, (s.serv r.tile).takeFrag h r s.tick = .inl q →
        (r.flags % 2 = 1 → exec (.srvReq h r) s = .next ((u.setServ r.tile { s.serv r.tile with
          asm := (s.serv r.tile).asm.filter (fun x => x.reqId != r.reqId)
          queue := (s.serv r.tile).queue ++ [q] }).reqReply h r 0 (s.serv r.tile).queue.length)) ∧
        (r.flags % 2 = 0 → exec (.srvReq h r) s = .next ((u.setServ r.tile { s.serv r.tile with
          asm := (s.serv r.tile).asm.filter (fun x => x.reqId != r.reqId) ++ [q] }).reqReply h r 0 0))))) ∧
  (∀ (h : EcpHdr) (tile id index : Nat) (s : State), s.ecpRuns (.srvAck h tile id index) = true →
    (s.serv tile).knows id = true → exec (.srvAck h tile id index) s = .next ((s.ecpTaken h).setServ tile ((s.serv tile).update id
      (fun r => { r with acked := Nat.min (Nat.max r.acked index) r.sent })))) ∧
  (∀ (h : EcpHdr) (tile id index : Nat) (s : State), s.ecpRuns (.srvResend h tile id index) = true →
    (s.serv tile).knows id = true → exec (.srvResend h tile id index) s = .next ((s.ecpTaken h).each
      ((((s.serv tile).active.map (·.2)) ++ (s.serv tile).done).filter (fun r => r.reqId == id)) (fun s r =>
        (s.sendToks tile { r with gen := r.gen.take r.sent } (Nat.max index r.acked)).sendEnd tile r))) ∧
  (∀ (h : EcpHdr) (tile id : Nat) (s : State), s.ecpRuns (.srvCancel h tile id) = true →
    (s.serv tile).knows id = true → exec (.srvCancel h tile id) s = .next ((s.ecpTaken h).setServ tile
      ((s.serv tile).update id (fun r => { r with cancel := true })))) ∧
  (∀ (h : EcpHdr) (i : Instr) (tile id : Nat) (s : State),
    (∃ index, i = .srvAck h tile id index) ∨ (∃ index, i = .srvResend h tile id index) ∨ i = .srvCancel h tile id →
    s.ecpRuns i = true → (s.serv tile).knows id = false → exec i s = .next (if (s.srvCtx tile).isSome = true then
      (s.ecpTaken h).rinc (uTile tile) SRV_STATUS.stray 1 else s.ecpTaken h))

/-- WINDOW_PROCEDURE and the timed ends of fragments, tokens and retention. WINDOW_PROCEDURE at a present tile whose instance serves a
RUNNING or STOPPING context, and whose wait for candidates has been released, runs the whole window, timed from that release; else it
changes nothing. In the window, a slot's request that was cancelled ends with reason 3, else with 6 while the instance closes; else,
after a step that it ran, its sampled token joins what it generated, ends it with 0 if it is a stop token, else with 1 when as many as
it may are generated, and is sent with the others once a chunk is unsent; a NaN candidate raises 0x8601 and ends it with 5; after a
step that only fed it, only its steps are counted. A fragment that is not followed for 10,000,000 tk is forgotten; unsent tokens are
sent 1,000 tk after the oldest; an ended request is retained for 10,000,000 tk. (spec/08_token_serving.md) -/
def Obligations.ServingWindowRuns : Prop :=
  (∀ (tile c r : Nat) (s : State), s.srvCtx tile = some c → (s.serv tile).released = some r → s.tileUp tile = true →
    (s.cstate c = cRunning ∨ s.cstate c = cStopping) →
    exec (.windowProcedure tile) s = .next (windowEff tile r (s.setServ tile { s.serv tile with released := none }))) ∧
  (∀ (tile : Nat) (s : State), (s.srvCtx tile = none ∨ s.tileUp tile = false ∨ (s.serv tile).released = none ∨
      ∃ c, s.srvCtx tile = some c ∧ s.cstate c ≠ cRunning ∧ s.cstate c ≠ cStopping) →
    exec (.windowProcedure tile) s = .next s) ∧
  (∀ (t slot x : Nat) (r : SrvRequest) (s : State), mfind (s.serv t).active slot = some r → r.cancel = false →
    (s.serv t).closing = false → r.run = true → sampleToken r (s.candsOf (s.serv t) slot) r.gen.length = some x → ∀ r',
    r' = { r with
      steps := r.steps + 1
      gen := r.gen ++ [x]
      unsent := some (r.unsent.getD s.tick) } →
    ((r.stops.contains x = true ∨ r.maxNew ≤ r.gen.length + 1) →
      (∃ o, o ∈ ((s.windowSlot t slot).serv t).done ∧ o.reqId = r.reqId ∧ o.gen = r.gen ++ [x] ∧
        o.ovr = some (if r.stops.contains x then 0 else 1, s.tick) ∧ o.sent = r.gen.length + 1) ∧
      mfind ((s.windowSlot t slot).serv t).active slot = none) ∧
    (r.stops.contains x = false → r.gen.length + 1 < r.maxNew → r.gen.length + 1 - r.sent < r.chunk →
      s.windowSlot t slot = s.setServ t { s.serv t with active := mput (s.serv t).active slot r' }) ∧
    (r.stops.contains x = false → r.gen.length + 1 < r.maxNew → r.chunk ≤ r.gen.length + 1 - r.sent →
      s.windowSlot t slot = (s.sendToks t r' r.sent).setServ t { s.serv t with
        active := mput (s.serv t).active slot { r' with sent := r.gen.length + 1, unsent := none } })) ∧
  (∀ (t slot : Nat) (r : SrvRequest) (s : State), mfind (s.serv t).active slot = some r →
    ((r.cancel = true ∨ (s.serv t).closing = true) →
      ∃ o, o ∈ ((s.windowSlot t slot).serv t).done ∧ o.reqId = r.reqId ∧ o.gen = r.gen ∧
        o.ovr = some (if r.cancel then 3 else 6, s.tick)) ∧
    (r.cancel = false → (s.serv t).closing = false → r.run = false →
      s.windowSlot t slot = s.setServ t { s.serv t with active := mput (s.serv t).active slot { r with steps := r.steps + 1 } }) ∧
    (r.cancel = false → (s.serv t).closing = false → r.run = true →
      sampleToken r (s.candsOf (s.serv t) slot) r.gen.length = none →
      ∃ o, o ∈ ((s.windowSlot t slot).serv t).done ∧ o.reqId = r.reqId ∧ o.gen = r.gen ∧ o.ovr = some (5, s.tick))) ∧
  (∀ (tile id : Nat) (q : SrvRequest) (s : State), (s.serv tile).asm.find? (fun x => x.reqId == id) = some q →
    s.tick ≥ q.at_ + 10000000 → ∃ t, exec (.fragmentTimeout tile id) s = .next t ∧
      t.serv tile = { s.serv tile with asm := (s.serv tile).asm.filter (fun x => x.reqId != id) } ∧ t.regs = s.regs ∧ t.mem = s.mem) ∧
  (∀ (tile id k n : Nat) (r : SrvRequest) (s : State), (s.serv tile).active.find? (fun e => e.2.reqId == id) = some (k, r) →
    r.unsent = some n → s.tick ≥ n + 1000 → exec (.srvTokTimeout tile id) s = .next ((s.sendToks tile r r.sent).setServ tile
      { s.serv tile with active := mput (s.serv tile).active k { r with sent := r.gen.length, unsent := none } })) ∧
  (∀ (tile id : Nat) (s : State), ∃ t, exec (.retentionEnd tile id) s = .next t ∧ t.regs = s.regs ∧ t.mem = s.mem ∧
    (t.serv tile).active = (s.serv tile).active ∧
    ∀ r, r ∈ (t.serv tile).done ↔ r ∈ (s.serv tile).done ∧ ¬ (r.reqId = id ∧ ∃ o, r.ovr = some o ∧ o.2 + 10000000 ≤ s.tick))

/-- Training of a Ruino-D module: requests, clock loss and return, and its stages. At a present side with another side, TRAINING_REQUEST,
and D2D_CTL_RETRAIN, which sends the request on first, in a state that is neither OFF nor of a training start CLOCK at rate 0 from the
fused maps; in OFF, in a training, or at a side that is not present they change nothing. FORWARDED_CLOCK_LOSS, with nothing of its
tick before it, on more than half of the clock groups: a side that is neither OFF nor DOWN is DOWN, with 0x5005, one that is DOWN
notes its missing clocks; on fewer it notes the groups that are absent; in OFF it changes nothing. FORWARDED_CLOCK_RETURN of a side
that is DOWN for want of its clocks requests training, else it notes that no group is absent. TRAINING_STAGE_END of a stage that
fails repeats it once, then the side is DOWN with 0x5002. Of a stage that succeeds: CLOCK goes to TEST, with the sideband lanes that
carry messages (fewer than four good ones fail it, but on a narrow module); TEST, before its 16 marker periods, goes on, and then
notes the drivers found bad and goes to AGREE, advertising; RATE takes the rate tried and goes to TEST; ALIGN fixes the latency and
goes to UP, or DEGRADED where a direction has 512 lanes. AGREE waits for the other side's advertisement; over both it takes the maps of
the lanes good on either side with the next epoch, and goes to HOLD in a cold training, else to RATE while a higher rate is agreed,
else to ALIGN; where the digests arrive altered it tests once more, and the second time is DOWN with 0x5006; with too few lanes it is
DOWN, or, after a step, goes back to the maps and rate before it and to ALIGN with 0x5007. In OFF, in HOLD and from UP on a stage end
changes nothing. (spec/09_die_to_die_adapter.md) -/
def Obligations.ModulesTrain : Prop :=
  (∀ (u m : Nat) (s : State), s.unitUp u = true → (s.otherSide u m).isSome = true → s.modState u m ≠ 0 →
    trainingState (s.modState u m) = false →
    (∃ t, exec (.trainingRequest u m) s = .next t ∧ t.d2dSent = s.d2dSent ∧ t.modState u m = 1 ∧ t.mg u m D2D_STATUS.rate = 0 ∧
      (t.mod u m).trial = 0 ∧ (t.mod u m).own = s.mg u m D2D_CTL.max_rate ∧ (t.mod u m).cold = false ∧
      (t.mod u m).rx = laneMapOf u m (s.fusedBad u m 0) (s.mod u m).rx.epoch ∧
      (t.mod u m).tx = laneMapOf u m (s.fusedBad u m 1) (s.mod u m).tx.epoch ∧ t.ev = s.ev ∧ t.mem = s.mem) ∧
    (∃ t, exec (.d2dCtlRetrain u m) s = .next t ∧ t.d2dSent = s.d2dSent ++ [s.modOut u m .trainingRequest] ∧ t.modState u m = 1 ∧
      t.mg u m D2D_STATUS.rate = 0 ∧ (t.mod u m).rx = laneMapOf u m (s.fusedBad u m 0) (s.mod u m).rx.epoch ∧
      (t.mod u m).tx = laneMapOf u m (s.fusedBad u m 1) (s.mod u m).tx.epoch ∧ t.ev = s.ev ∧ t.mem = s.mem)) ∧
  (∀ (u m : Nat) (s : State), (s.unitUp u = false ∨ s.modState u m = 0 ∨ trainingState (s.modState u m) = true) →
    exec (.trainingRequest u m) s = .next s ∧ exec (.d2dCtlRetrain u m) s = .next s) ∧
  (∀ (u m : Nat) (absent gone : List Nat) (s : State), s.yields (.forwardedClockLoss u m absent) = false →
    gone = (List.range (clockGroups u m)).filter (fun c => absent.contains c) →
    (s.modState u m = 0 → exec (.forwardedClockLoss u m absent) s = .next s) ∧
    (s.modState u m ≠ 0 → gone.length ≤ clockGroups u m / 2 →
      exec (.forwardedClockLoss u m absent) s = .next (s.setMod u m { s.mod u m with noClk := gone })) ∧
    (s.modState u m = 9 → clockGroups u m / 2 < gone.length →
      exec (.forwardedClockLoss u m absent) s = .next (s.setMod u m { s.mod u m with noClock := true, noClk := gone })) ∧
    (s.modState u m ≠ 0 → s.modState u m ≠ 9 → clockGroups u m / 2 < gone.length → ∃ t,
      exec (.forwardedClockLoss u m absent) s = .next t ∧ t.modState u m = 9 ∧ (t.mod u m).noClock = true ∧ (t.mod u m).noClk = gone ∧
      (t.mod u m).rxFix = none ∧ (t.mod u m).txFix = none ∧ (t.mod u m).downAt = s.tick ∧ t.ev = (s.raiseMod 0x5005 u m).ev)) ∧
  (∀ (u m : Nat) (s : State),
    (s.modState u m = 9 → (s.mod u m).noClock = true → exec (.forwardedClockReturn u m) s = .next (s.requestTraining u m) ∧
      ((s.otherSide u m).isSome = true → (s.requestTraining u m).modState u m = 1 ∧
        ((s.requestTraining u m).mod u m).noClock = false)) ∧
    ((s.modState u m ≠ 9 ∨ (s.mod u m).noClock = false) →
      exec (.forwardedClockReturn u m) s = .next (s.setMod u m { s.mod u m with noClk := [] }))) ∧
  (∀ (u m : Nat) (o : StageObs) (s : State), (s.modState u m = 0 ∨ s.modState u m = 4 ∨ 7 ≤ s.modState u m) →
    exec (.trainingStageEnd u m o) s = .next s) ∧
  (∀ (u m : Nat) (o : StageObs) (s : State), s.modState u m ≠ 0 → s.modState u m ≠ 4 → s.modState u m < 7 →
    (o.ok = false ∨ (s.modState u m = 1 ∧ narrowMod u m = false ∧ sideMap u m o.sideBad = none)) →
    ((s.mod u m).again = false → ∃ t, exec (.trainingStageEnd u m o) s = .next t ∧ t.modState u m = s.modState u m ∧
      (t.mod u m).again = true ∧ t.ev = s.ev) ∧
    ((s.mod u m).again = true → ∃ t, exec (.trainingStageEnd u m o) s = .next t ∧ t.modState u m = 9 ∧
      t.ev = (s.raiseMod 0x5002 u m).ev)) ∧
  (∀ (u m : Nat) (o : StageObs) (s : State), o.ok = true →
    (s.modState u m = 1 → narrowMod u m = true → ∃ t, exec (.trainingStageEnd u m o) s = .next t ∧ t.modState u m = 2 ∧ t.ev = s.ev) ∧
    (∀ l, s.modState u m = 1 → narrowMod u m = false → sideMap u m o.sideBad = some l → ∃ t,
      exec (.trainingStageEnd u m o) s = .next t ∧ t.modState u m = 2 ∧ (t.mod u m).side = l ∧ t.ev = s.ev) ∧
    (s.modState u m = 2 → (s.mod u m).periods < 16 → exec (.trainingStageEnd u m o) s = .next s) ∧
    (s.modState u m = 2 → 16 ≤ (s.mod u m).periods → ∃ t d, exec (.trainingStageEnd u m o) s = .next t ∧ t.modState u m = 3 ∧
      (t.mod u m).rxFound = (s.mod u m).rxFound ∧ (t.mod u m).txFound = laneMask o.loopBad % 2 ^ physLanes u m ∧
      t.d2dSent = s.d2dSent ++ [d] ∧ d.msg = .agree (t.advOf u m) ∧ t.ev = s.ev) ∧
    (s.modState u m = 5 → ∃ t, exec (.trainingStageEnd u m o) s = .next t ∧ t.modState u m = 2 ∧
      t.mg u m D2D_STATUS.rate = (s.mod u m).trial % 2 ^ D2D_STATUS.rate.w ∧ (t.mod u m).periods = 0 ∧ t.ev = s.ev) ∧
    (s.modState u m = 6 → ∃ t, exec (.trainingStageEnd u m o) s = .next t ∧ t.mg u m D2D_LAT.lat_tk = modLat u m ∧ t.ev = s.ev ∧
      t.modState u m = if (s.mod u m).rx.table.length = 512 ∨ (s.mod u m).tx.table.length = 512 then 8 else 7)) ∧
  (∀ (u m : Nat) (o : StageObs) (s : State), o.ok = true → s.modState u m = 3 →
    ((s.mod u m).heard = none → exec (.trainingStageEnd u m o) s = .next s) ∧
    (∀ a maps, (s.mod u m).heard = some a → maps = s.agreedMaps u m a →
      (maps.1.table ≠ [] → maps.2.table ≠ [] → o.garbled = false → ∃ t, exec (.trainingStageEnd u m o) s = .next t ∧
        (t.mod u m).rx = maps.1 ∧ (t.mod u m).tx = maps.2 ∧ t.ev = s.ev ∧
        t.modState u m = if (s.mod u m).cold then 4
          else if (s.mod u m).trial < (if narrowMod u m then 0 else Nat.min (s.mod u m).own (Nat.min a.rate 2)) then 5 else 6) ∧
      (maps.1.table ≠ [] → maps.2.table ≠ [] → o.garbled = true → (s.mod u m).differed = false → ∃ t,
        exec (.trainingStageEnd u m o) s = .next t ∧ t.modState u m = 2 ∧ (t.mod u m).differed = true ∧ t.ev = s.ev) ∧
      (maps.1.table ≠ [] → maps.2.table ≠ [] → o.garbled = true → (s.mod u m).differed = true → ∃ t,
        exec (.trainingStageEnd u m o) s = .next t ∧ t.modState u m = 9 ∧ t.ev = (s.raiseMod 0x5006 u m).ev) ∧
      ((maps.1.table = [] ∨ maps.2.table = []) → (s.mod u m).trial = 0 → ∃ t,
        exec (.trainingStageEnd u m o) s = .next t ∧ t.modState u m = 9 ∧ t.ev = s.ev) ∧
      ((maps.1.table = [] ∨ maps.2.table = []) → (s.mod u m).trial ≠ 0 → ∃ t,
        exec (.trainingStageEnd u m o) s = .next t ∧ t.modState u m = 6 ∧ (t.mod u m).rx = (s.mod u m).rxPrev ∧
        (t.mod u m).tx = (s.mod u m).txPrev ∧ t.ev = (s.raiseMod 0x5007 u m).ev)))

/-- ALIGNMENT_MARKER, REPAIR, ACK, DEGRADE, REPAIR_BOUNDARY and BAND_SET_STEP. A marker of a side from TEST to DEGRADED counts the
errored lanes, and with repairs enabled in UP or DEGRADED, none in progress and the interval past, starts the next one: with a free
spare, the lowest wanted lane is to be substituted by the lowest spare, with a REPAIR of the next epoch sent and 0x5003; with none, a
full direction that is not a narrow module's is to go to 512 lanes, with a DEGRADE sent and 0x5004; else it changes nothing more. A
marker at another tick, before TEST or in DOWN changes nothing. REPAIR at the transmit side of a side that is UP or DEGRADED takes the
substitution from the next marker, and DEGRADE the switch at the second. ACK of the epoch under repair with the digest of the moved
map lets that map take effect at the boundary that ends the repair, with another digest requests training; of another epoch, or with
no repair, it changes nothing. REPAIR_BOUNDARY of a receive repair: at its first tick after a restart it sends its REPAIR; at its
128th a repair whose spare is clean goes on, and one whose spare is not marks that spare bad and starts again with the next spare,
or, with none, wants the lane again; at the 192nd it moves the lane, marks the old one bad, and sends ACK with the new digest; of a
transmit repair that is acknowledged, at the 192nd, it moves the lane and marks the old one bad. BAND_SET_STEP at a marker moves the
sample phase of every lane towards the band's by at most 4 of 1/64 UI, and shows the band once every lane has arrived.
(spec/09_die_to_die_adapter.md) -/
def Obligations.ModulesRepair : Prop :=
  (∀ (u m : Nat) (obs bad : List LaneObs) (s w : State), s.tick % 64 = 63 → 2 ≤ s.modState u m → s.modState u m ≠ 9 →
    w = s.takePeriod u m obs →
    bad = (lanesSeen u m (s.mod u m).noClk obs).filter (laneErrored (s.modState u m == 2) s.tick (s.mod u m)) →
    (w.mod u m).rx = (s.mod u m).rx ∧ (w.mod u m).errs = bad.map (·.lane) ∧ w.ev = s.ev ∧ w.d2dSent = s.d2dSent ∧
      w.mg u m D2D_COUNTS.errored = min (s.mg u m D2D_COUNTS.errored + bad.length) (2 ^ D2D_COUNTS.errored.w - 1) ∧
      (w.mod u m).periods = (s.mod u m).periods + (if s.modState u m = 2 then 1 else 0) ∧
    ((s.mg u m D2D_CTL.repair_en ≠ 1 ∨ s.modState u m < 7 ∨ (w.mod u m).rxFix ≠ none ∨ (w.mod u m).rxDeg ≠ none ∨
      s.tick < (w.mod u m).nextAt) → exec (.alignmentMarker u m obs) s = .next w) ∧
    (s.mg u m D2D_CTL.repair_en = 1 → 7 ≤ s.modState u m → (w.mod u m).rxFix = none → (w.mod u m).rxDeg = none →
      (w.mod u m).nextAt ≤ s.tick →
      (lowestLane ((w.mod u m).want.filter (fun l => (w.mod u m).rx.table.contains l)) = none →
        exec (.alignmentMarker u m obs) s = .next (w.setMod u m { w.mod u m with want := [] })) ∧
      (∀ l, lowestLane ((w.mod u m).want.filter (fun l => (w.mod u m).rx.table.contains l)) = some l →
        (∀ y, ((w.mod u m).rx.spares u m).head? = some y → ∃ t f, exec (.alignmentMarker u m obs) s = .next t ∧
          (t.mod u m).rxFix = some f ∧ f.x = (w.mod u m).rx.table.idxOf l ∧ f.y = y ∧ f.epoch = nextMapEpoch (w.mod u m).rx.epoch ∧
          f.m = s.tick ∧ t.d2dSent = s.d2dSent ++ [w.modOut u m (.repair f.x f.y f.epoch)] ∧ t.mg u m D2D_STATUS.repairing = 1 ∧
          (t.mod u m).rx = (w.mod u m).rx ∧ t.ev = (s.raiseMod 0x5003 u m l).ev) ∧
        (((w.mod u m).rx.spares u m).head? = none → narrowMod u m = false → (w.mod u m).rx.table.length ≠ 512 → ∃ t,
          exec (.alignmentMarker u m obs) s = .next t ∧
          (t.mod u m).rxDeg = some (nextMapEpoch (w.mod u m).rx.epoch, s.tick + 128) ∧ t.mg u m D2D_STATUS.repairing = 1 ∧
          t.d2dSent = s.d2dSent ++ [w.modOut u m (.degrade (nextMapEpoch (w.mod u m).rx.epoch))] ∧
          t.ev = (s.raiseMod 0x5004 u m).ev) ∧
        (((w.mod u m).rx.spares u m).head? = none → narrowMod u m = true →
          exec (.alignmentMarker u m obs) s = .next (w.bothDown u m)) ∧
        (((w.mod u m).rx.spares u m).head? = none → narrowMod u m = false → (w.mod u m).rx.table.length = 512 →
          exec (.alignmentMarker u m obs) s = .next (w.setMod u m { w.mod u m with want := [] }))))) ∧
  (∀ (u m : Nat) (obs : List LaneObs) (s : State), (s.tick % 64 ≠ 63 ∨ s.modState u m < 2 ∨ s.modState u m = 9) →
    exec (.alignmentMarker u m obs) s = .next s) ∧
  (∀ (u m x y epoch : Nat) (s : State), (s.modState u m = 7 ∨ s.modState u m = 8) → ∃ t, exec (.repair u m x y epoch) s = .next t ∧
    t.regs = s.regs ∧ t.mem = s.mem ∧ (∃ f, (t.mod u m).txFix = some f ∧ f.x = x ∧ f.y = y ∧ f.epoch = epoch ∧
      f.m % 64 = 63 ∧ s.tick < f.m ∧ f.m ≤ s.tick + 64) ∧ (t.mod u m).rx = (s.mod u m).rx ∧
      (t.mod u m).tx.table = (s.mod u m).tx.table) ∧
  (∀ (u m epoch digest : Nat) (s : State),
    ((s.mod u m).txFix = none → exec (.ack u m epoch digest) s = .next s) ∧
    (∀ f, (s.mod u m).txFix = some f →
      (f.epoch ≠ epoch → exec (.ack u m epoch digest) s = .next s) ∧
      (f.epoch = epoch → ((s.mod u m).tx.moved f).digest = digest →
        exec (.ack u m epoch digest) s = .next (s.setMod u m { s.mod u m with txFix := some { f with told := true } })) ∧
      (f.epoch = epoch → ((s.mod u m).tx.moved f).digest ≠ digest →
        exec (.ack u m epoch digest) s = .next (s.requestTraining u m)))) ∧
  (∀ (u m epoch : Nat) (s : State), (s.modState u m = 7 ∨ s.modState u m = 8) → ∃ t a, exec (.degrade u m epoch) s = .next t ∧
    (t.mod u m).txDeg = some (epoch, a) ∧ a % 64 = 63 ∧ s.tick + 64 < a ∧ a ≤ s.tick + 128 ∧ t.regs = s.regs ∧ t.mem = s.mem) ∧
  (∀ (u m : Nat) (f : LaneFix) (s : State), (s.modState u m = 7 ∨ s.modState u m = 8) →
    (s.mod u m).rxFix = some f → (s.mod u m).txFix = none → (s.mod u m).rxDeg = none → (s.mod u m).txDeg = none →
    (s.tick = f.m → f.sent = false → ∃ t, exec (.repairBoundary u m) s = .next t ∧
      (t.mod u m).rxFix = some { f with sent := true } ∧ t.d2dSent = s.d2dSent ++ [s.modOut u m (.repair f.x f.y f.epoch)]) ∧
    (s.tick = f.m + 128 → (s.mod u m).errs.contains f.y = false →
      exec (.repairBoundary u m) s = .next (s.setMod u m { s.mod u m with rxFix := some { f with told := true } })) ∧
    (s.tick = f.m + 128 → (s.mod u m).errs.contains f.y = true → ∃ t, exec (.repairBoundary u m) s = .next t ∧
      (t.mod u m).rx = { (s.mod u m).rx with bad := (s.mod u m).rx.bad ||| 2 ^ f.y } ∧ t.d2dSent = s.d2dSent ∧
      (∀ y, ((t.mod u m).rx.spares u m).head? = some y →
        (t.mod u m).rxFix = some { f with y := y, m := f.m + 192, sent := false }) ∧
      (((t.mod u m).rx.spares u m).head? = none → (t.mod u m).rxFix = none ∧
        (t.mod u m).want = (s.mod u m).rx.table.getD f.x 0 :: (s.mod u m).want)) ∧
    (s.tick = f.m + 192 → f.told = true → ∃ t rx, exec (.repairBoundary u m) s = .next t ∧ (t.mod u m).rx = rx ∧
      rx.table = (s.mod u m).rx.table.set f.x f.y ∧ rx.epoch = f.epoch ∧
      rx.bad = (s.mod u m).rx.bad ||| 2 ^ (s.mod u m).rx.table.getD f.x 0 ∧
      t.d2dSent = s.d2dSent ++ [s.modOut u m (.ack f.epoch rx.digest)] ∧ (t.mod u m).rxFix = none)) ∧
  (∀ (u m : Nat) (f : LaneFix) (s : State), (s.modState u m = 7 ∨ s.modState u m = 8) →
    (s.mod u m).txFix = some f → (s.mod u m).rxFix = none → (s.mod u m).rxDeg = none → (s.mod u m).txDeg = none →
    s.tick = f.m + 192 → f.told = true → ∃ t tx, exec (.repairBoundary u m) s = .next t ∧ (t.mod u m).tx = tx ∧
      tx.table = (s.mod u m).tx.table.set f.x f.y ∧ tx.epoch = f.epoch ∧
      tx.bad = (s.mod u m).tx.bad ||| 2 ^ (s.mod u m).tx.table.getD f.x 0 ∧ (t.mod u m).txFix = none ∧ t.d2dSent = s.d2dSent) ∧
  (∀ (u m : Nat) (s : State) (b : Nat), s.tick % 64 = 63 → b = s.bandOf u (s.mg u m D2D_STATUS.band) → b < 2 ^ D2D_STATUS.band.w →
    (b ≠ s.mg u m D2D_STATUS.band ∨ (s.mod u m).phases ≠ []) → ∃ t, exec (.bandSetStep u m) s = .next t ∧ (t.mod u m).drive = b ∧
      t.mem = s.mem ∧ t.ev = s.ev ∧
      (∀ l, l < physLanes u m → ∀ p goal, p = s.phaseOf u m l → goal = s.fusedPhase u m b l →
        (p + 4 < goal → t.phaseOf u m l = p + 4) ∧ (goal < p - 4 → t.phaseOf u m l = p - 4) ∧
        (p - 4 ≤ goal → goal ≤ p + 4 → t.phaseOf u m l = goal)) ∧
      ((∀ l, l < physLanes u m → s.phaseOf u m l - 4 ≤ s.fusedPhase u m b l ∧ s.fusedPhase u m b l ≤ s.phaseOf u m l + 4) →
        t.mg u m D2D_STATUS.band = b ∧ (t.mod u m).phases = []) ∧
      ((∃ l, l < physLanes u m ∧ ¬ (s.phaseOf u m l - 4 ≤ s.fusedPhase u m b l ∧ s.fusedPhase u m b l ≤ s.phaseOf u m l + 4)) →
        t.regs = s.regs)) ∧
  (∀ (u m : Nat) (s : State), (s.tick % 64 ≠ 63 ∨
      (s.bandOf u (s.mg u m D2D_STATUS.band) = s.mg u m D2D_STATUS.band ∧ (s.mod u m).phases = [])) →
    exec (.bandSetStep u m) s = .next s)

/-- The safety states of a Trelip link. On an engine that is present: TOE_CTL.enable = 0 puts its link in OFF from any other state,
and = 1 puts one that is OFF, not dark in the light list and not darkened, in PILOT; else only the bit changes. LIT_ENTRY of a
link that has been in PILOT for 100,000 tk makes it LIT, with light shown. 500,000 tk later LIT_CHECK_ARMED arms the check, puts
the link in LOCK and every ring that was not locking in ACQUIRE; whether power is at -3 dBm is a free bit. LIT_CHECK in its turn
and with the check armed raises 0x6001, counts and puts the link in HOLD, with a free bit for light, and HOLD_END 10,000,000 tk
later in PILOT. Each of these rows on an absent engine, in another state or before its time changes nothing. Entry to a state other
than LIT ends bring-up: stage 0, NRZ32, no maps and no widths, a link that was in SERVICE going down with cause 1; every entry
disarms the check and notes the tick. That the two bits are free is the model's choice (log 63). (spec/10_optical_engine.md,
spec/14_power_and_thermal.md) -/
def Obligations.OpticalSafetyStates : Prop :=
  (∀ (l : Nat) (on : Bool) (s u : State), s.toeUp (linkTile l) = true → u = s.os l TOE_CTL.enable (if on then 1 else 0) →
    (on = false → s.og l TOE_STATUS.safety = 0 → exec (.toeCtlEnable l on) s = .next u) ∧
    (on = false → s.og l TOE_STATUS.safety ≠ 0 → exec (.toeCtlEnable l on) s = .next (u.setSafety l 0)) ∧
    (on = true → s.og l TOE_STATUS.safety = 0 → s.darkLink l = false → (s.opt l).dark = false →
      exec (.toeCtlEnable l on) s = .next (u.setSafety l 1)) ∧
    (on = true → (s.og l TOE_STATUS.safety ≠ 0 ∨ s.darkLink l = true ∨ (s.opt l).dark = true) →
      exec (.toeCtlEnable l on) s = .next u)) ∧
  (∀ (l : Nat) (s : State), s.toeUp (linkTile l) = true → s.og l TOE_STATUS.safety = 1 → s.tick ≥ (s.opt l).at_ + 100000 →
    ∃ v t : State, exec (.litEntry l) s = .next t ∧ t = (v.setSafety l 2).os l TOE_STATUS.light 1 ∧
    t.og l TOE_STATUS.safety = 2 ∧ t.og l TOE_STATUS.light = 1 ∧ (t.opt l).at_ = s.tick ∧
    (t.opt l).armed = false ∧ t.ev = s.ev ∧ t.mem = s.mem ∧ t.links = s.links) ∧
  (∀ (l : Nat) (s : State), s.toeUp (linkTile l) = true → s.og l TOE_STATUS.safety = 2 → (s.opt l).armed = false →
    s.tick ≥ (s.opt l).at_ + 500000 → ∃ v : State, exec (.litCheckArmed l) s = .next (v.lockDone l) ∧ (v.opt l).armed = true ∧
      (v.opt l).lockAt = s.tick ∧ v.og l TOE_STATUS.stage = 1 ∧ v.freeCtr = s.freeCtr + 1 ∧
      v.og l TOE_STATUS.lit_rx = Config.freeNat s.freeCtr % 2 ∧ v.ev = s.ev ∧ v.mem = s.mem ∧
      ∀ p ∈ s.wavesOf l, ((s.wave l p.1 p.2).lock = 0 ∨ (s.wave l p.1 p.2).lock = 5) → (v.wave l p.1 p.2).lock = 1) ∧
  (∀ (l : Nat) (s u : State), s.yields (.litCheck l) = false → s.toeUp (linkTile l) = true → s.og l TOE_STATUS.safety = 2 →
    (s.opt l).armed = true → u = (s.raise 0x6001 (uToe (linkTile l)) l).oinc l TOE_COUNTS.safety_drops 1 →
    exec (.litCheck l) s = .next (((State.os { u with freeCtr := u.freeCtr + 1 } l TOE_STATUS.lit_rx 0).os l
      TOE_STATUS.light (Config.freeNat u.freeCtr % 2)).setSafety l 3)) ∧
  (∀ (l : Nat) (s : State), s.toeUp (linkTile l) = true → s.og l TOE_STATUS.safety = 3 → s.tick ≥ (s.opt l).at_ + 10000000 →
    exec (.holdEnd l) s = .next (s.setSafety l 1)) ∧
  (∀ (l : Nat) (s : State),
    ((s.toeUp (linkTile l) = false ∨ s.og l TOE_STATUS.safety ≠ 1 ∨ s.tick < (s.opt l).at_ + 100000) →
      exec (.litEntry l) s = .next s) ∧
    ((s.toeUp (linkTile l) = false ∨ s.og l TOE_STATUS.safety ≠ 2 ∨ (s.opt l).armed = true ∨ s.tick < (s.opt l).at_ + 500000) →
      exec (.litCheckArmed l) s = .next s) ∧
    (s.yields (.litCheck l) = false → (s.toeUp (linkTile l) = false ∨ s.og l TOE_STATUS.safety ≠ 2 ∨ (s.opt l).armed = false) →
      exec (.litCheck l) s = .next s) ∧
    ((s.toeUp (linkTile l) = false ∨ s.og l TOE_STATUS.safety ≠ 3 ∨ s.tick < (s.opt l).at_ + 10000000) →
      exec (.holdEnd l) s = .next s) ∧
    (s.toeUp (linkTile l) = false → ∀ on, exec (.toeCtlEnable l on) s = .next s)) ∧
  (∀ (l st : Nat) (s : State), s.toeUp (linkTile l) = true → st < 4 →
    ((st = 2 ∨ s.og l TOE_STATUS.stage ≠ 5) → (s.setSafety l st).og l TOE_STATUS.safety = st ∧
      ((s.setSafety l st).opt l).at_ = s.tick ∧ ((s.setSafety l st).opt l).armed = false) ∧
    (st ≠ 2 → s.og l TOE_STATUS.stage ≠ 5 → (s.setSafety l st).og l TOE_STATUS.stage = 0 ∧
      (s.setSafety l st).og l TOE_STATUS.mode = 0 ∧
      (s.setSafety l st).og l TOE_TX_MAP.role = noRoles ∧ (s.setSafety l st).og l TOE_RX_MAP.role = noRoles ∧
      (s.setSafety l st).og l TOE_STATUS.tx_width = 0 ∧ (s.setSafety l st).og l TOE_STATUS.rx_width = 0) ∧
    (st ≠ 2 → s.og l TOE_STATUS.stage = 5 → ∃ v : State, v.og l TOE_STATUS.stage = 0 ∧ v.og l TOE_TX_MAP.role = noRoles ∧
      v.og l TOE_RX_MAP.role = noRoles ∧ v.og l TOE_STATUS.tx_width = 0 ∧ v.og l TOE_STATUS.rx_width = 0 ∧
      v.og l TOE_STATUS.safety = st ∧ (v.opt l).armed = false ∧ (v.opt l).at_ = s.tick ∧ (v.opt l).rxAct = none ∧
      (v.opt l).txAct = none ∧ v.ev = s.ev ∧
      s.setSafety l st = (((v.linkFall l 1).clearMaps l).os l TOE_STATUS.mode 0).setBias l))

/-- Markers, tests, mode steps, agreement and waits of bring-up. On a present engine, from TEST on, of one of its ten wavelengths: the
codewords of a marker's period are decoded and counted, also with a marker whose CRC fails, of which nothing else is taken. An accepted
one shows its margin and power. In WAIT that is all; in TEST or READY, one of the mode after the receiver's starts the test at that mode
and counts for it; its period is counted and AGREE tried; in AGREE one that disagrees at an epoch other than 0 raises 0x6004 and starts
TEST again. TEST_END after the mode's periods marks the waves that did not pass as failed; fewer than 7 good ones, or a mode before
not passed, go to WAIT; else the mode is passed, and below PAM64 the stage is READY, at PAM64 AGREE is tried. MODE_STEP at the boundary 4
periods after the first go steps the mode. AGREEMENT after 16 periods puts the link in SERVICE, counts it, and trains it. WAIT_END after
100,000,000 tk and TOE_CTL.restart from TEST on start TEST at NRZ32. LOCK_TIMEOUT 50,000,000 tk after LOCK fails a ring that is neither in
CHECK nor LOCKED. Each of these rows otherwise changes nothing. (spec/10_optical_engine.md,
spec/11_wavelength_control_and_sparing.md) -/
def Obligations.OpticalBringUp : Prop :=
  (∀ (m : OptMarker) (s : State), (s.toeUp (linkTile m.link) = false ∨ s.og m.link TOE_STATUS.stage < 2 ∨ 10 ≤ m.lam) →
    exec (.opticalMarker m) s = .next s) ∧
  (∀ (m : OptMarker) (s u v : State) (n : Nat × Nat), s.toeUp (linkTile m.link) = true → 2 ≤ s.og m.link TOE_STATUS.stage → m.lam < 10 →
    s.decodeLine m = (n, u) → v = (u.trackLevels m).countMarker m n →
    u.ev = s.ev ∧ u.opts = s.opts ∧ (u.wave m.link false m.lam).wN = (s.wave m.link false m.lam).wN + 1 ∧
    (u.wave m.link false m.lam).wFixed = (s.wave m.link false m.lam).wFixed + n.1 ∧
    (u.wave m.link false m.lam).badRun = (if 0 < n.2 then (s.wave m.link false m.lam).badRun + 1 else 0) ∧
    u.og m.link TOE_LANE_FEC.uncorrectable (win m.lam) =
      min (s.og m.link TOE_LANE_FEC.uncorrectable (win m.lam) + n.2) (2 ^ 16 - 1) ∧
    u.og m.link TOE_LANE_FEC.corrected (win m.lam) = min (s.og m.link TOE_LANE_FEC.corrected (win m.lam) + n.1) (2 ^ 40 - 1) ∧
    v.og m.link TOE_LANE_ANA.margin (win m.lam) = m.margin % 2 ^ 6 ∧ v.og m.link TOE_LANE_ANA.rx_power (win m.lam) = m.power % 2 ^ 8 ∧
    v.og m.link TOE_LANE_ANA.valid (win m.lam) = 1 ∧ v.ev = s.ev ∧ v.opts = s.opts ∧
    (m.crcOk = false → exec (.opticalMarker m) s = .next u) ∧
    (m.crcOk = true →
      (s.og m.link TOE_STATUS.stage = 6 → exec (.opticalMarker m) s = .next v) ∧
      (s.og m.link TOE_STATUS.stage ≤ 3 → m.mode = (s.opt m.link).rxMode + 1 → m.mode ≤ 2 → exec (.opticalMarker m) s =
        .next ((((v.testMode m.link m.mode).countMarker m (0, 0)).countPeriod m).tryAgree m.link)) ∧
      (s.og m.link TOE_STATUS.stage ≤ 3 → (m.mode ≠ (s.opt m.link).rxMode + 1 ∨ 2 < m.mode) → exec (.opticalMarker m) s =
        .next ((v.countPeriod m).tryAgree m.link)) ∧
      (s.og m.link TOE_STATUS.stage = 4 → m.epoch ≠ 0 → s.markerAgrees m = false → exec (.opticalMarker m) s =
        .next (((v.countPeriod m).raise 0x6004 (uToe (linkTile m.link)) m.link).startTest m.link)) ∧
      (3 < s.og m.link TOE_STATUS.stage → s.og m.link TOE_STATUS.stage ≠ 6 →
        (s.og m.link TOE_STATUS.stage ≠ 4 ∨ m.epoch = 0 ∨ s.markerAgrees m = true) → exec (.opticalMarker m) s =
        .next (v.countPeriod m)))) ∧
  (∀ (l : Nat) (s : State) (use good : List Nat), s.toeUp (linkTile l) = true → s.og l TOE_STATUS.stage = 2 →
    (s.opt l).passed ≤ (s.opt l).rxMode →
    (s.opt l).testAt + (1024 + (if (s.opt l).rxMode = 0 then 0 else 64)) * markerTk (s.opt l).rxMode ≤ s.tick →
    use = (s.lams l false).filter (fun n => !(s.wave l false n).failed) → good = use.filter (fun n => s.lanePassed l n) → ∃ v : State,
    v.regs = s.regs ∧ v.opts = s.opts ∧ (∀ n ∈ use, n ∉ good → (v.wave l false n).failed = true) ∧
    (∀ n ∈ good, v.wave l false n = s.wave l false n) ∧
    ((good.length < 7 ∨ (s.opt l).passed < (s.opt l).rxMode) → exec (.testEnd l) s = .next (v.toWait l)) ∧
    (7 ≤ good.length → (s.opt l).passed = (s.opt l).rxMode → ∀ u : State, u = v.setOpt l { s.opt l with
        passed := (s.opt l).rxMode + 1
        good := good.foldl (fun v n => v + 2 ^ n) 0 } →
      ((s.opt l).rxMode < 2 → exec (.testEnd l) s = .next (u.os l TOE_STATUS.stage 3)) ∧
      (2 ≤ (s.opt l).rxMode → exec (.testEnd l) s = .next (u.tryAgree l)))) ∧
  (∀ (l n : Nat) (s : State), s.toeUp (linkTile l) = true → (s.opt l).goAt = some n →
    (s.og l TOE_STATUS.stage = 2 ∨ s.og l TOE_STATUS.stage = 3) → s.og l TOE_STATUS.mode < 2 →
    s.og l TOE_STATUS.mode < (s.opt l).passed → s.tick ≥ n + 4 * markerTk (s.og l TOE_STATUS.mode) → s.nextBoundary l = s.tick →
    ∃ v : State, exec (.modeStep l) s = .next (v.tryAgree l) ∧ v.og l TOE_STATUS.mode = s.og l TOE_STATUS.mode + 1 ∧
      v.og l TOE_STATUS.stage = 2 ∧ (v.opt l).goAt = none ∧ (v.opt l).ready = 0 ∧ (v.opt l).txBase = s.tick ∧
      (v.opt l).txM0 = s.txCount l ∧ v.waves = s.waves ∧ v.links = s.links ∧ v.ev = s.ev) ∧
  (∀ (l : Nat) (s : State), s.toeUp (linkTile l) = true → s.og l TOE_STATUS.stage = 4 → 16 ≤ (s.opt l).agree → ∃ v : State,
    exec (.agreement l) s = .next ((v.trainLink l).startRuns l) ∧ v.og l TOE_STATUS.stage = 5 ∧ (v.opt l).served = true ∧
    v.og l TOE_COUNTS.bringups = min (s.og l TOE_COUNTS.bringups + 1) (2 ^ TOE_COUNTS.bringups.w - 1) ∧ v.ev = s.ev ∧
    ((s.opt l).served = true → v.waves = s.waves) ∧
    ((s.opt l).served = false → ∀ p ∈ s.wavesOf l, (v.wave l p.1 p.2).dueAt = some s.tick)) ∧
  (∀ (l : Nat) (s : State), s.toeUp (linkTile l) = true → s.og l TOE_STATUS.stage = 6 → s.tick ≥ (s.opt l).waitAt + 100000000 →
    exec (.waitEnd l) s = .next (s.startTest l)) ∧
  (∀ (l : Nat) (s : State), s.toeUp (linkTile l) = true →
    (2 ≤ s.og l TOE_STATUS.stage → exec (.toeCtlRestart l) s = .next (s.startTest l)) ∧
    (s.og l TOE_STATUS.stage < 2 → exec (.toeCtlRestart l) s = .next s)) ∧
  (∀ (l lam : Nat) (tx : Bool) (s : State), s.toeUp (linkTile l) = true → lam ∈ s.lams l tx → s.og l TOE_STATUS.stage = 1 →
    s.tick ≥ (s.opt l).lockAt + 50000000 → (s.wave l tx lam).lock ≠ 2 → (s.wave l tx lam).lock ≠ 3 → ∃ v : State,
      exec (.lockTimeout l lam tx) s = .next (v.lockDone l) ∧ (v.wave l tx lam).lock = 5 ∧
      (v.wave l tx lam).heater = s.calPoint l tx lam ∧ v.ev = s.ev ∧ v.opts = s.opts) ∧
  (∀ (l lam : Nat) (tx : Bool) (s : State),
    ((s.toeUp (linkTile l) = false ∨ s.og l TOE_STATUS.stage ≠ 2 ∨ (s.opt l).rxMode < (s.opt l).passed ∨
      s.tick < (s.opt l).testAt + (1024 + (if (s.opt l).rxMode = 0 then 0 else 64)) * markerTk (s.opt l).rxMode) →
      exec (.testEnd l) s = .next s) ∧
    ((s.toeUp (linkTile l) = false ∨ s.og l TOE_STATUS.stage ≠ 4 ∨ (s.opt l).agree < 16) → exec (.agreement l) s = .next s) ∧
    ((s.toeUp (linkTile l) = false ∨ s.og l TOE_STATUS.stage ≠ 6 ∨ s.tick < (s.opt l).waitAt + 100000000) →
      exec (.waitEnd l) s = .next s) ∧
    (s.toeUp (linkTile l) = false → exec (.toeCtlRestart l) s = .next s) ∧
    ((s.toeUp (linkTile l) = false ∨ (s.opt l).goAt = none ∨ s.og l TOE_STATUS.stage < 2 ∨ 3 < s.og l TOE_STATUS.stage ∨
      2 ≤ s.og l TOE_STATUS.mode ∨ (s.opt l).passed ≤ s.og l TOE_STATUS.mode ∨
      s.nextBoundary l ≠ s.tick ∨ ∃ n, (s.opt l).goAt = some n ∧ s.tick < n + 4 * markerTk (s.og l TOE_STATUS.mode)) →
      exec (.modeStep l) s = .next s) ∧
    ((s.toeUp (linkTile l) = false ∨ lam ∉ s.lams l tx ∨ s.og l TOE_STATUS.stage ≠ 1 ∨ s.tick < (s.opt l).lockAt + 50000000 ∨
      (s.wave l tx lam).lock = 2 ∨ (s.wave l tx lam).lock = 3) → exec (.lockTimeout l lam tx) s = .next s))

/-- Ring loops, identities, temperature, calibration runs and fade counts. On a present engine, for a wave that is not retired by
fuse: an integration window in ACQUIRE or RELOCK with nothing found and derivative 0 takes the next step of the sweep, else moves the
heater by the derivative less the ring's bias, at most 8 codes, and 16 calm windows enter CHECK; in CHECK and LOCKED it moves the heater
alike, and a LOCKED ring loses lock at 4 windows at the limit or a drop. A code an FSR or more from the calibrated point fails the ring
with 0x6012. The identity is the tone 6 dB above every other and above a quarter of the expected amplitude. IDENTITY_CHECK of its own
identity locks the ring; of another relocks it a channel spacing away; of none sends it to ACQUIRE. A temperature update at a
millisecond makes the outputs due, and a run due when the temperature moved by more than cal_thr. A run that ends 8,800,000 tk and its
lost slots after its start with both passes within tolerance is accepted, else rejected, and the third rejection retires the wave with
0x6013. A retry makes the run due. CAL_REPORT keeps its values for a run under way. HOURLY_MEAN at an hour keeps the last 8 means and
triggers fade at 85% of the ceiling, FEC_WINDOW at the second window above the threshold. Before their times these rows change nothing.
That an hour begins at multiples of the tick counter, and the ratio of 6 dB, are the model's (log 115).
(spec/11_wavelength_control_and_sparing.md, spec/10_optical_engine.md) -/
def Obligations.RingsLockAndCalibrate : Prop :=
  (∀ (l n : Nat) (tx dr : Bool) (d : Int) (s : State) (w : Wave) (b : Int), s.toeUp (linkTile l) = true → n ∈ s.lams l tx →
    w = s.wave l tx n → w.winAt ≤ s.tick → b = d - Config.ringBias (waveKey l tx n) →
    ((w.lock = 1 ∨ w.lock = 4) → w.found = false → d = 0 →
      exec (.integrationWindow l n tx d dr) s = .next (((s.moveRing l tx n (w.start + sweepOff (w.sweep + 1))
        { w with sweep := w.sweep + 1 }).nextWindow l tx n).lockDone l)) ∧
    ((w.lock = 1 ∨ w.lock = 4) → (w.found = true ∨ d ≠ 0) → ∃ x : Wave, exec (.integrationWindow l n tx d dr) s =
        .next (((s.moveRing l tx n (w.heater + clamp8 b) x).nextWindow l tx n).lockDone l) ∧ x.found = true ∧
        x.calm = (if -2 ≤ b ∧ b ≤ 2 then w.calm + 1 else 0) ∧ (16 ≤ x.calm → x.lock = 2 ∧ x.since = s.tick) ∧
        (x.calm < 16 → x.lock = w.lock ∧ x.since = w.since)) ∧
    ((w.lock = 2 ∨ w.lock = 3) → ∀ k u, k = (if b ≤ -8 ∨ 8 ≤ b then w.limit + 1 else 0) →
      u = s.moveRing l tx n (w.heater + clamp8 b) { w with limit := k } →
      ((w.lock = 2 ∨ (k < 4 ∧ dr = false) ∨ (u.wave l tx n).lock ≠ 3) →
        exec (.integrationWindow l n tx d dr) s = .next ((u.nextWindow l tx n).lockDone l)) ∧
      (w.lock = 3 → (4 ≤ k ∨ dr = true) → (u.wave l tx n).lock = 3 →
        exec (.integrationWindow l n tx d dr) s = .next (((u.loseLock l tx n).nextWindow l tx n).lockDone l))) ∧
    ((w.lock = 0 ∨ w.lock = 5) → exec (.integrationWindow l n tx d dr) s = .next ((s.nextWindow l tx n).lockDone l))) ∧
  (∀ (l n : Nat) (tx : Bool) (s : State), ((s.loseLock l tx n).wave l tx n).lock = 1 ∧
    ((s.loseLock l tx n).wave l tx n).lostAt = some s.tick ∧
    (s.loseLock l tx n).ev = (s.raise 0x6010 (uToe (linkTile l)) l 0 n).ev) ∧
  (∀ (l n : Nat) (tx : Bool) (code cal : Int) (w : Wave) (s : State), cal = (s.calPoint l tx n : Int) →
    (code - cal < (s.ringFuse l tx n).2 → cal - code < (s.ringFuse l tx n).2 → 0 ≤ code → code ≤ 16383 →
      (s.moveRing l tx n code w).wave l tx n = { w with heater := code.toNat } ∧ (s.moveRing l tx n code w).ev = s.ev) ∧
    (((s.ringFuse l tx n).2 ≤ code - cal ∨ (s.ringFuse l tx n).2 ≤ cal - code) →
      s.moveRing l tx n code w = (s.failRing l tx n).raise 0x6012 (uToe (linkTile l)) l 0 n)) ∧
  (∀ (amps : List Nat) (e i : Nat), identityOf amps e = some i ↔ i < 10 ∧ e < 4 * amps.getD i 0 ∧
    ∀ j, j < 10 → j ≠ i → 1000 * amps.getD j 0 ^ 10 ≤ amps.getD i 0 ^ 10) ∧
  (∀ (l n e : Nat) (tx : Bool) (amps : List Nat) (s : State), s.toeUp (linkTile l) = true → n ∈ s.lams l tx →
    (((s.wave l tx n).lock = 3 ∧ (s.wave l tx n).identAt ≤ s.tick) ∨
      ((s.wave l tx n).lock = 2 ∧ s.tick ≥ (s.wave l tx n).since + 25600)) →
    (identityOf amps e = some n → ∃ v : State, exec (.identityCheck l n tx amps e) s = .next (v.lockDone l) ∧
      (v.wave l tx n).lock = 3 ∧ (v.wave l tx n).lostAt = none ∧ (v.wave l tx n).identAt = s.tick + 100000 ∧
      (v.wave l tx n).heater = (s.wave l tx n).heater ∧ v.ev = s.ev ∧ v.opts = s.opts) ∧
    (∀ i, identityOf amps e = some i → i ≠ n → ∃ u : State,
      exec (.identityCheck l n tx amps e) s = .next ((u.relock l tx n (decide (i < n))).lockDone l) ∧
      u = if tx then s else s.os l TOE_RING.rx_ident i (win n)) ∧
    (identityOf amps e = none → ∃ v : State, exec (.identityCheck l n tx amps e) s = .next (v.lockDone l) ∧
      (v.wave l tx n).lock = 1 ∧ (v.wave l tx n).found = false ∧ (v.wave l tx n).start = (s.wave l tx n).heater ∧
      ((s.wave l tx n).lock = 3 → (v.wave l tx n).lostAt = some s.tick) ∧ v.ev = s.ev ∧ v.opts = s.opts)) ∧
  (∀ (l n : Nat) (tx up : Bool) (s : State), ∃ u : State, ∃ w : Wave, s.relock l tx n up = u.moveRing l tx n
      (if up then (s.wave l tx n).heater + (s.ringFuse l tx n).1 else (s.wave l tx n).heater - ((s.ringFuse l tx n).1 : Int)) w ∧
    w.lock = 4 ∧ w.found = false ∧ u.ev = (s.raise 0x6011 (uToe (linkTile l)) l 0 n).ev ∧ u.opts = s.opts) ∧
  (∀ (l : Nat) (q : Int) (s : State), s.toeUp (linkTile l) = true → s.tick % 100000 = 0 → ∃ u : State,
    exec (.temperatureUpdate l q) s = .next ((if s.og l TOE_STATUS.stage < 2 then u.followTemp l else u).startRuns l) ∧
    (u.opt l).temp = q ∧ (u.opt l).tempDue = true ∧ u.ev = s.ev ∧ u.mem = s.mem ∧
    ∀ tx n t, n ∈ s.lams l tx → (s.wave l tx n).calT = some t → (s.wave l tx n).dueAt = none → (s.wave l tx n).runAt = none →
      (s.wave l tx n).retryAt = none → (u.wave l tx n).dueAt =
        if q - t > 4 * s.og l TOE_WCTL.cal_thr ∨ t - q > 4 * s.og l TOE_WCTL.cal_thr then some s.tick else none) ∧
  (∀ (l n t : Nat) (tx : Bool) (r : CalRun) (s : State), s.toeUp (linkTile l) = true → (s.wave l tx n).runAt = some t →
    s.tick ≥ t + 8800000 + (s.wave l tx n).lost → ∃ v : State,
      exec (.calibrationRunEnd l n tx r) s = .next ((((v.backToSpare l tx n).showCal l n).serveWant l).startRuns l) ∧
      (v.wave l tx n).runAt = none ∧ v.opts = s.opts ∧
      (runAgrees r = true → (v.wave l tx n).calOk = true ∧ (v.wave l tx n).calT = some (s.opt l).temp ∧
        (v.wave l tx n).rejects = 0 ∧ v.ev = s.ev) ∧
      (runAgrees r = false → (s.wave l tx n).rejects < 2 → (v.wave l tx n).rejects = (s.wave l tx n).rejects + 1 ∧
        (v.wave l tx n).retryAt = some (s.tick + 100000000) ∧ (v.wave l tx n).sets = (s.wave l tx n).sets ∧ v.ev = s.ev) ∧
      (runAgrees r = false → 2 ≤ (s.wave l tx n).rejects → (v.wave l tx n).retired = true ∧ (v.wave l tx n).rejects = 0 ∧
        v.ev = (s.raise 0x6013 (uToe (linkTile l)) l 0 n).ev)) ∧
  (∀ (l n t : Nat) (tx : Bool) (s : State), s.toeUp (linkTile l) = true → (s.wave l tx n).retryAt = some t → t ≤ s.tick → ∃ v : State,
    exec (.calibrationRetry l n tx) s = .next (v.startRuns l) ∧
    v.wave l tx n = { s.wave l tx n with retryAt := none, dueAt := some s.tick } ∧ v.opts = s.opts ∧ v.ev = s.ev) ∧
  (∀ (f : FlitHdr) (n item pass : Nat) (vs : List Int) (s u : State), s.flitRuns (.calReport f n item pass vs) = true →
    u = s.flitTaken f →
    ((u.wave f.link true n).runAt ≠ none → exec (.calReport f n item pass vs) s = .next (u.setWave f.link true n {
      u.wave f.link true n with
      reports := (u.wave f.link true n).reports ++ [(item : Int) :: (pass : Int) :: vs] })) ∧
    ((u.wave f.link true n).runAt = none → exec (.calReport f n item pass vs) s = .next u)) ∧
  (∀ (l n mean : Nat) (s : State), s.yields (.hourlyMean l n) = false → s.toeUp (linkTile l) = true → n ∈ s.lams l true →
    s.tick % 360000000000 = 0 → mean = s.hourMean l n → ∃ v : State,
    (v.wave l true n).means = (mean :: (s.wave l true n).means).take 8 ∧ (v.wave l true n).biasSum = 0 ∧
    v.og l TOE_FADE.bias_mean (win n) = mean % 2 ^ TOE_FADE.bias_mean.w ∧ v.ev = s.ev ∧ v.opts = s.opts ∧
    exec (.hourlyMean l n) s = .next (if fadePoint (mget s.fuses.ceilings (waveKey l true n) 1023) ≤ s.og l TOE_LANE_ANA.bias (win n)
      then v.fadeTrigger l true n else v)) ∧
  (∀ (l n over_ : Nat) (s : State), s.yields (.fecWindow l n) = false → s.toeUp (linkTile l) = true → n ∈ s.lams l false →
    1024 ≤ (s.wave l false n).wN →
    over_ = (if s.og l TOE_WCTL.fec_thr < (s.wave l false n).wFixed then (s.wave l false n).wOver + 1 else 0) → ∃ v : State,
      v = s.setWave l false n { s.wave l false n with wFixed := 0, wN := 0, wOver := over_ } ∧
      exec (.fecWindow l n) s = .next (if 2 ≤ over_ then v.fadeTrigger l false n else v)) ∧
  (∀ (l n e : Nat) (tx dr : Bool) (d q : Int) (amps : List Nat) (r : CalRun) (s : State),
    ((s.toeUp (linkTile l) = false ∨ n ∉ s.lams l tx ∨ s.tick < (s.wave l tx n).winAt) →
      exec (.integrationWindow l n tx d dr) s = .next s) ∧
    ((s.toeUp (linkTile l) = false ∨ n ∉ s.lams l tx ∨ ((s.wave l tx n).lock ≠ 2 ∧ (s.wave l tx n).lock ≠ 3)) →
      exec (.identityCheck l n tx amps e) s = .next s) ∧
    ((s.toeUp (linkTile l) = false ∨ s.tick % 100000 ≠ 0) → exec (.temperatureUpdate l q) s = .next s) ∧
    ((s.toeUp (linkTile l) = false ∨ (s.wave l tx n).runAt = none) → exec (.calibrationRunEnd l n tx r) s = .next s) ∧
    ((s.toeUp (linkTile l) = false ∨ (s.wave l tx n).retryAt = none) → exec (.calibrationRetry l n tx) s = .next s) ∧
    (s.yields (.hourlyMean l n) = false → (s.toeUp (linkTile l) = false ∨ n ∉ s.lams l true ∨ s.tick % 360000000000 ≠ 0) →
      exec (.hourlyMean l n) s = .next s) ∧
    (s.yields (.fecWindow l n) = false → (s.toeUp (linkTile l) = false ∨ n ∉ s.lams l false ∨ (s.wave l false n).wN < 1024) →
      exec (.fecWindow l n) s = .next s))

/-- SPARE messages, replacement boundaries and emergencies. Sparing messages are flits, and run as such. SPARE_ASK in SERVICE of a
wavelength with a lane counts a fade and replaces it (reason 1) or queues it (2); else it changes nothing. SPARE_CMD before its boundary,
in SERVICE, schedules the change of the lane's wavelength; at its boundary or later it is ignored. SPARE_ABORT of the scheduled
substitution drops it, and from its fourth boundary restores the map and epoch. SPARE_DONE with another epoch or map than the transmit
end's finds a mismatch: 0x6018 and bring-up from TEST; with the same ones it ends the change, or notes it as told. SPARE_DONE_TIMEOUT at
boundary M + 88 of a change not yet told finds a mismatch. At each REPLACEMENT_BOUNDARY of a direction in SERVICE its change goes on: the
receive end judges the spare at M + 64, and at M + 76 switches its map, counts it, sends SPARE_DONE and raises 0x6015, but commands the
change anew where the transmit end's markers do not show its epoch; the transmit end's spare carries a copy from M + 72.
EMERGENCY_REPLACEMENT, in its turn, of an emergent wavelength with a lane ends a hitless change under way, raises 0x6017, counts, and
commands the replacement by the first free spare at once, or narrows without one. (spec/11_wavelength_control_and_sparing.md,
spec/12_ruino_link_layer.md) -/
def Obligations.SparingExchange : Prop :=
  (∀ (f : FlitHdr) (reason lam : Nat) (s u : State), s.flitRuns (.spareAsk f reason lam) = true → u = s.flitTaken f →
    ((u.og f.link TOE_STATUS.stage ≠ 5 ∨ 8 ≤ roleAt (u.og f.link TOE_RX_MAP.role) lam ∨ (reason ≠ 1 ∧ reason ≠ 2)) →
      exec (.spareAsk f reason lam) s = .next u) ∧
    (u.og f.link TOE_STATUS.stage = 5 → roleAt (u.og f.link TOE_RX_MAP.role) lam < 8 →
      (reason = 1 → exec (.spareAsk f reason lam) s = .next ((u.oinc f.link TOE_SPARE.fades 1).fadeReplace f.link lam)) ∧
      (reason = 2 → exec (.spareAsk f reason lam) s = .next ((u.setOpt f.link { u.opt f.link with
        want := (u.opt f.link).want ++ [(lam, 2)] }).serveWant f.link)))) ∧
  (∀ (f : FlitHdr) (action x y epoch m d : Nat) (s u : State), s.flitRuns (.spareCmd f action x y epoch m) = true →
    u = s.flitTaken f → d = (u.txCount f.link + 2 ^ 16 - m % 2 ^ 16) % 2 ^ 16 →
    ((d < 2 ^ 15 ∨ u.og f.link TOE_STATUS.stage ≠ 5 ∨ 10 ≤ y ∨ action = 0 ∨ 4 < action ∨
      (action ≠ 4 ∧ laneWave (u.og f.link TOE_TX_MAP.role) x = none)) → exec (.spareCmd f action x y epoch m) s = .next u) ∧
    (∀ w, 2 ^ 15 ≤ d → u.og f.link TOE_STATUS.stage = 5 → y < 10 → 1 ≤ action → action ≤ 4 →
      (action ≠ 4 → laneWave (u.og f.link TOE_TX_MAP.role) x = some w) → (action = 4 → w = y) →
      exec (.spareCmd f action x y epoch m) s = .next (u.setOpt f.link { u.opt f.link with
        txAct := some ⟨action, x, w, y, epoch, m, if (u.opt f.link).asked.contains (w, 2) then 2 else 1, 0, false⟩
        asked := (u.opt f.link).asked.filter (fun a => a.1 != w) }))) ∧
  (∀ (map x w : Nat), laneWave map x = some w → w < 10 ∧ roleAt map w = x) ∧
  (∀ (f : FlitHdr) (m : Nat) (s u : State), s.flitRuns (.spareAbort f m) = true → u = s.flitTaken f →
    ((u.opt f.link).txAct = none → exec (.spareAbort f m) s = .next u) ∧
    (∀ a, (u.opt f.link).txAct = some a →
      ((a.m ≠ m ∨ a.action ≠ 1) → exec (.spareAbort f m) s = .next u) ∧
      (a.m = m → a.action = 1 → a.stage < 3 →
        exec (.spareAbort f m) s = .next (u.setOpt f.link { u.opt f.link with txAct := none })) ∧
      (a.m = m → a.action = 1 → 3 ≤ a.stage → ∃ v : State, exec (.spareAbort f m) s = .next v ∧
        (v.opt f.link).txAct = none ∧ v.og f.link TOE_STATUS.tx_epoch = prevEpoch a.epoch % 2 ^ TOE_STATUS.tx_epoch.w ∧
        v.og f.link TOE_TX_MAP.role = setRole (setRole (u.og f.link TOE_TX_MAP.role) a.new 0xE) a.old a.lane % 2 ^ TOE_TX_MAP.role.w ∧
        v.waves = u.waves ∧ v.links = u.links ∧ v.ev = u.ev))) ∧
  (∀ (f : FlitHdr) (epoch role : Nat) (s u : State), s.flitRuns (.spareDone f epoch role) = true → u = s.flitTaken f →
    ((u.opt f.link).txAct = none → exec (.spareDone f epoch role) s = .next u) ∧
    (∀ a mine, (u.opt f.link).txAct = some a →
      mine = (if 5 ≤ a.stage then u.og f.link TOE_TX_MAP.role else a.apply (u.og f.link TOE_TX_MAP.role)) →
      ((epoch ≠ a.epoch ∨ role ≠ mine) → exec (.spareDone f epoch role) s = .next (u.spareMismatch f.link)) ∧
      (epoch = a.epoch → role = mine → exec (.spareDone f epoch role) s = .next (u.setOpt f.link { u.opt f.link with
        txAct := if 5 ≤ a.stage then none else some { a with told := true } })))) ∧
  (∀ (l : Nat) (s : State), s.spareMismatch l = (s.raise 0x6018 (uToe (linkTile l)) l).startTest l) ∧
  (∀ (l : Nat) (s : State), (s.toeUp (linkTile l) = false ∨ (s.opt l).txAct = none) → exec (.spareDoneTimeout l) s = .next s) ∧
  (∀ (l d : Nat) (a : SpareAct) (s : State), s.toeUp (linkTile l) = true → (s.opt l).txAct = some a →
    d = (s.txCount l + 2 ^ 16 - a.m % 2 ^ 16) % 2 ^ 16 →
    (1 ≤ a.stage → a.told = false → 88 ≤ d → d < 2 ^ 15 → exec (.spareDoneTimeout l) s = .next (s.spareMismatch l)) ∧
    ((a.stage = 0 ∨ a.told = true ∨ d < 88 ∨ 2 ^ 15 ≤ d) → exec (.spareDoneTimeout l) s = .next s)) ∧
  (∀ (l : Nat) (tx : Bool) (s : State), (s.toeUp (linkTile l) = false ∨ s.og l TOE_STATUS.stage ≠ 5 ∨
      (tx = true ∧ ((s.opt l).txAct = none ∨ s.nextBoundary l ≠ s.tick)) ∨ (tx = false ∧ (s.opt l).rxAct = none)) →
    exec (.replacementBoundary l tx) s = .next s) ∧
  (∀ (l d : Nat) (a : SpareAct) (s : State), s.toeUp (linkTile l) = true → s.og l TOE_STATUS.stage = 5 →
    ((s.opt l).txAct = some a → s.nextBoundary l = s.tick → d = (s.txCount l + 2 ^ 16 - a.m % 2 ^ 16) % 2 ^ 16 →
      (d < 2 ^ 15 → boundaryOf a.stage ≤ d → exec (.replacementBoundary l true) s = .next (txBoundary l a s)) ∧
      ((2 ^ 15 ≤ d ∨ d < boundaryOf a.stage) → exec (.replacementBoundary l true) s = .next s)) ∧
    ((s.opt l).rxAct = some a → d = ((s.opt l).mcount + 2 ^ 16 - a.m % 2 ^ 16) % 2 ^ 16 →
      (d < 2 ^ 15 → boundaryOf a.stage ≤ d → exec (.replacementBoundary l false) s = .next ((rxBoundary l a s).startRuns l)) ∧
      ((2 ^ 15 ≤ d ∨ d < boundaryOf a.stage) → exec (.replacementBoundary l false) s = .next s))) ∧
  (∀ (l : Nat) (a : SpareAct) (s : State), a.action = 1 →
    (a.stage = 2 → (txBoundary l a s).og l TOE_TX_MAP.role =
        setRole (s.og l TOE_TX_MAP.role) a.new a.lane % 2 ^ TOE_TX_MAP.role.w ∧
      (txBoundary l a s).og l TOE_STATUS.tx_epoch = a.epoch % 2 ^ TOE_STATUS.tx_epoch.w ∧
      ((txBoundary l a s).opt l).txAct = some { a with stage := 3 }) ∧
    (a.stage = 4 → txBoundary l a s =
      ((s.switchTx l (a.apply (s.og l TOE_TX_MAP.role)) a.epoch).releaseTx l a).doneTx l a) ∧
    ((a.stage = 0 ∨ a.stage = 1 ∨ a.stage = 3) → txBoundary l a s = s.setTxAct l { a with stage := a.stage + 1 }) ∧
    (a.stage = 1 → s.sparePassed l a.new = true → rxBoundary l a s = s.setRxAct l { a with stage := 2 }) ∧
    (a.stage = 1 → s.sparePassed l a.new = false → ∃ v : State,
      rxBoundary l a s = (if a.reason = 1 then v.fadeReplace l a.old else v.serveWant l) ∧
      (v.wave l false a.new).failed = true ∧ (v.opt l).rxAct = none ∧ v.ev = s.ev) ∧
    (a.stage = 2 → rxBoundary l a s = s.setRxAct l { a with stage := 3 }) ∧
    (a.stage = 3 → (s.opt l).pEpoch = a.epoch →
      rxBoundary l a s = ((s.switchRx l a).raise 0x6015 (uToe (linkTile l)) l 0 a.old).setRxAct l { a with stage := 4 }) ∧
    (a.stage = 3 → (s.opt l).pEpoch ≠ a.epoch → rxBoundary l a s =
      (s.raise 0x6018 (uToe (linkTile l)) l).command l a.action a.lane a.old a.new a.reason)) ∧
  (∀ (l : Nat) (a : SpareAct) (s : State),
    (s.switchRx l a).og l TOE_STATUS.rx_epoch = a.epoch % 2 ^ TOE_STATUS.rx_epoch.w ∧
    (s.switchRx l a).og l TOE_RX_MAP.role = a.apply (s.og l TOE_RX_MAP.role) % 2 ^ TOE_RX_MAP.role.w ∧
    (s.switchRx l a).og l TOE_SPARE.switches = min (s.og l TOE_SPARE.switches + 1) (2 ^ TOE_SPARE.switches.w - 1) ∧
    (s.switchRx l a).ev = s.ev ∧ (s.switchRx l a).opts = s.opts ∧
    (s.lg l LNK_STATUS.state = 2 ∨ s.lg l LNK_STATUS.state = 3 → ((s.switchRx l a).link l).queue =
      (s.link l).queue ++ [{ link := l, type := 0x32, args := [4, a.epoch, a.apply (s.og l TOE_RX_MAP.role)] }])) ∧
  (∀ (l action lane old new reason : Nat) (s : State), ((s.command l action lane old new reason).opt l).rxAct =
    some ⟨action, lane, old, new, nextEpoch (s.og l TOE_STATUS.rx_epoch), ((s.opt l).mcount + 8) % 2 ^ 16, reason, 0, false⟩) ∧
  (∀ (l n : Nat) (s b u : State), s.yields (.emergencyReplacement l n) = false → s.toeUp (linkTile l) = true →
    s.og l TOE_STATUS.stage = 5 → n < 10 → roleAt (s.og l TOE_RX_MAP.role) n < 8 → s.emergent l n = true →
    ((s.opt l).rxAct = none → b = s) →
    (∀ a, (s.opt l).rxAct = some a → a.action = 1 ∧
      b = (if a.old = n then (s.oinc l TOE_SPARE.aborts 1).endAct l else s.abortAct l)) →
    u = (b.raise 0x6017 (uToe (linkTile l)) l 0 n).oinc l TOE_SPARE.emergencies 1 →
    ((u.freeSpares l false).head? = none → exec (.emergencyReplacement l n) s = .next (u.narrow l n)) ∧
    (∀ y, (u.freeSpares l false).head? = some y → exec (.emergencyReplacement l n) s =
      .next ((if (u.wave l false y).runAt.isSome then u.dropRun l false y else u).command l 2
        (roleAt (s.og l TOE_RX_MAP.role) n) n y 3))) ∧
  (∀ (l n : Nat) (s : State), s.yields (.emergencyReplacement l n) = false → (s.toeUp (linkTile l) = false ∨
      s.og l TOE_STATUS.stage ≠ 5 ∨ 10 ≤ n ∨ 8 ≤ roleAt (s.og l TOE_RX_MAP.role) n ∨ s.emergent l n = false ∨
      ∃ a, (s.opt l).rxAct = some a ∧ a.action ≠ 1) →
    exec (.emergencyReplacement l n) s = .next s)

/-- Every received flit meets the checks, its header and its number in order. For each row that carries a flit: on an absent tile or a
link that is DOWN, REFUSED or HELD nothing changes. Else a flit that fails a check ends the link with a protocol error that names
its type and the first check that fails. In TRAIN a sequenced flit changes nothing. On an ACTIVE or QUARANTINED link the header of
a sequenced flit is applied; the next one in order runs; one that was accepted before is discarded and counted and starts the ack
timer, one ahead of a lost one is discarded and counted. IDLE only has its header applied, and in TRAIN nothing. A flit that fails its
CRC is counted, and nothing else, on a link that is not DOWN and not HELD. (spec/12_ruino_link_layer.md) -/
def Obligations.FlitsAreCheckedInOrder : Prop :=
  (∀ (i : Instr) (f : FlitHdr) (type rsv : Nat) (dst : Nat × Nat) (s : State), flitOf i = some (f, type, rsv, dst) →
    ((s.tileUp (linkTile f.link) = false ∨ s.lg f.link LNK_STATUS.state = 0 ∨ 4 ≤ s.lg f.link LNK_STATUS.state) →
      exec i s = .next s) ∧
    (s.tileUp (linkTile f.link) = true → 1 ≤ s.lg f.link LNK_STATUS.state → s.lg f.link LNK_STATUS.state ≤ 3 →
      (∀ n, s.flitCheck f type rsv dst = some n → exec i s = .next (s.protoError f.link type n)) ∧
      (s.flitCheck f type rsv dst = none → 3 < type →
        (s.lg f.link LNK_STATUS.state = 1 → exec i s = .next s) ∧
        (s.lg f.link LNK_STATUS.state ≠ 1 → ∀ u d, u = s.applyHeader f → d = seqDiff f.seq (u.link f.link).expect →
          (d = 0 → s.flitRuns i = true ∧ (s.flitTaken f).mem = s.mem ∧ (s.flitTaken f).ev = s.ev ∧
            ((s.flitTaken f).link f.link).expect = ((u.link f.link).expect + 1) % 2 ^ 16) ∧
          (2 ^ 15 ≤ d → exec i s = .next ((u.linc f.link LNK_COUNTS.discards 1).startAck f.link)) ∧
          (0 < d → d < 2 ^ 15 → exec i s = .next (u.linc f.link LNK_COUNTS.discards 1)))))) ∧
  (∀ (f : FlitHdr) (s : State), s.tileUp (linkTile f.link) = true → s.flitCheck f 0 0 (0, 0) = none →
    (s.lg f.link LNK_STATUS.state = 1 → exec (.idle f) s = .next s) ∧
    ((s.lg f.link LNK_STATUS.state = 2 ∨ s.lg f.link LNK_STATUS.state = 3) → exec (.idle f) s = .next (s.applyHeader f))) ∧
  (∀ (l type n : Nat) (s : State), s.protoError l type n = (((s.ls l LNK_ERR.ptype type).ls l LNK_ERR.pcheck n).raise 0x7010
    (uTile (linkTile l)) l 0 (type + n * 2 ^ 8)).linkFall l 4) ∧
  (∀ (l : Nat) (s : State), (s.tileUp (linkTile l) = true → 1 ≤ s.lg l LNK_STATUS.state → s.lg l LNK_STATUS.state ≤ 4 →
      exec (.crcFailedFlit l) s = .next (s.linc l LNK_COUNTS.crc_fails 1)) ∧
    ((s.tileUp (linkTile l) = false ∨ s.lg l LNK_STATUS.state = 0 ∨ 4 < s.lg l LNK_STATUS.state) →
      exec (.crcFailedFlit l) s = .next s))

/-- TRAIN, PING, PONG, CHAR, LINK_DOWN, the link timers and LNK_CTL. In TRAIN, a TRAIN flit is noted; with seen = 1 from the peer that the
light list names, not yet agreed, that supports minor versions of major 1, it is agreed to with the lower minor, the next epoch after
both, its characteristic and a PING; from another peer it refuses the link with 0x7011, without a common version with 0x7012. A PING is
answered with its stamp. A PONG of the PING under way is one of 16 measurements, of which the shortest counts; the 16th ends training,
ACTIVE where the characteristics agree, else QUARANTINED and counted. A CHAR is compared once nothing that waits in the tick can change the
own value or take the link down: one that agrees makes a QUARANTINED link ACTIVE with 0x7021, one that differs quarantines an ACTIVE one.
CHAR_PERIOD sends it again. LINK_DOWN takes the link down with cause 2, LNK_CTL.down with 5; LNK_CTL.train takes a REFUSED one to
training, or to HELD. A replay timeout hands every held flit to the link's positions again, and the 16th one takes the link down with
cause 3. An ack is due 26 tk after the first flit. Each row on an absent tile or before its time changes nothing.
(spec/12_ruino_link_layer.md) -/
def Obligations.LinksTrainAndFall : Prop :=
  (∀ (f : FlitHdr) (t : TrainMsg) (s v : State), s.tileUp (linkTile f.link) = true → s.lg f.link LNK_STATUS.state = 1 →
    s.flitCheck f 1 0 (0, 0) = none →
    v = (((s.ls f.link LNK_PEER.pod t.pod).ls f.link LNK_PEER.pkg t.pkg).ls f.link LNK_PEER.link t.link).setLink f.link
      { s.link f.link with
        gotTrain := true
        epochLast := t.epoch } →
    ((t.seen = false ∨ (s.link f.link).agreed = true) → exec (.train f t) s = .next v) ∧
    (t.seen = true → (s.link f.link).agreed = false →
      (∀ m, s.peerOf f.link = (t.pod, t.pkg) → minorWith t = some m → ∃ u : State, exec (.train f t) s = .next u ∧
        u.lg f.link LNK_STATUS.major = 1 ∧ u.lg f.link LNK_STATUS.minor = m % 2 ^ LNK_STATUS.minor.w ∧
        u.lg f.link LNK_PEER_CHAR.value = t.char % 2 ^ LNK_PEER_CHAR.value.w ∧ (u.link f.link).agreed = true ∧
        (u.link f.link).pings = 0 ∧ (u.link f.link).uq = (s.link f.link).uq ++ [{ link := f.link, type := 2, args := [] }] ∧
        u.lg f.link LNK_STATUS.state = 1 ∧
        (let e := (Nat.max (s.lg f.link LNK_STATUS.epoch) t.epoch + 1) % 2 ^ 32
         u.lg f.link LNK_STATUS.epoch = if e = 0 then 1 else e) ∧ u.ev = s.ev ∧ u.mem = s.mem) ∧
      (s.peerOf f.link ≠ (t.pod, t.pkg) → exec (.train f t) s = .next ((v.ls f.link LNK_STATUS.state 4).raise 0x7011
        (uTile (linkTile f.link)) f.link 0 ((s.peerOf f.link).1 + (s.peerOf f.link).2 * 2 ^ 8 + t.pod * 2 ^ 16 +
          t.pkg * 2 ^ 24))) ∧
      (s.peerOf f.link = (t.pod, t.pkg) → minorWith t = none → exec (.train f t) s =
        .next ((v.ls f.link LNK_STATUS.state 4).raise 0x7012 (uTile (linkTile f.link)) f.link)))) ∧
  (∀ (f : FlitHdr) (stamp : Nat) (s : State), s.tileUp (linkTile f.link) = true → s.lg f.link LNK_STATUS.state = 1 →
    s.flitCheck f 2 0 (0, 0) = none → exec (.ping f stamp) s = .next (s.sendLink f.link 3 [stamp]) ∧
    ((s.sendLink f.link 3 [stamp]).link f.link).uq = (s.link f.link).uq ++ [{ link := f.link, type := 3, args := [stamp] }]) ∧
  (∀ (f : FlitHdr) (stamp best : Nat) (s : State), s.tileUp (linkTile f.link) = true → s.lg f.link LNK_STATUS.state = 1 →
    s.flitCheck f 3 0 (0, 0) = none →
    best = (if (s.link f.link).pings = 0 then s.tick - stamp else min (s.link f.link).rtt (s.tick - stamp)) →
    (((s.link f.link).agreed = false ∨ stamp ≠ (s.link f.link).pingAt ∨ 16 ≤ (s.link f.link).pings) →
      exec (.pong f stamp) s = .next s) ∧
    ((s.link f.link).agreed = true → stamp = (s.link f.link).pingAt →
      ((s.link f.link).pings < 15 → ∃ u : State, exec (.pong f stamp) s = .next u ∧
        (u.link f.link).pings = (s.link f.link).pings + 1 ∧ (u.link f.link).rtt = best ∧
        (u.link f.link).uq = (s.link f.link).uq ++ [{ link := f.link, type := 2, args := [] }] ∧ u.regs = s.regs ∧ u.ev = s.ev) ∧
      ((s.link f.link).pings = 15 → exec (.pong f stamp) s = .next (s.finishTraining f.link best) ∧
        (s.finishTraining f.link best).lg f.link LNK_STATUS.state =
          if s.lg f.link LNK_OWN_CHAR.value = s.lg f.link LNK_PEER_CHAR.value then 2 else 3))) ∧
  (∀ (f : FlitHdr) (v : Nat) (s u w : State), s.flitRuns (.char f v) = true →
    u = (s.flitTaken f).ls f.link LNK_PEER_CHAR.value v → v < 2 ^ 64 →
    w = u.setLink f.link { u.link f.link with charDue := false } →
    (s.soon (charWaits f.link) = true → exec (.char f v) s = .next (u.setLink f.link { u.link f.link with charDue := true })) ∧
    (s.soon (charWaits f.link) = false →
      (v = u.lg f.link LNK_OWN_CHAR.value → u.lg f.link LNK_STATUS.state = 3 → exec (.char f v) s = .next ((w.ls f.link
        LNK_STATUS.state 2).raise 0x7021 (uTile (linkTile f.link)) f.link)) ∧
      (v ≠ u.lg f.link LNK_OWN_CHAR.value → u.lg f.link LNK_STATUS.state = 2 →
        exec (.char f v) s = .next (w.quarantine f.link)) ∧
      (v = u.lg f.link LNK_OWN_CHAR.value → u.lg f.link LNK_STATUS.state = 2 → exec (.char f v) s = .next w) ∧
      (v ≠ u.lg f.link LNK_OWN_CHAR.value → u.lg f.link LNK_STATUS.state = 3 → exec (.char f v) s = .next w))) ∧
  (∀ (l : Nat) (s : State),
    (s.tileUp (linkTile l) = true → (s.lg l LNK_STATUS.state = 2 ∨ s.lg l LNK_STATUS.state = 3) → s.tick ≥ (s.link l).charAt →
      exec (.charPeriod l) s = .next (s.sendChar l) ∧ ((s.sendChar l).link l).charAt = s.tick + 100000 ∧
      ((s.sendChar l).link l).queue = (s.link l).queue ++
        [{ link := l, type := 0x30, args := [s.lg l LNK_OWN_CHAR.value] }]) ∧
    ((s.tileUp (linkTile l) = false ∨ (s.lg l LNK_STATUS.state ≠ 2 ∧ s.lg l LNK_STATUS.state ≠ 3) ∨ s.tick < (s.link l).charAt) →
      exec (.charPeriod l) s = .next s)) ∧
  (∀ (f : FlitHdr) (cause : Nat) (s : State), s.flitRuns (.linkDown f cause) = true →
    exec (.linkDown f cause) s = .next ((s.flitTaken f).linkFall f.link 2)) ∧
  (∀ (l : Nat) (s : State),
    (s.yields (.lnkCtlDown l) = false → s.tileUp (linkTile l) = true → exec (.lnkCtlDown l) s = .next (s.linkFall l 5)) ∧
    (s.yields (.lnkCtlDown l) = false → s.tileUp (linkTile l) = false → exec (.lnkCtlDown l) s = .next s) ∧
    (s.tileUp (linkTile l) = true → s.lg l LNK_STATUS.state = 4 → s.lg l LNK_CTL.hold = 0 →
      exec (.lnkCtlTrain l) s = .next ((s.ls l LNK_STATUS.state 0).trainLink l)) ∧
    (s.tileUp (linkTile l) = true → s.lg l LNK_STATUS.state = 4 → s.lg l LNK_CTL.hold = 1 →
      exec (.lnkCtlTrain l) s = .next (s.ls l LNK_STATUS.state 5)) ∧
    ((s.tileUp (linkTile l) = false ∨ s.lg l LNK_STATUS.state ≠ 4) → exec (.lnkCtlTrain l) s = .next s) ∧
    (s.endedNow (oLink l) = false → (s.lg l LNK_STATUS.state = 0 ∨ 4 ≤ s.lg l LNK_STATUS.state) → ∀ c, s.linkFall l c = s) ∧
    ((s.ls l LNK_STATUS.state 0).trainLink l).lg l LNK_STATUS.state = if s.tileUp (linkTile l) ∧ s.inService l then 1 else 0) ∧
  (∀ (l : Nat) (s u : State), s.yields (.replayTimeout l) = false → u = s.linc l LNK_COUNTS.replays 1 →
    (((s.link l).timer = none ∨ s.tileUp (linkTile l) = false ∨ ∃ n, (s.link l).timer = some n ∧ s.tick < n) →
      exec (.replayTimeout l) s = .next s) ∧
    (∀ n, s.tileUp (linkTile l) = true → (s.link l).timer = some n → n ≤ s.tick →
      ((s.link l).tries = 15 → exec (.replayTimeout l) s = .next (u.linkFall l 3)) ∧
      ((s.link l).tries ≠ 15 → exec (.replayTimeout l) s = .next (u.setLink l { s.link l with
        tries := (s.link l).tries + 1
        timer := some (s.tick + tauOf (s.lg l LNK_RTT.rtt_tk))
        replay := (s.link l).held })))) ∧
  (∀ (l : Nat) (s : State),
    (∀ n, s.tileUp (linkTile l) = true → (s.link l).ackFrom = some n → n + 26 ≤ s.tick →
      exec (.ackDueTimeout l) s = .next (s.setLink l { s.link l with ackDue := true })) ∧
    ((s.tileUp (linkTile l) = false ∨ (s.link l).ackFrom = none ∨ ∃ n, (s.link l).ackFrom = some n ∧ s.tick < n + 26) →
      exec (.ackDueTimeout l) s = .next s))

/-- Transfers, span operations, events and plan control between packages. The sequenced messages of a link, as flits that run. A flit of
a transfer for this package, whose plan runs as a context and whose bytes are mapped and can be reached, the first one's transfer lying
in a peer region, sets them out to their destination; else the transfer is refused with 0x4210 and REFUSE cause 1, and what more comes
of it is discarded; a later flit of an unknown tag is a protocol error with check 3. A first flit for another package goes on over the
link to it, and the later ones after it, or is refused with cause 2 and 0x7030. DELIVERED and REFUSE end the transfer they name, of this
package, REFUSE with error code 8, or go back over the link it came from. SYNC_OP posts a span operation to the hub here that holds its
object, sends it on to its package, or is refused: 0x3020 for what this package has not or not so, 0x7030 for no way. SYNC_RESULT of an
operation sent on goes back; of the head of a sync unit it completes that, times it out or rejects it. BARRIER_REL goes back where
arrivals were sent on, and completes the sync units that wait for the barrier among the members. EVENT appends the record, marked
forwarded with the peer's IDs, and its annotation. PLAN_CTL readies, stops or aborts the context of the plan. The refusal with cause 2 of
bytes that no route reaches, and routes, are the model's choice (log 109). (spec/12_ruino_link_layer.md, spec/06_synchronisation.md,
spec/07_memory_translation_dma.md, spec/04_plans_and_the_sequencer.md) -/
def Obligations.LinkMessagesRun : Prop :=
  (∀ (l : Nat) (x : PeerXfer) (first : Bool) (d : DataMsg) (data : List Byte) (u : State) (y : PeerXfer),
    y = { x with got := x.got + data.length } →
    (x.good = false → u.landFlit l x first d data = if x.total ≤ y.got then u.dropXfer l x.tag else u.setXfer l y) ∧
    (x.good = true → u.ctxOfPlan x.plan = none → u.landFlit l x first d data = u.refuseXfer l 0 y d.va) ∧
    (∀ c, x.good = true → u.ctxOfPlan x.plan = some c →
      ((first = true ∧ inPeerRegion (u.ctx c).plan.regions d.va x.total = false) ∨
        u.pagesVa (u.ctxRoot c).1 (u.ctxRoot c).2 2 d.va data.length = none →
        u.landFlit l x first d data = u.refuseXfer l c y d.va) ∧
      (∀ pages, (first = true → inPeerRegion (u.ctx c).plan.regions d.va x.total = true) →
        u.pagesVa (u.ctxRoot c).1 (u.ctxRoot c).2 2 d.va data.length = some pages →
        ((∃ p ∈ pages, u.landPath l c (if x.flow = 0 then none else some x.flow) (paTile p.1) = none) →
          u.landFlit l x first d data = u.refuseXfer l c y d.va) ∧
        ((∀ p ∈ pages, u.landPath l c (if x.flow = 0 then none else some x.flow) (paTile p.1) ≠ none) → ∃ runs : List Run,
          u.landFlit l x first d data = { u.setXfer l y with net := u.net ++ runs } ∧ runs.map (·.a) = pages.map (·.1) ∧
          runs.flatMap (·.data) = data.take ((pages.map (·.2)).sum) ∧
          ∀ r ∈ runs, r.msg = none ∧ r.ctx = c ∧ r.from_ = some (l, x.tag) ∧ r.tile = paTile r.a)))) ∧
  (∀ (l c va : Nat) (x : PeerXfer) (u : State), (u.refuseXfer l c x va).ev =
      (u.raise 0x4210 (uTile (linkTile l)) l 0 (c + va * 2 ^ 6)).ev ∧ (u.refuseXfer l c x va).mem = u.mem ∧
    ((u.refuseXfer l c x va).link l).xfers.head? = some { x with good := false } ∧
    ((u.lg l LNK_STATUS.state = 2 ∨ u.lg l LNK_STATUS.state = 3) → ((u.refuseXfer l c x va).link l).queue =
      (u.link l).queue ++ [{ link := l, type := 0x19, args := [x.pod, x.pkg, x.tag, 1] }])) ∧
  (∀ (f : FlitHdr) (d : DataMsg) (h : XferHdr) (s u : State) (p : PeerXfer), s.flitRuns (.writeFirst f d h) = true → u = s.flitTaken f →
    p = { tag := d.tag, flow := d.flow, plan := h.planId, total := h.total, pod := d.dstPod, pkg := d.dstPkg, good := true } →
    (u.ownPkg d.dstPod d.dstPkg = true → exec (.writeFirst f d h) s = .next (u.landFlit f.link p true d (d.bytes.take f.len))) ∧
    (∀ o, u.ownPkg d.dstPod d.dstPkg = false → u.forwardLink f.link d.dstPod d.dstPkg = some o → exec (.writeFirst f d h) s =
      .next ((u.setXfer f.link { p with
        got := (d.bytes.take f.len).length
        fwd := some o }).passFlit f.link o f.vc h.planId d (some h) (d.bytes.take f.len))) ∧
    (u.ownPkg d.dstPod d.dstPkg = false → u.forwardLink f.link d.dstPod d.dstPkg = none → ∃ v : State,
      v = (u.raise 0x7030 (uTile (linkTile f.link)) f.link 0 (d.dstPod + d.dstPkg * 2 ^ 8)).sendLink f.link 0x19
        [d.dstPod, d.dstPkg, d.tag, 2] ∧
      exec (.writeFirst f d h) s = .next (if h.total ≤ (d.bytes.take f.len).length then v else v.setXfer f.link { p with
        got := (d.bytes.take f.len).length
        good := false }))) ∧
  (∀ (src out vc plan : Nat) (d : DataMsg) (h : Option XferHdr) (data : List Byte) (u : State), ∃ r : Run, ∃ m : LinkMsg,
    u.passFlit src out vc plan d h data = { u with net := u.net ++ [r] } ∧ r.msg = some m ∧ m.link = out ∧ m.data = data ∧
    m.vc = (if vc = 1 then 0 else vc) ∧ (h = none → m.type = 0x10 ∧ m.args = [d.tag, d.flow, d.dstPod, d.dstPkg, d.va]) ∧
    (∀ x, h = some x → m.type = 0x11 ∧
      m.args = [d.tag, d.flow, d.dstPod, d.dstPkg, d.va, x.planId, x.total, x.srcPod, x.srcPkg])) ∧
  (∀ (f : FlitHdr) (d : DataMsg) (s u : State), s.flitRuns (.write f d) = true → u = s.flitTaken f →
    ((u.link f.link).xfers.find? (fun x => x.tag == d.tag) = none →
      exec (.write f d) s = .next (u.protoError f.link 0x10 3)) ∧
    (∀ x, (u.link f.link).xfers.find? (fun x => x.tag == d.tag) = some x →
      (x.fwd = none → exec (.write f d) s = .next (u.landFlit f.link x false d (d.bytes.take f.len))) ∧
      (∀ o, x.fwd = some o → x.good = true → exec (.write f d) s = .next ((u.setXfer f.link { x with
        got := x.got + (d.bytes.take f.len).length }).passFlit f.link o f.vc x.plan d none (d.bytes.take f.len))) ∧
      (x.fwd ≠ none → x.good = false → exec (.write f d) s = .next u))) ∧
  (∀ (f : FlitHdr) (pod pkg tag : Nat) (s u : State), s.flitRuns (.delivered f pod pkg tag) = true → u = s.flitTaken f →
    (∀ o, u.outOf f.link pod pkg tag = some o → exec (.delivered f pod pkg tag) s = .next (u.dropOut f.link o)) ∧
    (∀ b, u.outOf f.link pod pkg tag = none → u.cameFrom f.link pod pkg tag = some b →
      exec (.delivered f pod pkg tag) s = .next ((u.dropXfer b tag).sendLink b 0x18 [pod, pkg, tag])) ∧
    (u.outOf f.link pod pkg tag = none → u.cameFrom f.link pod pkg tag = none →
      exec (.delivered f pod pkg tag) s = .next u)) ∧
  (∀ (f : FlitHdr) (pod pkg tag cause : Nat) (s u : State), s.flitRuns (.refuse f pod pkg tag cause) = true → u = s.flitTaken f →
    (∀ o, u.outOf f.link pod pkg tag = some o → exec (.refuse f pod pkg tag cause) s =
      .next (((u.dropOut f.link o).issuedFail o.eng o.ctx 8 o.idx o.dla o.live).abortCtx o.ctx 0x12)) ∧
    (∀ b, u.outOf f.link pod pkg tag = none → u.cameFrom f.link pod pkg tag = some b →
      exec (.refuse f pod pkg tag cause) s = .next ((u.setLink b { u.link b with
        xfers := (u.link b).xfers.map (fun x => if x.tag = tag then { x with good := false } else x) }).sendLink b 0x19
          [pod, pkg, tag, cause])) ∧
    (u.outOf f.link pod pkg tag = none → u.cameFrom f.link pod pkg tag = none →
      exec (.refuse f pod pkg tag cause) s = .next u)) ∧
  (∀ (f : FlitHdr) (o : PeerOp) (s u : State) (no : State → Out), s.flitRuns (.syncOp f o) = true → u = s.flitTaken f →
    no = (fun v => .next (v.sendLink f.link 0x21 [o.waiter, o.span, rRefused, u.tick])) →
    (kindOf o.op = none → exec (.syncOp f o) s =
      no (u.raise 0x3020 (uTile (linkTile f.link)) o.span (peerWaiter f.link o.waiter))) ∧
    (∀ kd t k, kindOf o.op = some kd → u.spanDest true o.span = .here t k →
      (spanBarrier o.span = decide (kd = .arrive) → timeoutOk o.timeout = true → ∃ op : SpanOp,
        exec (.syncOp f o) s = .next (u.post t op) ∧ op.kind = kd ∧ op.obj = o.span ∧ op.value = o.value ∧ op.plan = some o.planId ∧
        op.crc = o.crc ∧ op.waiter = peerWaiter f.link o.waiter ∧ op.reg = u.tick ∧
        op.expire = u.tick + timeoutTk (u.rg (uTile t) SYN_TIMEOUT_DEF.default_tk) o.timeout) ∧
      ((spanBarrier o.span ≠ decide (kd = .arrive) ∨ timeoutOk o.timeout = false) →
        exec (.syncOp f o) s = no (u.raise 0x3020 (uTile t) o.span (peerWaiter f.link o.waiter)))) ∧
    (∀ kd pod pkg, kindOf o.op = some kd → u.spanDest true o.span = .peer pod pkg →
      (∀ b, u.forwardLink f.link pod pkg = some b → exec (.syncOp f o) s = .next ((if kd = .signal then u
        else u.setLink b { u.link b with fwds := (u.link b).fwds ++ [⟨o.waiter, o.span, f.link⟩] }).sendLink b 0x20
          [o.op, o.span, o.value, o.timeout, o.waiter, o.planId, o.crc])) ∧
      (u.forwardLink f.link pod pkg = none →
        exec (.syncOp f o) s = no (u.raise 0x7030 (uTile (linkTile f.link)) f.link 0 (pod + pkg * 2 ^ 8)))) ∧
    (∀ kd, kindOf o.op = some kd → u.spanDest true o.span = .bad →
      (u.spanMine o.span = true → exec (.syncOp f o) s =
        no (u.raise 0x3020 (uTile (linkTile f.link)) o.span (peerWaiter f.link o.waiter))) ∧
      (u.spanMine o.span = false → exec (.syncOp f o) s =
        no (u.raise 0x7030 (uTile (linkTile f.link)) f.link 0 (spanPod o.span + spanPkg o.span * 2 ^ 8))))) ∧
  (∀ (f : FlitHdr) (w span outcome tick : Nat) (s u : State), s.flitRuns (.syncResult f w span outcome tick) = true → u = s.flitTaken f →
    (∀ x, (u.link f.link).fwds.find? (fun x => x.waiter == w && x.span == span) = some x → exec (.syncResult f w span outcome tick) s =
      .next ((u.setLink f.link { u.link f.link with fwds := (u.link f.link).fwds.erase x }).sendLink x.from_ 0x21
        [w, span, outcome, tick])) ∧
    ((u.link f.link).fwds.find? (fun x => x.waiter == w && x.span == span) = none → waiterIsEngine w = true →
      (u.headSpan w span = true →
        (outcome = rReleased → exec (.syncResult f w span outcome tick) s = .next (u.issuedFree w)) ∧
        (outcome = rTimedOut → exec (.syncResult f w span outcome tick) s =
          .next ((u.endHead w 6).abortCore (engCore w) 0x13)) ∧
        (outcome ≠ rReleased → outcome ≠ rTimedOut → exec (.syncResult f w span outcome tick) s = .next (u.rejectHead w 1))) ∧
      (u.headSpan w span = false →
        (outcome = rRefused → exec (.syncResult f w span outcome tick) s = .next (u.abortCore (engCore w) 0x10)) ∧
        (outcome ≠ rRefused → exec (.syncResult f w span outcome tick) s = .next u))) ∧
    ((u.link f.link).fwds.find? (fun x => x.waiter == w && x.span == span) = none → waiterIsService w = true → w % 4 ≠ 3 →
      (u.serv (waiterTile w)).waiting = true →
      (outcome = rTimedOut → exec (.syncResult f w span outcome tick) s =
        .next ((u.servDone (waiterTile w) false).servWait (waiterTile w))) ∧
      (outcome ≠ rTimedOut → exec (.syncResult f w span outcome tick) s =
        .next (u.servDone (waiterTile w) (outcome == rReleased)))) ∧
    ((u.link f.link).fwds.find? (fun x => x.waiter == w && x.span == span) = none → waiterIsService w = true → w % 4 = 3 →
      outcome = rRefused → exec (.syncResult f w span outcome tick) s =
        .next (u.each (u.relHolders (waiterTile w) span) (fun s c => s.abortCtx c 0x10))) ∧
    ((u.link f.link).fwds.find? (fun x => x.waiter == w && x.span == span) = none →
      ((waiterIsService w = true ∧ w % 4 = 3 ∧ outcome ≠ rRefused) ∨
        (waiterIsService w = true ∧ w % 4 ≠ 3 ∧ (u.serv (waiterTile w)).waiting = false) ∨
        (waiterIsService w = false ∧ waiterIsEngine w = false)) →
      exec (.syncResult f w span outcome tick) s = .next u)) ∧
  (∀ (f : FlitHdr) (span gen mask : Nat) (s u v : State), s.flitRuns (.barrierRel f span gen mask) = true → u = s.flitTaken f →
    v = State.each (u.setLink f.link { u.link f.link with fwds := (u.link f.link).fwds.filter (fun x => x.span != span) })
      (((u.link f.link).fwds.filter (fun x => x.span == span)).map (·.from_)).eraseDups
      (fun s b => s.sendLink b 0x22 [span, gen, mask]) →
    exec (.barrierRel f span gen mask) s =
      .next (v.each ((v.engs.map (·.1)).filter (fun k => keyEng k == 7 && bitsOf mask (keyCore k) 1 == 1 && v.headSpan k span))
        State.issuedFree)) ∧
  (∀ (f : FlitHdr) (r : EvRec) (s u v : State), s.flitRuns (.event f r) = true → u = s.flitTaken f →
    v = u.append { r with
      forwarded := true
      pkg := u.lg f.link LNK_PEER.pkg
      pod := u.lg f.link LNK_PEER.pod } →
    exec (.event f r) s = .next (v.append ⟨v.tick, 0x0001, uTile (linkTile f.link), 11, false, false, v.lg f.link LNK_STATUS.epoch,
      f.link, 0x7F, 0x3F, 0, v.lg f.link LNK_FLITS.accepted⟩)) ∧
  (∀ (f : FlitHdr) (p what : Nat) (s u : State), s.flitRuns (.planCtl f p what) = true →
    u = { s.flitTaken f with planReady := if what = 0 then s.planReady ++ [(p, f.link)] else s.planReady } →
    (u.ctxOfPlan p = none → exec (.planCtl f p what) s = .next u) ∧
    (∀ c, u.ctxOfPlan p = some c →
      (what = 0 → exec (.planCtl f p what) s = .next (u.settleStart c)) ∧
      (what = 1 → exec (.planCtl f p what) s = .next (u.memberStop c false)) ∧
      (what = 2 → exec (.planCtl f p what) s = .next (u.abortCtx c 0x17)) ∧
      (what = 3 → exec (.planCtl f p what) s = .next (u.memberStop c true)) ∧
      (3 < what → exec (.planCtl f p what) s = .next u)))

/-- CLAIM_HELLO, CLAIM, RELEASE, QUERY and LOWER_TREE_BUILD. On a port that answers, a claim message that is too short or of another magic,
version or form is dropped and counted. A CLAIM_HELLO of good form while the keeper may not sign is dropped and counted; while it may, it
spends one leaf, keeps the offer with the caller's nonce and tick, and sends it; where a supply fault comes in its tick the leaf is spent
and nothing goes out; where the write of next_leaf to MRAM fails it raises 0xA042, keeps no offer and sends nothing. A CLAIM of good form
for the offer within 1,000,000,000 tk whose owner's signature holds claims the part under the pairing key with fresh sequence numbers, no
offer and the notify address, and is answered 0; one that fails, or finds no offer, is dropped, counted, and raises 0xA201; one whose reply
is cached gets it again. RELEASE with every context FREE, no queue pair and no admission waiting leaves the part unclaimed without a key;
else it is answered 1. QUERY 0 and 1 answer the part's states and the characteristic; QUERY 2 signs a report with one more leaf, or is
answered 1 while the keeper may not sign or a CLAIM_HELLO waits in the tick; another selector is answered 2. LOWER_TREE_BUILD past the
middle of a tree readies the next. What next_leaf reads as after a failed write, and the answer 1 then, are the model's choice (log 117).
(spec/13_host_ports.md, spec/16_boot_configuration_security.md) -/
def Obligations.ClaimRows : Prop :=
  (∀ (i : Instr) (h : EcpHdr) (s : State), ((∃ nonce mram, i = .claimHello h nonce mram) ∨
      ∃ np pub ip udp rsv sig, i = .claim h np pub ip udp rsv sig) →
    (s.unitUp (uPort h.port) = false → exec i s = .next s) ∧
    (s.unitUp (uPort h.port) = true → lengthOk h = false →
      exec i s = .next ((s.countFec h.port h.rx).rinc (uPort h.port) HPT_ECP_DROP.len 1)) ∧
    (s.unitUp (uPort h.port) = true → lengthOk h = true →
      (h.magic ≠ 0x5045 ∨ h.version ≠ 1 ∨ h.short = true ∨ h.flags ≠ 0 ∨ h.rsv ≠ 0) →
      exec i s = .next ((s.countFec h.port h.rx).rinc (uPort h.port) HPT_ECP_DROP.fmt 1))) ∧
  (∀ (h : EcpHdr) (nonce : Nat) (mram : Bool) (s u : State), s.unitUp (uPort h.port) = true → claimGood h = true →
    u = s.countFec h.port h.rx →
    (u.maySign = false → exec (.claimHello h nonce mram) s = .next (u.rinc (uPort h.port) HPT_FRAMES.hello 1)) ∧
    (u.maySign = true → mram = false → exec (.claimHello h nonce mram) s =
      .next ((State.rs { u with freeCtr := u.freeCtr + 1 } 0 CFG_IDKEY.next_leaf
        (u.rg 0 CFG_IDKEY.next_leaf + Config.freeNat u.freeCtr % 2)).raise 0xA042 0)) ∧
    (u.maySign = true → mram = true → u.supplySoon = true → exec (.claimHello h nonce mram) s = .next u.spendLeaf) ∧
    (u.maySign = true → mram = true → u.supplySoon = false → ∃ (t : State) (o : Offer), exec (.claimHello h nonce mram) s = .next t ∧
      t.claim.offer = some o ∧ o.nh = nonce ∧ o.at_ = s.tick ∧ t.regs = u.spendLeaf.regs ∧ t.ev = u.spendLeaf.ev ∧
      t.claim.lastSign = some s.tick ∧ t.claim.claimed = s.claim.claimed ∧ t.claim.key = s.claim.key ∧ t.mem = s.mem)) ∧
  (∀ s : State, s.spendLeaf.rg 0 CFG_IDKEY.next_leaf = (s.rg 0 CFG_IDKEY.next_leaf + 1) % 2 ^ CFG_IDKEY.next_leaf.w ∧
    s.spendLeaf.claim = { s.claim with lastSign := some s.tick } ∧ s.spendLeaf.mem = s.mem ∧
    ((s.rg 0 CFG_IDKEY.next_leaf + 1) % 2 ^ 15 = 0 → s.spendLeaf.rg 0 CFG_IDKEY.next_ready = 0) ∧
    (s.rg 0 CFG_IDKEY.next_leaf + 1 ≠ 2 ^ 25 - 2 ^ 20 + 1 → s.rg 0 CFG_IDKEY.next_leaf + 1 ≠ 2 ^ 25 → s.spendLeaf.ev = s.ev) ∧
    (s.rg 0 CFG_IDKEY.next_leaf + 1 = 2 ^ 25 - 2 ^ 20 + 1 → s.spendLeaf.ev = (s.raise 0xA043 0).ev) ∧
    (s.rg 0 CFG_IDKEY.next_leaf + 1 = 2 ^ 25 → s.spendLeaf.ev = (s.raise 0xA044 0).ev)) ∧
  (∀ (h : EcpHdr) (np pub ip udp rsv : Nat) (sig : List Byte) (s u : State), s.unitUp (uPort h.port) = true → claimGood h = true →
    u = s.countFec h.port h.rx →
    (∀ e, u.claim.cache.find? (fun e => u.claim.claimed && e.out.reqId == h.reqId && e.rtype == 3) = some e →
      exec (.claim h np pub ip udp rsv sig) s = .next (u.resend h e.out)) ∧
    (u.claim.cache.find? (fun e => u.claim.claimed && e.out.reqId == h.reqId && e.rtype == 3) = none →
      (u.claim.offer = none → exec (.claim h np pub ip udp rsv sig) s =
        .next ((u.rinc (uPort h.port) HPT_FRAMES.hello 1).raise 0xA201 0)) ∧
      (∀ o, u.claim.offer = some o →
        (u.claimOk o np (claimBody np pub ip udp rsv sig) sig = true →
          exec (.claim h np pub ip udp rsv sig) s = .next (u.pair h o pub ip udp)) ∧
        (u.claimOk o np (claimBody np pub ip udp rsv sig) sig = false → exec (.claim h np pub ip udp rsv sig) s =
          .next ((u.rinc (uPort h.port) HPT_FRAMES.hello 1).raise 0xA201 0))))) ∧
  (∀ (s : State) (o : Offer) (np : Nat) (body sig : List Byte), s.claimOk o np body sig = true ↔
    o.np = np ∧ s.tick ≤ o.at_ + 1000000000 ∧ hssVerify (llOwnerKey s.boot.flash) (body ++ o.bytes) sig = true) ∧
  (∀ (h : EcpHdr) (o : Offer) (pub ip udp : Nat) (s t : State), t = s.pair h o pub ip udp →
    t.claim.claimed = true ∧ t.claim.key = pairingKey s.fuses.serial o pub ∧ t.claim.offer = none ∧ t.claim.seqHi = 0 ∧
    t.claim.seqMask = 0 ∧ t.claim.notifyIp = ip ∧ t.claim.notifyUdp = udp ∧ t.claim.notifyHpt = h.port ∧ t.ctxs = s.ctxs ∧
    t.mrs = s.mrs ∧ t.qps = s.qps ∧ t.mem = s.mem ∧ t.regs = s.regs ∧ (s.claim.claimed = false → t.ev = s.ev) ∧
    (s.claim.claimed = true → t.ev = (s.raise 0x8010 (uPort h.port)).ev)) ∧
  (∀ (h : EcpHdr) (s u : State), s.ecpRuns (.release h) = true → u = s.ecpTaken h →
    (u.allFree = true → u.qps = [] → u.admitPending = false → ∃ t : State, exec (.release h) s = .next t ∧ t.claim.claimed = false ∧
      t.claim.key = [] ∧ t.mem = s.mem ∧ t.regs = u.regs ∧ t.ev = s.ev) ∧
    ((u.allFree = false ∨ u.qps ≠ [] ∨ u.admitPending = true) → exec (.release h) s = .next (u.genReply h 0x05 1))) ∧
  (∀ (h : EcpHdr) (sel nonce : Nat) (mram : Bool) (s u : State), s.ecpRuns (.query h sel nonce mram) = true → u = s.ecpTaken h →
    ((2 < sel ∨ unle (rsvBytes h 0 7) ≠ 0) → exec (.query h sel nonce mram) s = .next (u.reply h 0x10 0x11 2 [])) ∧
    (unle (rsvBytes h 0 7) = 0 →
      (sel = 0 → exec (.query h sel nonce mram) s = .next (u.reply h 0x10 0x11 0 (le 1 (if u.claim.claimed then 1 else 0) ++
        (List.range u.nLinks).flatMap (fun l => le 1 (u.lg l LNK_STATUS.state)) ++ allCtx.flatMap (fun c => le 1 (u.cstate c))))) ∧
      (sel = 1 → exec (.query h sel nonce mram) s = .next (u.reply h 0x10 0x11 0 (le 8 (u.rg 0 LNK_CHAR.value)))) ∧
      (sel = 2 → (u.maySign = false ∨ u.helloWaits = true) →
        exec (.query h sel nonce mram) s = .next (u.reply h 0x10 0x11 1 [])) ∧
      (sel = 2 → u.maySign = true → u.helloWaits = false →
        (mram = false → ∃ v : State, exec (.query h sel nonce mram) s = .next (v.reply h 0x10 0x11 1 []) ∧
          v.ev = (s.raise 0xA042 0).ev ∧ v.mem = s.mem) ∧
        (mram = true → u.supplySoon = true → exec (.query h sel nonce mram) s = .next u.spendLeaf) ∧
        (mram = true → u.supplySoon = false → ∃ (v : State) (b sg : List Byte), v = u.spendLeaf ∧
          b = v.report (u.rg 0 CFG_IDKEY.next_leaf) nonce ∧ sg = signature 0 (u.rg 0 CFG_IDKEY.next_leaf) 5236 b ∧
          exec (.query h sel nonce mram) s = .next (v.reply h 0x10 0x11 0 (b ++ le 4 5236 ++ sg)))))) ∧
  (∀ s : State, (s.boot.awake = true → 2 ^ 14 ≤ s.rg 0 CFG_IDKEY.next_leaf % 2 ^ 15 → s.rg 0 CFG_IDKEY.next_leaf / 2 ^ 15 + 1 < 2 ^ 10 →
      exec .lowerTreeBuild s = .next (s.rs 0 CFG_IDKEY.next_ready 1)) ∧
    ((s.boot.awake = false ∨ s.rg 0 CFG_IDKEY.next_leaf % 2 ^ 15 < 2 ^ 14 ∨ 2 ^ 10 ≤ s.rg 0 CFG_IDKEY.next_leaf / 2 ^ 15 + 1) →
      exec .lowerTreeBuild s = .next s))

/-- Register, event, translation, DMA, watch, signal, registration and queue pair requests. Requests that run: REG_READ of 1 to 64
registers, with no I3C access of its tick before it, is answered with their values, or 5 after the first error completion; REG_WRITE
writes and is answered 0 or 5; EVENT_FILTER takes a mask below 2^12 and else is answered 2. TLB_INV starts an invalidation, or is held
while one runs and fewer than 16 are, or is answered 4, or 2 for operands out of range. DMA_RESUME of engine 5 or 6 of a present die
resumes or abandons its transfer and is answered 0 if it was parked, else 1; of an absent die 3, with operands out of range 2. WATCH of an
object of this package of a context that is not FREE is posted to its hub, whose settle answers it; else it is answered 3. ECP_SIGNAL of
a context that is not FREE signals the object: the settle of its hub here answers it, one that crosses a link is answered 0 as it goes,
one that no hub takes 3; of a FREE context 1. MR_REG is answered with what is wrong, 4 with every index taken, or takes the lowest free
index with a tag that is not stated, and MR_DEREG of a registration removes it, of none is answered 3. QP_OPEN likewise opens the lowest
free queue pair with the peer, PSN, rkey and signal it names, at 400 Gb/s, QP_CLOSE removes it. That a SIGNAL over a link is answered at
once is the model's choice (log 84), and the tag is a free value. (spec/13_host_ports.md, spec/06_synchronisation.md,
spec/07_memory_translation_dma.md, spec/01_package_and_hierarchy.md, spec/18_electrical_mechanical.md) -/
def Obligations.ManagementRequestsRun : Prop :=
  (∀ (h : EcpHdr) (addr count : Nat) (ecc : EccHits) (s u : State), s.accessYields h.seq = false →
    s.ecpRuns (.regRead h addr count ecc) = true → u = s.ecpTaken h →
    (1 ≤ count → count ≤ 64 → ∀ vs good v, u.readRegs ecc count addr [] = (vs, good, v) →
      exec (.regRead h addr count ecc) s = .next (v.reply h 0x12 0x14 (if good then 0 else 5) (regReplyBody addr vs)) ∧
      (good = true → vs.length = count) ∧ (good = false → vs.length < count) ∧ v.engs = s.engs) ∧
    ((count = 0 ∨ 64 < count) → exec (.regRead h addr count ecc) s = .next (u.reply h 0x12 0x14 2 (regReplyBody addr [])))) ∧
  (∀ (h : EcpHdr) (addr : Nat) (v : Word) (s u : State), s.accessYields h.seq = false → s.ecpRuns (.regWrite h addr v) = true →
    u = s.ecpTaken h → exec (.regWrite h addr v) s = .next ((u.mgmtWrite addr v.toNat).2.reply h 0x13 0x14
      (if (u.mgmtWrite addr v.toNat).1 then 0 else 5) (regReplyBody addr [0]))) ∧
  (∀ (h : EcpHdr) (mask : Nat) (s u : State), s.ecpRuns (.eventFilter h mask) = true → u = s.ecpTaken h →
    (mask < 2 ^ 12 → exec (.eventFilter h mask) s = .next (State.genReply { u with claim := { u.claim with filter := mask } } h 0x18 0)) ∧
    (2 ^ 12 ≤ mask → exec (.eventFilter h mask) s = .next (u.genReply h 0x18 2))) ∧
  (∀ (h : EcpHdr) (c all : Nat) (s u : State), s.ecpRuns (.tlbInv h c all) = true → u = s.ecpTaken h →
    ((64 ≤ c ∨ 2 ≤ all) → exec (.tlbInv h c all) s = .next (u.genReply h 0x26 2)) ∧
    (c < 64 → all < 2 →
      (s.tlbCur = none → exec (.tlbInv h c all) s = .next (u.startInv ⟨some h, c, all == 1⟩)) ∧
      (s.tlbCur ≠ none → s.tlbHeld.length < 16 →
        exec (.tlbInv h c all) s = .next { u with tlbHeld := s.tlbHeld ++ [⟨some h, c, all == 1⟩] }) ∧
      (s.tlbCur ≠ none → 16 ≤ s.tlbHeld.length → exec (.tlbInv h c all) s = .next (u.genReply h 0x26 4)))) ∧
  (∀ (h : EcpHdr) (die core eng action : Nat) (s u : State), s.ecpRuns (.dmaResume h die core eng action) = true → u = s.ecpTaken h →
    ((s.nTiles ≤ die ∨ 64 ≤ core ∨ (eng ≠ 5 ∧ eng ≠ 6) ∨ (action ≠ 1 ∧ action ≠ 2)) →
      exec (.dmaResume h die core eng action) s = .next (u.genReply h 0x27 2)) ∧
    (die < s.nTiles → core < 64 → (eng = 5 ∨ eng = 6) →
      (u.dieUp die = false → (action = 1 ∨ action = 2) → exec (.dmaResume h die core eng action) s = .next (u.genReply h 0x27 3)) ∧
      (u.dieUp die = true → action = 1 → exec (.dmaResume h die core eng action) s =
        .next ((resumeEff (engKey die core eng) u).genReply h 0x27 (if (s.eng (engKey die core eng)).parked then 0 else 1))) ∧
      (u.dieUp die = true → action = 2 → exec (.dmaResume h die core eng action) s =
        .next ((abandonEff (engKey die core eng) u).genReply h 0x27 (if (s.eng (engKey die core eng)).parked then 0 else 1))))) ∧
  (∀ (h : EcpHdr) (c code thr span : Nat) (s u : State), s.ecpRuns (.watch h c code thr span) = true → u = s.ecpTaken h →
    ((64 ≤ c ∨ u.cstate c = cFree ∨ timeoutOk code = false) →
      exec (.watch h c code thr span) s = .next (u.reply h 0x30 0x31 3 (watchReply 0 0))) ∧
    (c < 64 → u.cstate c ≠ cFree → timeoutOk code = true →
      (∀ t k, (u.resolve (u.portTile h.port) c span).2 = .here t k → ∃ op : SpanOp,
        exec (.watch h c code thr span) s = .next (u.sendSpan (.here t k) op code 0) ∧ op.kind = .watch ∧ op.value = thr ∧
        op.ctx = c ∧ op.obj = (u.resolve (u.portTile h.port) c span).1 ∧ op.reg = s.tick ∧ op.hdr = some h) ∧
      ((∀ t k, (u.resolve (u.portTile h.port) c span).2 ≠ .here t k) → exec (.watch h c code thr span) s =
        .next ((u.raise 0x3020 (uTile (u.portTile h.port)) span (waiterHost 0)).reply h 0x30 0x31 3 (watchReply 0 0))))) ∧
  (∀ (h : EcpHdr) (c span value : Nat) (s u : State), s.ecpRuns (.ecpSignal h c span value) = true → u = s.ecpTaken h →
    ((64 ≤ c ∨ unle (rsvBytes h 0 3) ≠ 0) → exec (.ecpSignal h c span value) s = .next (u.genReply h 0x33 2)) ∧
    (c < 64 → unle (rsvBytes h 0 3) = 0 →
      (u.cstate c = cFree → exec (.ecpSignal h c span value) s = .next (u.genReply h 0x33 1)) ∧
      (u.cstate c ≠ cFree → ∀ id dest, u.resolve (u.portTile h.port) c span = (id, dest) →
        ((dest = .bad ∨ spanBarrier id = true) → exec (.ecpSignal h c span value) s =
          .next ((u.raise 0x3020 (uTile (u.portTile h.port)) span (waiterHost 0)).genReply h 0x33 3)) ∧
        (dest ≠ .bad → spanBarrier id = false → ∃ op : SpanOp, op.kind = .signal ∧ op.obj = id ∧ op.value = value ∧ op.ctx = c ∧
          op.hdr = some h ∧
          (∀ t k, dest = .here t k → exec (.ecpSignal h c span value) s =
            .next (u.sendSpan dest op 0 (u.ctx c).plan.planId)) ∧
          (∀ pod pkg, dest = .peer pod pkg → exec (.ecpSignal h c span value) s =
            .next ((u.sendSpan dest op 0 (u.ctx c).plan.planId).genReply h 0x33 0)))))) ∧
  (∀ (h : EcpHdr) (kind c region access pa length code : Nat) (s u : State),
    s.ecpRuns (.mrReg h kind c region access pa length) = true → u = s.ecpTaken h →
    code = u.mrCode kind c region access pa length (unle (rsvBytes h 0 4)) →
    (code ≠ 0 → exec (.mrReg h kind c region access pa length) s = .next (u.reply h 0x50 0x51 code (le 4 0))) ∧
    (code = 0 → freeIndex s.mrs = none →
      exec (.mrReg h kind c region access pa length) s = .next (u.reply h 0x50 0x51 4 (le 4 0))) ∧
    (code = 0 → ∀ i, freeIndex s.mrs = some i → ∃ v : State, i < 512 ∧ mfind s.mrs i = none ∧
      exec (.mrReg h kind c region access pa length) s =
        .next (v.reply h 0x50 0x51 0 (le 4 (Config.freeNat s.freeCtr % 2 ^ 23 * 512 + i))) ∧
      v.mrs = mput s.mrs i ⟨kind, c, region, access, pa, length, Config.freeNat s.freeCtr % 2 ^ 23⟩ ∧ v.freeCtr = s.freeCtr + 1 ∧
      v.mem = s.mem ∧ v.regs = u.regs)) ∧
  (∀ (h : EcpHdr) (rkey : Nat) (s u : State), s.ecpRuns (.mrDereg h rkey) = true → u = s.ecpTaken h →
    ((s.mrOf rkey).isSome = true → exec (.mrDereg h rkey) s =
      .next (State.genReply { u with mrs := s.mrs.filter (fun p => !(p.1 == rkey % 512)) } h 0x52 0)) ∧
    (s.mrOf rkey = none → exec (.mrDereg h rkey) s = .next (u.genReply h 0x52 3))) ∧
  (∀ (h : EcpHdr) (c port pq ip psn rkey span code : Nat) (s u : State), s.ecpRuns (.qpOpen h c port pq ip psn rkey span) = true →
    u = s.ecpTaken h → code = u.qpCode c port pq psn rkey span (unle (rsvBytes h 0 2)) →
    (code ≠ 0 → exec (.qpOpen h c port pq ip psn rkey span) s = .next (u.reply h 0x53 0x54 code (le 4 0))) ∧
    (code = 0 → freeIndex s.qps = none → exec (.qpOpen h c port pq ip psn rkey span) s = .next (u.reply h 0x53 0x54 4 (le 4 0))) ∧
    (code = 0 → ∀ i, freeIndex s.qps = some i → ∃ q : Qp, i < 512 ∧ mfind s.qps i = none ∧
      exec (.qpOpen h c port pq ip psn rkey span) s = .next (State.reply { u with qps := mput s.qps i q } h 0x53 0x54 0 (le 4 i)) ∧
      q.ctx = c ∧ q.port = port ∧ q.peerQpn = pq ∧ q.peerIp = ip ∧ q.psn = psn ∧ q.rkey = rkey ∧ q.signal = span ∧ q.err = false ∧
      q.rate = 400000000000 ∧ q.rateAt = s.tick)) ∧
  (∀ (h : EcpHdr) (qpn : Nat) (s u : State), s.ecpRuns (.qpClose h qpn) = true → u = s.ecpTaken h →
    ((mfind s.qps qpn).isSome = true → ∃ net : List Run, net.map (fun r => (r.path, r.a, r.data)) =
        s.net.map (fun r => (r.path, r.a, r.data)) ∧ (∀ r ∈ net, r.host.map Prod.fst ≠ some qpn) ∧
      exec (.qpClose h qpn) s = .next (State.genReply { u with
        qps := s.qps.filter (fun p => !(p.1 == qpn))
        net := net } h 0x55 0)) ∧
    (mfind s.qps qpn = none → exec (.qpClose h qpn) s = .next (u.genReply h 0x55 3)))

/-- RoCEv2 requests at the responder, and its rates. On a port that answers, a RoCEv2 request in its turn has the codewords of its frame
counted; with its class's buffer full it is counted as other and dropped; one whose ICRC fails is counted and dropped; one of an unknown
queue pair, of another port's or of one in error is dropped; one with immediate data is answered NAK invalid; one whose PSN is ahead is
answered NAK sequence; a WRITE or SEND seen before is acknowledged again, or with its first execution if that is under way. An RDMA WRITE of
one packet in order sends its bytes to the physical ranges that its rkey gives, moves the PSN, and is acknowledged once they have landed;
memory is unchanged until they do. Without access or a way the queue pair is in error, with a NAK and 0x8101, and memory is unchanged. A SEND
sends to the next slot of its ring and moves it. A READ answers the bytes of its ranges, or ends in error where one cannot be corrected,
and changes no memory. A congestion notification halves the rate, at least 1 Gb/s, at most once in 5,000 tk; a rate increase adds 25 Gb/s up
to 400 after 5,500 tk. When a packet is acknowledged, and that a way is needed, are the model's (log 116). (spec/13_host_ports.md,
spec/07_memory_translation_dma.md) -/
def Obligations.RdmaRows : Prop :=
  (∀ (port : Nat) (p : RocePkt) (ecc : EccHits) (i : Instr) (s v w : State),
    (i = .rdmaWrite port p ∨ i = .send port p ∨ i = .rdmaRead port p ecc) → s.yields i = false →
    v = s.countFec port p.rx → w = (if p.ce then v.rinc (uPort port) HPT_ROCE.ce 1 else v) →
    (s.unitUp (uPort port) = false → exec i s = .next s) ∧
    (s.unitUp (uPort port) = true → rxBuffer (v.classOf port p.rx) < v.rxHeld port (v.classOf port p.rx) + p.data.length →
      exec i s = .next (v.rinc (uPort port) HPT_FRAMES.other 1)) ∧
    (s.unitUp (uPort port) = true → v.rxHeld port (v.classOf port p.rx) + p.data.length ≤ rxBuffer (v.classOf port p.rx) →
      (p.icrcOk = false → exec i s = .next (w.rinc (uPort port) HPT_ROCE.icrc 1)) ∧
      (p.icrcOk = true → mfind s.qps p.qpn = none → exec i s = .next w) ∧
      (∀ q, p.icrcOk = true → mfind s.qps p.qpn = some q →
        ((q.port ≠ port ∨ q.err = true) → exec i s = .next w) ∧
        (q.port = port → q.err = false → p.imm = true → exec i s = .next (w.nak port p.qpn nakInvalid)) ∧
        (q.port = port → q.err = false → p.imm = false → p.psn ≠ q.psn → psnOld q.psn p.psn = false →
          exec i s = .next (w.nak port p.qpn nakSequence)) ∧
        (q.port = port → q.err = false → p.imm = false → p.psn ≠ q.psn → psnOld q.psn p.psn = true →
          i ≠ .rdmaRead port p ecc →
          ((∀ o ∈ q.ops, o.psn ≠ p.psn) → exec i s = .next (w.ack port p.qpn p.psn)) ∧
          ((∃ o ∈ q.ops, o.psn = p.psn) → exec i s = .next (w.setQp p.qpn { q with
            ops := q.ops.map (fun o => if o.psn = p.psn then { o with ack := true } else o) })))))) ∧
  (∀ (port : Nat) (p : RocePkt) (q : Qp) (s w : State), s.unitUp (uPort port) = true → p.icrcOk = true → mfind s.qps p.qpn = some q →
    q.port = port → q.err = false → p.imm = false → p.psn = q.psn →
    w = (if p.ce then (s.countFec port p.rx).rinc (uPort port) HPT_ROCE.ce 1 else s.countFec port p.rx) →
    (s.countFec port p.rx).rxHeld port ((s.countFec port p.rx).classOf port p.rx) + p.data.length ≤
      rxBuffer ((s.countFec port p.rx).classOf port p.rx) →
    (s.yields (.rdmaWrite port p) = false →
      (writePlace q p = none → exec (.rdmaWrite port p) s = .next (w.nak port p.qpn nakInvalid)) ∧
      (∀ rkey a left, writePlace q p = some (rkey, a, left) →
        ((4096 < p.data.length ∨ left < p.data.length ∨ (p.last = true ∧ p.data.length ≠ left) ∨
            (p.last = false ∧ (p.data.length ≠ 4096 ∨ p.data.length = left))) →
          exec (.rdmaWrite port p) s = .next (w.nak port p.qpn nakInvalid)) ∧
        (p.data.length ≤ 4096 → p.data.length ≤ left → (p.last = true → p.data.length = left) →
          (p.last = false → p.data.length = 4096 ∧ p.data.length ≠ left) →
          (∀ runs l due, q.ops = [] → due = (p.last || decide (16 ≤ q.unacked + 1)) → w.hostRuns rkey a p.data.length true = some runs →
            w.hostBytes port (p.qpn, p.psn, w.classOf port p.rx) (w.mrCtx rkey) runs p.data = some l → ∃ t : State,
            exec (.rdmaWrite port p) s = .next t ∧ t.mem = s.mem ∧ t.net = s.net ++ l ∧ t.ev = s.ev ∧
            mfind t.qps p.qpn = some { q with
              psn := (q.psn + 1) % 2 ^ 24
              cur := if p.last then none else some (rkey, a + p.data.length, left - p.data.length)
              unacked := if due then 0 else q.unacked + 1
              ops := if p.data = [] then [] else [{ psn := p.psn, left := p.data.length, ack := due }] }) ∧
          ((w.hostRuns rkey a p.data.length true = none ∨ (∃ runs, w.hostRuns rkey a p.data.length true = some runs ∧
              w.hostBytes port (p.qpn, p.psn, w.classOf port p.rx) (w.mrCtx rkey) runs p.data = none)) →
            exec (.rdmaWrite port p) s = .next (w.accessError port p.qpn q))))) ∧
    (s.yields (.send port p) = false →
      ((4096 < p.data.length ∨ p.first = false ∨ p.last = false ∨ q.cur ≠ none ∨ q.rkey = 0) →
        exec (.send port p) s = .next (w.nak port p.qpn nakInvalid)) ∧
      (p.data.length ≤ 4096 → p.first = true → p.last = true → q.cur = none → q.rkey ≠ 0 →
        ((w.mrOf q.rkey).bind w.mrRange = none → exec (.send port p) s = .next (w.accessError port p.qpn q)) ∧
        (∀ base len, (w.mrOf q.rkey).bind w.mrRange = some (base, len) →
          ((w.hostRuns q.rkey (base + 4096 * q.slot) p.data.length true = none ∨ (∃ runs,
              w.hostRuns q.rkey (base + 4096 * q.slot) p.data.length true = some runs ∧
              w.hostBytes port (p.qpn, p.psn, w.classOf port p.rx) (w.mrCtx q.rkey) runs p.data = none)) →
            exec (.send port p) s = .next (w.accessError port p.qpn q)) ∧
          (∀ runs l, q.ops = [] → w.hostRuns q.rkey (base + 4096 * q.slot) p.data.length true = some runs →
            w.hostBytes port (p.qpn, p.psn, w.classOf port p.rx) (w.mrCtx q.rkey) runs p.data = some l → ∃ t : State,
            exec (.send port p) s = .next t ∧ t.mem = s.mem ∧ (p.data ≠ [] → t.net = s.net ++ l ∧ t.ev = s.ev) ∧
            mfind t.qps p.qpn = some { q with
              psn := (q.psn + 1) % 2 ^ 24
              slot := (q.slot + 1) % (len / 4096)
              unacked := 0
              ops := if p.data = [] then [] else [{ psn := p.psn, left := p.data.length, ack := true, sig := true }] }))))) ∧
  (∀ (port : Nat) (p : RocePkt) (q : Qp) (s w : State), s.unitUp (uPort port) = true → p.icrcOk = true → mfind s.qps p.qpn = some q →
    q.port = port → q.err = false → p.imm = false → (p.psn = q.psn ∨ psnOld q.psn p.psn = true) →
    w = (if p.ce then (s.countFec port p.rx).rinc (uPort port) HPT_ROCE.ce 1 else s.countFec port p.rx) →
    (s.countFec port p.rx).rxHeld port ((s.countFec port p.rx).classOf port p.rx) + p.data.length ≤
      rxBuffer ((s.countFec port p.rx).classOf port p.rx) →
    (∀ ecc, s.yields (.rdmaRead port p ecc) = false →
      ((q.cur ≠ none ∨ 2 ^ 31 < p.len ∨ 16 ≤ q.outstanding s.tick) →
        exec (.rdmaRead port p ecc) s = .next (w.nak port p.qpn nakInvalid)) ∧
      (q.ops = [] → q.cur = none → p.len ≤ 2 ^ 31 → q.outstanding s.tick < 16 → ∃ t : State,
        exec (.rdmaRead port p ecc) s = .next t ∧ t.mem = s.mem ∧
        (∀ runs, w.hostRuns p.rkey p.va p.len false = some runs → ecc.mem = [] → ∃ v : State, v.frames = s.frames ∧
          t = v.putRdma { port := port, kind := 5, dest := p.qpn, code := p.psn, data := runs.flatMap (fun r => s.mem.bytes r.1 r.2) } ∧
          ∃ q', mfind t.qps p.qpn = some q' ∧ q'.psn = (if p.psn = q.psn then (q.psn + readPackets p.len) % 2 ^ 24 else q.psn) ∧ q'.err = false ∧ q'.ops = [] ∧
            (∃ e, q'.reads = q.reads.filter (fun t => t > s.tick) ++ [e] ∧ s.tick ≤ e)) ∧
        ((w.hostRuns p.rkey p.va p.len false = none ∨ (∃ runs r b, w.hostRuns p.rkey p.va p.len false = some runs ∧ r ∈ runs ∧
            b < r.2 ∧ r.1 + b ∈ ecc.mem)) → ∃ q', mfind t.qps p.qpn = some q' ∧ q'.err = true)))) ∧
  (∀ (port qpn : Nat) (q : Qp) (s t : State), t = s.accessError port qpn q → t.mem = s.mem ∧ t.net = s.net ∧
    (∃ q', mfind t.qps qpn = some q' ∧ q'.err = true) ∧ t.ev = (s.raise 0x8101 (uPort port) qpn).ev ∧
    t.rg (uPort port) HPT_ROCE.naks = min (s.rg (uPort port) HPT_ROCE.naks + 1) (2 ^ HPT_ROCE.naks.w - 1)) ∧
  (∀ (s : State) (r : Run) (qpn psn cls : Nat) (q : Qp) (o : HostOp), r.msg = none → r.flow = none → r.from_ = none → r.mess = false →
    r.host = some (qpn, psn, cls) → mfind s.qps qpn = some q → q.ops = [o] → o.psn = psn → o.read = none → o.ack = true → o.sig = false →
    o.left ≤ r.data.length → ∃ t : State, t = s.landRun r ∧ t.mem = (s.writeMem r.a r.data).mem ∧
      (∀ b, (b < r.a ∨ r.a + r.data.length ≤ b) → t.mem.read b = s.mem.read b) ∧ ∃ v : State,
      State.completeOps qpn 1 t = v.ack q.port qpn psn ∧ v.mem = t.mem ∧ mfind v.qps qpn = some { q with ops := [] }) ∧
  (∀ (port qpn : Nat) (s : State),
    (mfind s.qps qpn = none → exec (.congestionNotification port qpn) s = .next s) ∧
    (∀ q, mfind s.qps qpn = some q →
      (s.unitUp (uPort port) = true → q.port = port → (q.cnpAt = none ∨ ∃ n, q.cnpAt = some n ∧ n + 5000 ≤ s.tick) →
        exec (.congestionNotification port qpn) s = .next ((s.setQp qpn { q with
          rate := Nat.max (q.rate / 2) 1000000000
          cnpAt := some s.tick
          rateAt := s.tick }).rinc (uPort port) HPT_ROCE.cnp 1)) ∧
      ((s.unitUp (uPort port) = false ∨ q.port ≠ port ∨ ∃ n, q.cnpAt = some n ∧ s.tick < n + 5000) →
        exec (.congestionNotification port qpn) s = .next s))) ∧
  (∀ (qpn : Nat) (s : State),
    (mfind s.qps qpn = none → exec (.rateIncrease qpn) s = .next s) ∧
    (∀ q, mfind s.qps qpn = some q →
      (q.rateAt + 5500 ≤ s.tick → exec (.rateIncrease qpn) s = .next (s.setQp qpn { q with
        rate := Nat.min (q.rate + 25000000000) 400000000000
        rateAt := s.tick })) ∧
      (s.tick < q.rateAt + 5500 → exec (.rateIncrease qpn) s = .next s)))

/-- Ethernet links, flow control, address protocols and other frames. On a port that answers: a link that goes down shows so, loses what
it held, and raises 0x8001 at precedence 11, one that comes up shows so and raises 0x8002 at precedence 11; neither changes a context,
memory, the claim or a queue pair. PFC for either priority of the port pauses it and is counted, or resumes it and sends what waited, in
order; for another priority it does nothing. A PAUSE frame is only counted. An IP fragment, any other datagram, and one that finds its
buffer full are only counted, with the codewords of their frames. An ARP request, a neighbour solicitation and an echo request for the
port's own address are answered with its MAC address; for another address nothing happens. On a port that does not answer nothing happens.
(R362, spec/13_host_ports.md) -/
def Obligations.EthernetRows : Prop :=
  (∀ (port : Nat) (s : State), port < 2 → s.unitUp (uPort port) = true →
    (s.rg (uPort port) HPT_STATUS.link_up = 1 → ∃ (t : State) (r : EvRec), exec (.ethernetLinkDown port) s = .next t ∧
      t.rg (uPort port) HPT_STATUS.link_up = 0 ∧ t.ev.travel = s.ev.travel ++ [r] ∧ r.code = 0x8001 ∧ r.prec = 11 ∧
      r.unit = uPort port ∧ r.tick = s.tick ∧ t.hpt port = {} ∧ t.ctxs = s.ctxs ∧ t.mem = s.mem ∧ t.claim = s.claim ∧ t.qps = s.qps) ∧
    (s.rg (uPort port) HPT_STATUS.link_up ≠ 1 → exec (.ethernetLinkDown port) s = .next s) ∧
    (s.rg (uPort port) HPT_STATUS.link_up = 0 → ∃ (t : State) (r : EvRec), exec (.ethernetLinkUp port) s = .next t ∧
      t.rg (uPort port) HPT_STATUS.link_up = 1 ∧ t.ev.travel = s.ev.travel ++ [r] ∧ r.code = 0x8002 ∧ r.prec = 11 ∧
      r.unit = uPort port ∧ r.tick = s.tick ∧ t.ctxs = s.ctxs ∧ t.mem = s.mem ∧ t.claim = s.claim ∧ t.qps = s.qps) ∧
    (s.rg (uPort port) HPT_STATUS.link_up ≠ 0 → exec (.ethernetLinkUp port) s = .next s)) ∧
  (∀ (port prio : Nat) (s : State), s.unitUp (uPort port) = true →
    ((prio = s.rg (uPort port) HPT_CFG.pfc_ecp ∨ prio = s.rg (uPort port) HPT_CFG.pfc_roce) → ∃ t : State, exec (.pfcFrame port prio true) s =
      .next t ∧ prio ∈ (t.hpt port).paused ∧ (t.hpt port).heldEcp = (s.hpt port).heldEcp ∧
      (t.hpt port).heldRdma = (s.hpt port).heldRdma ∧ t.mem = s.mem ∧
      t.rg (uPort port) HPT_PFC.xoff_received = min (s.rg (uPort port) HPT_PFC.xoff_received + 1) (2 ^ HPT_PFC.xoff_received.w - 1)) ∧
    (prio = s.rg (uPort port) HPT_CFG.pfc_ecp → ∃ t : State, exec (.pfcFrame port prio false) s = .next t ∧
      t.ecpOut = s.ecpOut ++ (s.hpt port).heldEcp ∧ (t.hpt port).heldEcp = [] ∧ prio ∉ (t.hpt port).paused ∧ t.regs = s.regs) ∧
    (prio = s.rg (uPort port) HPT_CFG.pfc_roce → ∃ t : State, exec (.pfcFrame port prio false) s = .next t ∧
      t.frames = s.frames ++ (s.hpt port).heldRdma ∧ (t.hpt port).heldRdma = [] ∧ prio ∉ (t.hpt port).paused ∧ t.regs = s.regs) ∧
    (prio ≠ s.rg (uPort port) HPT_CFG.pfc_ecp → prio ≠ s.rg (uPort port) HPT_CFG.pfc_roce → ∀ x,
      exec (.pfcFrame port prio x) s = .next s)) ∧
  (∀ (port : Nat) (s : State), s.unitUp (uPort port) = true →
    exec (.pauseFrame port) s = .next (s.rinc (uPort port) HPT_FRAMES.pause 1) ∧
    (∀ kind rx v, v = s.countFec port rx →
      (rxBuffer (v.classOf port rx) < v.rxHeld port (v.classOf port rx) + rx.bytes →
        exec (.otherDatagram port kind rx) s = .next (v.rinc (uPort port) HPT_FRAMES.other 1)) ∧
      (v.rxHeld port (v.classOf port rx) + rx.bytes ≤ rxBuffer (v.classOf port rx) →
        (kind = 0 → exec (.otherDatagram port kind rx) s = .next (v.rinc (uPort port) HPT_FRAMES.ip_frag 1)) ∧
        (kind = 1 → exec (.otherDatagram port kind rx) s = .next (v.rinc (uPort port) HPT_FRAMES.other 1)) ∧
        (2 ≤ kind → exec (.otherDatagram port kind rx) s = .next v)))) ∧
  (∀ (port kind ip : Nat) (v6 : Bool) (own : Nat) (i : Instr) (s : State),
    ((i = .arpRequest port ip ∧ kind = 0 ∧ own = (s.portCfg port).ip4) ∨
      (i = .neighbourSolicitation port ip ∧ kind = 1 ∧ own = (s.portCfg port).ip6) ∨
      (i = .echoRequest port ip v6 ∧ kind = 2 ∧ own = (if v6 then (s.portCfg port).ip6 else (s.portCfg port).ip4))) →
    (s.unitUp (uPort port) = true → ip = own → exec i s = .next { s with frames := s.frames ++
      [{ port := port, kind := kind, dest := ip, data := le 6 (mget s.fuses.macs port 0), wire := s.wireOf port 2 ip }] }) ∧
    (s.unitUp (uPort port) = true → ip ≠ own → exec i s = .next s)) ∧
  (∀ (port ip prio kind : Nat) (v6 xoff : Bool) (rx : RxFrame) (i : Instr) (s : State), s.unitUp (uPort port) = false →
    (i = .arpRequest port ip ∨ i = .neighbourSolicitation port ip ∨ i = .echoRequest port ip v6 ∨ i = .pauseFrame port ∨
      i = .pfcFrame port prio xoff ∨ i = .otherDatagram port kind rx ∨ i = .ethernetLinkDown port ∨ i = .ethernetLinkUp port) →
    exec i s = .next s)

/-- Supply, samples, cap, guard, operating points, steps and droop. In a running part: INPUT_LOW below 40,000 mV is shown and raises
0x2010. A supply fault, in its turn and with a voltage or rail of Table 14-1, raises its code, subsumed in the tick of an earlier shutdown,
and shuts the part down; a tile rail fault raises 0x2003 and loses the tile. A sample every 1,000 tk from stage 3 on joins the samples and
shows its voltage. The guard, after 2,000 samples over the limit or one at the peak, is counted and raises 0x2021, and halves every n_act.
A control tick every 100,000 tk whose window's mean is at the cap throttles every die, counts, and raises 0x2020 when capping begins; below
it, capping ends, and well below it each die is released. These steps take effect at the end of the tick, in the order of their events, a
release only without another source for its die. A PWR_MODE write is decided at the end of its tick: a new mode is taken with every context
FREE, and else refused with 0x2022. A settled rail switches at the next tick; 20 tk later the step ends at its point. A droop trip stretches a
core's clock, counted, and reverses a step in its window, which is then held; the stretch's end counts its cycles; a hold ends after its
time. Each of these rows otherwise changes nothing. (spec/14_power_and_thermal.md) -/
def Obligations.SupplyAndPowerRows : Prop :=
  (∀ (mv : Nat) (s : State),
    (s.running = true → mv < 40000 → exec (.inputLow mv) s = .next ((State.rs { s with pwr := { s.pwr with mv := mv } } 0
      PWR_STATUS.input_low 1).raise 0x2010 0)) ∧
    ((s.running = false ∨ 40000 ≤ mv) → exec (.inputLow mv) s = .next s)) ∧
  (∀ (code mv : Nat), supplyBad code mv = true ↔ (code = 0x2001 ∧ mv < 37000) ∨ (code = 0x2002 ∧ 60000 < mv) ∨ code = 0x2004) ∧
  (∀ (code mv : Nat) (s : State), s.yields (.supplyFault code mv) = false →
    (s.boot.awake = true → s.boot.high = true → supplyBad code mv = true → ∃ u : State, 
      u = State.raise { s with pwr := { s.pwr with mv := mv } } code 0 0 0 0 (s.pwr.down != .up) ∧
      exec (.supplyFault code mv) s = .next (u.shutdown .supply code 0 0xFF)) ∧
    ((s.boot.awake = false ∨ s.boot.high = false ∨ supplyBad code mv = false) → exec (.supplyFault code mv) s = .next s)) ∧
  (∀ (kind : Down) (cause unit sensor : Nat) (s : State), (s.pwr.down ≠ .up → s.shutdown kind cause unit sensor = s.alsoCause cause) ∧
    (s.pwr.down = .up → (s.shutdown kind cause unit sensor).pwr.down = kind ∧
      (s.shutdown kind cause unit sensor).pwr.downAt = s.tick)) ∧
  (∀ (tile : Nat) (s : State), s.yields (.tileRailFault tile) = false →
    (((s.running = true ∧ s.tileSt tile = 1) ∨ s.endedNow (uTile tile) = true) → exec (.tileRailFault tile) s =
      .next ((s.raise 0x2003 (uTile tile) 0 0 0 (s.unitEnded (uTile tile))).loseTile tile)) ∧
    ((s.running = false ∨ s.tileSt tile ≠ 1) → s.endedNow (uTile tile) = false → exec (.tileRailFault tile) s = .next s)) ∧
  (∀ (w mv : Nat) (s : State),
    (s.running = true → s.tick % 1000 = 0 → 3 ≤ s.rg 0 CFG_BOOT.stage → s.rg 0 CFG_BOOT.stage ≤ 8 → ∃ t u : State,
      exec (.powerSample w mv) s = .next t ∧ u = { s with pwr := { s.pwr with
        samples := (w :: s.pwr.samples).take 800000
        mv := mv } } ∧
      t.pwr = { u.pwr with
        ovr := if s.limitW * (u.meanOf 10).2 < (u.meanOf 10).1 then s.pwr.ovr + 1 else 0
        peak := decide (s.peakW * (u.meanOf 10).2 ≤ (u.meanOf 10).1) } ∧
      t.rg 0 PWR_INPUT.mv = (Nat.min mv 65535) % 2 ^ PWR_INPUT.mv.w ∧ t.ev = s.ev ∧ t.mem = s.mem ∧
      (40000 ≤ mv → t.rg 0 PWR_STATUS.input_low = 0) ∧
      (mv < 40000 → t.rg 0 PWR_STATUS.input_low = s.rg 0 PWR_STATUS.input_low)) ∧
    ((s.running = false ∨ s.tick % 1000 ≠ 0 ∨ s.rg 0 CFG_BOOT.stage < 3 ∨ 8 < s.rg 0 CFG_BOOT.stage) →
      exec (.powerSample w mv) s = .next s)) ∧
  (∀ s : State, (s.running = true → (2000 ≤ s.pwr.ovr ∨ s.pwr.peak = true) → ∃ u : State,
      u = { s with pwr := { s.pwr with
        ovr := 0
        peak := false
        guardAt := some s.tick } } ∧
      exec .packageLimitGuard s = .next (((u.cutAll 0x2021 .halve).rinc 0 PWR_STATUS.guard_trips 1).raise 0x2021 0)) ∧
    ((s.running = false ∨ (s.pwr.ovr < 2000 ∧ s.pwr.peak = false)) → exec .packageLimitGuard s = .next s)) ∧
  (∀ (s : State) (code : Nat) (k : CutKind), s.cutAll code k = { s with pwr := { s.pwr with
    cuts := s.pwr.cuts ++ (List.range s.nTiles).map (fun d => ⟨0, code, d, k⟩) } }) ∧
  (∀ (s v : State) (c : Cut), s.pwr.cuts = [c] → v = { s with pwr := { s.pwr with cuts := [] } } →
    (s.dieUp c.die = false → s.applyCuts = v) ∧
    (s.dieUp c.die = true →
      (c.kind = .throttle → s.applyCuts = v.stepDue c.die true) ∧ (c.kind = .halve → s.applyCuts = v.halveAct c.die) ∧
      (c.kind = .release → s.applyCuts = if s.mayRelease c.die then v.stepDue c.die false else v))) ∧
  (∀ (s : State) (l : List Cut) (c : Cut), c.kind = .release → (∃ y ∈ l, y.die = c.die ∧ y.kind ≠ .release) → s.applyCut l c = s) ∧
  (∀ s v : State, s.yields .controlTick = false → v = { s with pwr := { s.pwr with window := s.rg 0 PWR_CAP.window } } →
    ((s.running = false ∨ s.tick % 100000 ≠ 0) → exec .controlTick s = .next s) ∧
    (s.running = true → s.tick % 100000 = 0 →
      ((v.meanOf v.windowSamples).2 = 0 → exec .controlTick s = .next v) ∧
      (∀ w n, v.meanOf v.windowSamples = (w, n) → n ≠ 0 →
        (s.rg 0 PWR_CAP.cap_w * n ≤ w → ∃ u : State, u = v.cutAll 0x2020 .throttle ∧ exec .controlTick s =
          .next (((if s.rg 0 PWR_STATUS.capping = 1 then u else u.raise 0x2020 0).rs 0 PWR_STATUS.capping 1).rinc 0
            PWR_STATUS.cap_ms 1)) ∧
        (w < s.rg 0 PWR_CAP.cap_w * n → ∃ u : State, u = v.rs 0 PWR_STATUS.capping 0 ∧
          exec .controlTick s = .next (if 100 * w ≤ 97 * s.rg 0 PWR_CAP.cap_w * n ∧
            (s.meanOf 100).1 ≤ s.rg 0 PWR_CAP.cap_w * (s.meanOf 100).2 then u.cutAll 0x2020 .release else u))))) ∧
  (∀ (v : Word) (s u : State), u = (if bitsOf v.toNat 6 1 = 1 then s.clr 0 PWR_MODE.refused else s) →
    exec (.pwrModeWrite v) s = .next { u with pwr := { s.pwr with
      modeReq := some (bitsOf v.toNat 0 1, Nat.min (bitsOf v.toNat 1 4) 9, bitsOf v.toNat 5 1) } }) ∧
  (∀ (m p b : Nat) (s v : State), v = { s with pwr := { s.pwr with modeReq := none } } →
    (s.pwr.modeReq = none → s.decideMode = s) ∧
    (s.pwr.modeReq = some (m, p, b) →
      (m = s.rg 0 PWR_MODE.mode → p = s.rg 0 PWR_MODE.point → b = s.rg 0 PWR_MODE.boost_en → s.decideMode = v) ∧
      ((m ≠ s.rg 0 PWR_MODE.mode ∨ p ≠ s.rg 0 PWR_MODE.point ∨ b ≠ s.rg 0 PWR_MODE.boost_en) →
        (s.allFree = true → s.decideMode = v.setMode m p b) ∧
        (s.allFree = false → s.decideMode = (v.rinc 0 PWR_MODE.refused 1).raise 0x2022 0)))) ∧
  (∀ (d : Nat) (s : State),
    (s.dieUp d = true → (s.die d).stepping = true → (s.die d).rise = true → (s.die d).switchAt = none → exec (.railSettled d) s =
      .next (s.setDie d { s.die d with
        rail := s.rg (uDie d) PWR_DIE.target
        switchAt := some (s.tick + 1) })) ∧
    ((s.dieUp d = false ∨ (s.die d).stepping = false ∨ (s.die d).rise = false ∨ (s.die d).switchAt ≠ none) →
      exec (.railSettled d) s = .next s) ∧
    (∀ n, s.dieUp d = true → (s.die d).stepping = true → (s.die d).switchAt = some n → n + 20 ≤ s.tick → ∃ v : State,
      exec (.settleWindowEnd d) s = .next (v.runSteps d) ∧
      v.die d = { s.die d with
        stepping := false
        switchAt := none
        reversed := false
        rail := s.rg (uDie d) PWR_DIE.point } ∧
      v.rg (uDie d) PWR_DIE.target = s.rg (uDie d) PWR_DIE.point % 2 ^ PWR_DIE.target.w ∧ v.ev = s.ev ∧ v.mem = s.mem) ∧
    ((s.dieUp d = false ∨ (s.die d).stepping = false ∨ (s.die d).switchAt = none ∨
      ∃ n, (s.die d).switchAt = some n ∧ s.tick < n + 20) → exec (.settleWindowEnd d) s = .next s)) ∧
  (∀ (c : CoreId) (s : State), (s.dieUp c.die = false → exec (.droopTrip c) s = .next s ∧ ∀ n, exec (.stretchEnd c n) s = .next s) ∧
    (s.dieUp c.die = true →
      ((s.core (coreKey c.die c.core)).stretched = false → (∀ n, exec (.stretchEnd c n) s = .next s) ∧
        ∃ u : State, exec (.droopTrip c) s = .next (u.reverseStep c.die) ∧
        (u.core (coreKey c.die c.core)).stretched = true ∧ u.dies = s.dies ∧ u.mem = s.mem ∧ u.rg (uDie c.die) PWR_DROOP.stretches =
          min (s.rg (uDie c.die) PWR_DROOP.stretches + 1) (2 ^ PWR_DROOP.stretches.w - 1)) ∧
      ((s.core (coreKey c.die c.core)).stretched = true → exec (.droopTrip c) s = .next (s.reverseStep c.die) ∧
        ∀ n, ∃ t : State, exec (.stretchEnd c n) s = .next t ∧ (t.core (coreKey c.die c.core)).stretched = false ∧ t.ev = s.ev ∧
          t.rg (uDie c.die) PWR_DROOP.cycles = min (s.rg (uDie c.die) PWR_DROOP.cycles + n) (2 ^ PWR_DROOP.cycles.w - 1)))) ∧
  (∀ (d n b : Nat) (s : State),
    ((s.die d).switchAt = none → s.reverseStep d = s) ∧
    ((s.die d).switchAt = some n →
      (((s.die d).stepping = false ∨ (s.die d).reversed = true ∨ s.tick < n ∨ n + 20 ≤ s.tick) → s.reverseStep d = s) ∧
      ((s.die d).stepping = true → (s.die d).reversed = false → n ≤ s.tick → s.tick < n + 20 →
        b = (if s.tick = n then n else s.tick + 1) → (s.reverseStep d).die d = { s.die d with
          reversed := true
          switchAt := some b
          holdTo := some (b + 2000) } ∧
        (s.reverseStep d).rg (uDie d) PWR_DIE.target = (s.die d).from_ % 2 ^ PWR_DIE.target.w ∧
        (s.reverseStep d).rg (uDie d) PWR_DIE.held_vf = 1 ∧ (s.reverseStep d).ev = (s.raise 0x2030 (uDie d)).ev))) ∧
  (∀ (d : Nat) (s : State),
    (∀ n, s.dieUp d = true → (s.die d).holdTo = some n → n ≤ s.tick → ∃ v : State,
      exec (.stepHoldEnd d) s = .next (v.runSteps d) ∧ v.die d = { s.die d with holdTo := none } ∧ v.ev = s.ev ∧
      v.rg (uDie d) PWR_DIE.held_vf = 0) ∧
    ((s.dieUp d = false ∨ (s.die d).holdTo = none ∨ ∃ n, (s.die d).holdTo = some n ∧ s.tick < n) →
      exec (.stepHoldEnd d) s = .next s))

/-- Sensor reads, faults, rates, darkening, trips and reconciliation. In a running part, at a present tile: a read of its 74 sensors
at a multiple of 1,000 tk is kept, a sensor that deviated at 1,000 reads in a row giving way to its neighbours, with the readings in use first
in the history, and the limits and bands follow them. A band changes upwards at its bound and downwards 3 °C below it. Such a sensor becomes
faulty, shown and with 0x1040, and stays so. A rate computation at a multiple of 10,000 tk with 100 reads of history notes the rates, and
halves the die's n_act where one is at 8 °C/ms. A laser-zone sensor at its limit for 1,000 reads darkens the engine's links, OFF, with 0x1021.
A sensor at the trip limit for 3 reads raises 0x1001 and shuts the part down. Each second the model is reconciled, in its turn: against the
meter where it is present, fresh, sealed and without fault, else against telemetry; the factor is shown, the model restarts at 0, and a model
out of range takes the factor 1 and raises 0x2040. Each of these rows otherwise changes nothing. The neighbours of a laser-zone sensor are
the model's choice (log 74). (spec/14_power_and_thermal.md, spec/15_energy_metrology.md) -/
def Obligations.ThermalRows : Prop :=
  (∀ (t : Nat) (q : List Int) (s : State),
    (s.running = true → s.tileUp t = true → s.tick % 1000 = 0 → q.length = 74 → ∃ u : State, ∃ use : List Int,
      exec (.sensorRead t q) s = .next (u.applyLimits t use) ∧
      use = s.inUse t (withApart (s.sens t).faulty (u.sens t).apart) q ∧ (u.sens t).raw = q ∧
      (u.sens t).hist = (use :: (s.sens t).hist).take 100 ∧ (u.sens t).faulty = (s.sens t).faulty ∧ u.regs = s.regs ∧ u.ev = s.ev ∧
      ∀ i, i < 74 → mget (u.sens t).apart i 0 = (match s.nearMedian t i (s.sens t).faulty q with
        | some m => if 32 < (q.getD i 0 - m).natAbs then mget (s.sens t).apart i 0 + 1 else 0
        | none => 0)) ∧
    ((s.running = false ∨ s.tileUp t = false ∨ s.tick % 1000 ≠ 0 ∨ q.length ≠ 74) → exec (.sensorRead t q) s = .next s)) ∧
  (∀ (cur : Nat) (q : Int), cur ≤ 3 → bandNext cur q ≤ 3 ∧ (380 ≤ q → bandNext cur q = 3) ∧ (q < 128 → bandNext cur q = 0) ∧
    (128 ≤ q → q < 140 → cur ≤ 1 → bandNext cur q = cur) ∧ (cur = 0 → 140 ≤ q → q < 320 → bandNext cur q = 1)) ∧
  (∀ (t i : Nat) (s : State),
    (s.running = true → s.tileUp t = true → 1000 ≤ mget (s.sens t).apart i 0 → sensorBad (s.sens t).faulty i = false → ∃ u : State,
      exec (.sensorFaulty t i) s = .next u ∧
      (u.sens t).faulty = (s.sens t).faulty ||| 2 ^ i ∧ sensorBad (u.sens t).faulty i = true ∧
      (u.sens t).hist = (s.sens t).hist ∧ u.regs = s.regs ∧ u.ev = (s.raise 0x1040 (sensorUnit t i) i).ev ∧ u.mem = s.mem) ∧
    ((s.running = false ∨ s.tileUp t = false ∨ mget (s.sens t).apart i 0 < 1000 ∨ sensorBad (s.sens t).faulty i = true) →
      exec (.sensorFaulty t i) s = .next s)) ∧
  (∀ (t : Nat) (s : State),
    (s.running = true → s.tileUp t = true → s.tick % 10000 = 0 → 100 ≤ (s.sens t).hist.length → ∃ u : State,
      exec (.rateComputation t) s = .next (u.noteHeld t) ∧ (u.sens t).hist = (s.sens t).hist ∧ (u.sens t).raw = (s.sens t).raw ∧
      (u.sens t).faulty = (s.sens t).faulty ∧ u.mem = s.mem ∧
      (∀ i, i < 74 → mfind (u.sens t).rate i = some ((rate40 (s.sens t).hist i * 5).ediv 2)) ∧
      ((∀ i, i < 74 → rate40 (s.sens t).hist i < 320) → u.pwr = s.pwr) ∧
      (∀ i, i < 74 → 320 ≤ rate40 (s.sens t).hist i → (∀ j, j < i → rate40 (s.sens t).hist j < 320) →
        u.pwr.cuts = s.pwr.cuts ++ [⟨sensorUnit t i, 0x1011, t, .halve⟩])) ∧
    ((s.running = false ∨ s.tileUp t = false ∨ s.tick % 10000 ≠ 0 ∨ (s.sens t).hist.length < 100) →
      exec (.rateComputation t) s = .next s)) ∧
  (∀ (e : Nat) (s : State),
    (∀ i, s.running = true → s.tileUp e = true →
      ((List.range 8).map (· + 64)).find? (fun i => mget (s.sens e).hot i 0 ≥ 1000) = some i → s.rg (uTile e) THM_STATUS.darkened = 0 →
      ∃ u v : State, exec (.laserZoneDarken e) s = .next (v.noteHeld e) ∧ u.rg (uTile e) THM_STATUS.darkened = 1 ∧
        u.ev = (s.raise 0x1021 (uToe e) i).ev ∧ u.opts = s.opts ∧ u.waves = s.waves ∧
        v = u.each ((List.range 8).map (fun j => 8 * e + j)) (fun s l =>
          if (s.setOpt l { s.opt l with dark := true }).toeUp e = true ∧ (s.setOpt l { s.opt l with dark := true }).og l TOE_STATUS.safety ≠ 0
          then (s.setOpt l { s.opt l with dark := true }).setSafety l 0 else s.setOpt l { s.opt l with dark := true })) ∧
    ((s.running = false ∨ s.tileUp e = false ∨ s.rg (uTile e) THM_STATUS.darkened ≠ 0 ∨
      ∀ i, 64 ≤ i → i < 72 → mget (s.sens e).hot i 0 < 1000) → exec (.laserZoneDarken e) s = .next s)) ∧
  (∀ (t i : Nat) (s : State),
    (s.running = true → s.tileUp t = true → 3 ≤ mget (s.sens t).trip i 0 → sensorBad (s.sens t).faulty i = false →
      exec (.thermalTrip t i) s = .next ((s.raise 0x1001 (sensorUnit t i) i).shutdown .thermal 0x1001 (sensorUnit t i) i)) ∧
    ((s.running = false ∨ s.tileUp t = false ∨ mget (s.sens t).trip i 0 < 3 ∨ sensorBad (s.sens t).faulty i = true) →
      exec (.thermalTrip t i) s = .next s)) ∧
  (∀ (mj ref : Nat) (meter inRange : Bool) (s : State), s.yields (.reconciliation mj) = false →
    ((s.running = false ∨ s.tick % 100000000 ≠ 0 ∨ s.tick = 0) → exec (.reconciliation mj) s = .next s) ∧
    (s.running = true → s.tick % 100000000 = 0 → s.tick ≠ 0 →
      meter = (s.rg uMet MET_STATUS.present == 1 && decide (s.tick < s.mirror.at_ + 200000000) && s.rg uMet MET_STATUS.sealed == 1 &&
        s.rg uMet MET_STATUS.fault == 0) →
      ref = (if meter then s.rg uMet MET_SECOND.energy_mj else mj) * 1000 * 2 ^ 32 →
      inRange = (s.energy.model != 0 && decide (80 * s.energy.model ≤ 100 * ref) && decide (100 * ref ≤ 125 * s.energy.model)) →
      ∃ t : State, exec (.reconciliation mj) s = .next t ∧ t.energy.model = 0 ∧ t.rg 0 PWR_RECON.source = (if meter then 0 else 1) ∧
        t.rg 0 PWR_RECON.out_of_range = (if inRange then 0 else 1) ∧ t.met = s.met ∧ t.mem = s.mem ∧
        (s.energy.model ≠ 0 → t.rg 0 PWR_RECON.factor = Nat.min (ref * 65536 / s.energy.model) (2 ^ 32 - 1) % 2 ^ PWR_RECON.factor.w) ∧
        (inRange = true → t.energy.f = Nat.min (ref * 65536 / s.energy.model) (2 ^ 32 - 1) ∧ t.ev = s.ev) ∧
        (inRange = false → t.energy.f = 65536 ∧ t.ev = (s.raise 0x2040 0).ev)))

/-- The metering island's happenings and its port, and the frames the keeper takes. METERING_START of an island that is off turns it on,
counts the power-up, signs the interval record that it owes and then a power-up record, each with the next number; of one that runs it does
nothing. A record is its body and, while a leaf of the key is left, its signature by the next leaf. ISLAND_HOLD_UP adds the energy since the
last second and turns the island off, owing the record of an interval of 900 s. A self-check of a running island counts the second and its
energies, notes the checks, and sends a status frame. MET_PULSE takes 360,000 mJ for one pulse, high for 500,000 tk. INTERVAL_END, in its
turn and after 900 s, signs the interval's record. A port command without its CRC or with the island off does nothing; STATUS, RECORD and
PUBKEY answer 0 with their data, RECORD of an unknown number 1, each in a reply frame with its own CRC; a verification command is refused
with 2 and counted after the seal, answered 3 before it without met_prog, and else done: CAL_CHECK answers the power, PULSE_TEST begins its
pulses, which come at 10 Hz, SEAL with its argument seals and signs a record, and with another argument answers a status that is not stated.
A valid status frame fills the mirror of a keeper that is awake and shows it present; a record frame fills its slot; another frame does
nothing. (spec/15_energy_metrology.md) -/
def Obligations.MeterIslandRows : Prop :=
  (∀ s : State, (s.met.running = true → exec .meteringStart s = .next s) ∧
    (s.met.running = false → ∃ m : MetSt, exec .meteringStart s = .next (s.setMet m) ∧ m.running = true ∧
      m.powerUps = s.met.powerUps + 1 ∧ m.recordNo = s.met.recordNo + (if s.met.owed then 2 else 1) ∧ m.seconds = 0 ∧ m.closedAt = 0 ∧
      m.owed = false ∧ m.interval = 0 ∧ m.total = s.met.total ∧ m.exported = s.met.exported ∧ m.sealed = s.met.sealed ∧
      m.refusals = s.met.refusals ∧ m.unpulsed = s.met.unpulsed ∧ m.pulses = s.met.pulses ∧ m.replies = s.met.replies ∧
      s.met.sent <+: m.sent ∧ m.sent.length = s.met.sent.length + (if s.met.owed then 2 else 1))) ∧
  (∀ (m : MetSt) (serial kind : Nat), ∃ r : List Byte, (m.sign serial kind).sent = m.sent ++ [.record m.recordNo r] ∧
    (m.sign serial kind).recordNo = m.recordNo + 1 ∧ (m.sign serial kind).interval = 0 ∧
    (m.leaves < 1048576 → (m.sign serial kind).leaves = m.leaves + 1 ∧
      r = m.body serial kind ++ signature 1 m.leaves 5076 (m.body serial kind)) ∧
    (1048576 ≤ m.leaves → (m.sign serial kind).leaves = m.leaves ∧ r = m.body serial kind)) ∧
  (∀ (imp exp : Nat) (s : State), (s.met.running = false → exec (.islandHoldUp imp exp) s = .next s) ∧
    (s.met.running = true → exec (.islandHoldUp imp exp) s = .next (s.setMet { s.met with
      total := s.met.total + imp
      exported := s.met.exported + exp
      interval := s.met.interval + imp
      unpulsed := s.met.unpulsed + imp
      running := false
      testLeft := 0
      owed := decide (s.met.closedAt + 900 ≤ s.met.seconds) }))) ∧
  (∀ s : State,
    (s.met.running = true → 360000 ≤ s.met.unpulsed → exec .metPulse s = .next (s.setMet { s.met with
      unpulsed := s.met.unpulsed - 360000
      pulses := s.met.pulses + 1
      fallAt := s.tick + 500000 })) ∧
    ((s.met.running = false ∨ s.met.unpulsed < 360000) → exec .metPulse s = .next s) ∧
    (s.pulsePin = true ↔ s.tick < s.met.fallAt)) ∧
  (∀ s : State, s.yields .intervalEnd = false →
    (s.met.running = true → s.met.closedAt + 900 ≤ s.met.seconds → ∃ m : MetSt, exec .intervalEnd s = .next (s.setMet m) ∧
      m.recordNo = s.met.recordNo + 1 ∧ m.closedAt = s.met.seconds ∧ m.interval = 0 ∧ m.total = s.met.total ∧ m.iFault = false ∧
      m.iLow = false ∧ m.iRefused = false ∧ m.owed = false ∧ m.sent.length = s.met.sent.length + 1 ∧ m.replies = s.met.replies) ∧
    ((s.met.running = false ∨ s.met.seconds < s.met.closedAt + 900) → exec .intervalEnd s = .next s)) ∧
  (∀ (volt shunt osc : Bool) (imp exp mv ma : Nat) (s : State),
    (s.met.running = true → ∃ m : MetSt, exec (.selfCheck volt shunt osc imp exp mv ma) s = .next (s.setMet m) ∧
      m.seconds = s.met.seconds + 1 ∧ m.total = s.met.total + imp ∧ m.exported = s.met.exported + exp ∧
      m.interval = s.met.interval + imp ∧ m.unpulsed = s.met.unpulsed + imp ∧ m.lastE = imp ∧ m.mv = mv ∧ m.ma = ma ∧
      m.fault = !(volt && shunt && osc) ∧ m.iFault = (s.met.iFault || !(volt && shunt && osc)) ∧
      m.iLow = (s.met.iLow || decide (mv < 40000)) ∧ m.sent = s.met.sent ++ [.status m.frame] ∧ m.recordNo = s.met.recordNo ∧
      m.replies = s.met.replies) ∧
    (s.met.running = false → exec (.selfCheck volt shunt osc imp exp mv ma) s = .next s)) ∧
  (∀ (cmd crc a n : Nat) (prog : Bool) (i : Instr) (s : State), ((cmd = 0x01 ∧ i = .status crc a) ∨ (cmd = 0x02 ∧ i = .record crc a) ∨
    (cmd = 0x03 ∧ i = .pubkey crc a) ∨ (cmd = 0x10 ∧ i = .calCheck crc prog a n) ∨ (cmd = 0x11 ∧ i = .pulseTest crc prog a)) →
    (crc ≠ commandCrc cmd a ∨ s.met.running = false) → exec i s = .next s) ∧
  (∀ (crc a : Nat) (prog : Bool) (s : State), (crc ≠ commandCrc 0x1F a ∨ s.met.running = false) →
    exec (.seal crc prog a) s = .next s.free.2) ∧
  (∀ (a : Nat) (s : State), s.met.running = true →
    exec (.status (commandCrc 0x01 a) a) s = .next (s.setMet (s.met.answer 0x01 0 (s.met.body s.fuses.serial 0))) ∧
    exec (.pubkey (commandCrc 0x03 a) a) s = .next (s.setMet (s.met.answer 0x03 0 metPubkey)) ∧
    (∀ r, mfind s.met.records a = some r →
      exec (.record (commandCrc 0x02 a) a) s = .next (s.setMet (s.met.answer 0x02 0 r))) ∧
    (mfind s.met.records a = none → exec (.record (commandCrc 0x02 a) a) s = .next (s.setMet (s.met.answer 0x02 1 [])))) ∧
  (∀ (m : MetSt) (cmd st : Nat) (data : List Byte), (m.answer cmd st data).replies = m.replies ++ [replyFrame cmd st data] ∧
    (m.answer cmd st data).sent = m.sent ∧ (m.answer cmd st data).total = m.total ∧ (replyFrame cmd st data).length = data.length + 9) ∧
  (∀ (cmd a n : Nat) (prog : Bool) (i : Instr) (s : State), s.met.running = true →
    ((cmd = 0x10 ∧ i = .calCheck (commandCrc cmd a) prog a n) ∨ (cmd = 0x11 ∧ i = .pulseTest (commandCrc cmd a) prog a) ∨
      (cmd = 0x1F ∧ i = .seal (commandCrc cmd a) prog a)) →
    (s.met.sealed = true → ∃ t : State, exec i s = .next t ∧ t.met = { s.met with
      refusals := s.met.refusals + 1
      iRefused := true
      replies := s.met.replies ++ [replyFrame cmd 2 []] } ∧ t.regs = s.regs ∧ t.mem = s.mem ∧ t.ev = s.ev) ∧
    (s.met.sealed = false → prog = false → ∃ t : State, exec i s = .next t ∧ t.met = s.met.answer cmd 3 [] ∧ t.regs = s.regs ∧
      t.mem = s.mem ∧ t.ev = s.ev) ∧
    (s.met.sealed = false → prog = true → ∃ t : State, exec i s = .next t ∧ t.regs = s.regs ∧ t.mem = s.mem ∧ t.ev = s.ev ∧
      (cmd = 0x10 → t.met = s.met.answer 0x10 0 (le 4 n)) ∧
      (cmd = 0x11 → t.met = { s.met with
        testLeft := a
        testAt := s.tick
        replies := s.met.replies ++ [replyFrame 0x11 0 []] }) ∧
      (cmd = 0x1F → a = 0x5EA15EA1 → t.met.sealed = true ∧ t.met.recordNo = s.met.recordNo + 1 ∧ t.met.total = s.met.total ∧
        t.met.sent.length = s.met.sent.length + 1 ∧ t.met.replies.length = s.met.replies.length + 1) ∧
      (cmd = 0x1F → a ≠ 0x5EA15EA1 → t.met = s.met.answer 0x1F (Config.freeNat s.freeCtr % 256) []))) ∧
  (∀ s : State, (s.met.testLeft ≠ 0 → s.met.testAt ≤ s.tick → s.metTick = s.setMet { s.met with
      testLeft := s.met.testLeft - 1
      testAt := s.met.testAt + 10000000
      pulses := s.met.pulses + 1
      fallAt := s.tick + 500000 }) ∧
    ((s.met.testLeft = 0 ∨ s.tick < s.met.testAt) → s.metTick = s)) ∧
  (∀ (m : MetFrame) (s : State),
    (m.valid = true → s.boot.awake = true → ∃ t : State, exec (.statusFrame m) s = .next t ∧
      t.rg uMet MET_STATUS.present = 1 ∧ t.rg uMet MET_STATUS.sealed = (if m.sealed then 1 else 0) ∧
      t.rg uMet MET_STATUS.fault = (if m.fault then 1 else 0) ∧ t.rg uMet MET_TOTAL.total_mj = m.total % 2 ^ 64 ∧
      t.rg uMet MET_SECOND.energy_mj = m.energy % 2 ^ 32 ∧ t.rg uMet MET_REFUSED.port = m.refused % 2 ^ 32 ∧ t.mirror.at_ = s.tick ∧
      t.mirror.records = s.mirror.records ∧ t.met = s.met ∧ t.mem = s.mem ∧
      (m.fault = false → m.refused ≤ s.rg uMet MET_REFUSED.port → m.low = false → t.ev = s.ev) ∧
      (m.fault = true → m.refused ≤ s.rg uMet MET_REFUSED.port → m.low = false → t.ev = (s.raise 0xB002 uMet).ev) ∧
      (m.fault = false → s.rg uMet MET_REFUSED.port < m.refused → m.low = false → t.ev = (s.raise 0xB004 uMet).ev) ∧
      (m.fault = false → m.refused ≤ s.rg uMet MET_REFUSED.port → m.low = true → s.rg uMet MET_STATUS.leaves_low = 0 →
        t.ev = (s.raise 0xB005 uMet).ev)) ∧
    ((m.valid = false ∨ s.boot.awake = false) → exec (.statusFrame m) s = .next s)) ∧
  (∀ (no : Nat) (bytes : List Byte) (s : State),
    (s.boot.awake = true → ∃ t : State, exec (.recordFrame no bytes) s = .next t ∧
      mfind t.mirror.records (no % 96) = some bytes ∧ (∀ k, k ≠ no % 96 → mfind t.mirror.records k = mfind s.mirror.records k) ∧
      t.regs = s.regs ∧ t.met = s.met ∧ t.mem = s.mem ∧ t.ev = s.ev) ∧
    (s.boot.awake = false → exec (.recordFrame no bytes) s = .next s))

/-- Writes to the mirror are refused and counted, and a mirror without frames goes stale. A write to any address in unit 0xF0, by
MIRROR_WRITE, REGISTER_WRITE, I3C, JTAG or, in its turn, an ECP REG_WRITE, is refused with an error completion (status or code 5 where one
is returned); the keeper raises 0xB001 at precedence 11 and counts the attempt in its MET_REFUSED field, and the island does not
change. With no valid status frame for 200,000,000 tk (2 s) MIRROR_STALE of a present mirror clears MET_STATUS.present and raises
0xB003 at precedence 11; the next valid frame sets it again. While the keeper is not awake these rows change nothing, and MIRROR_STALE
changes nothing otherwise. (R410, R412) -/
def Obligations.MirrorIsReadOnlyAndGoesStale : Prop :=
  (∀ (a : Nat) (v : Word) (s : State), addrUnit a = 0xF0 → a < 2 ^ 48 → s.boot.awake = true → ∃ (u : State) (r : EvRec),
    s.mgmtWrite a v.toNat = (false, u) ∧ u.rg uMet MET_REFUSED.mirror =
      min (s.rg uMet MET_REFUSED.mirror + 1) (2 ^ 32 - 1) ∧ u.ev.held = s.ev.held ++ [r] ∧ r.code = 0xB001 ∧ r.prec = 11 ∧
    r.unit = 0xF0 ∧ r.tick = s.tick ∧ u.met = s.met ∧ u.mirror = s.mirror ∧ u.mem = s.mem ∧
    (∀ off, exec (.mirrorWrite off v) s = .next (u.accessDone (0xF0 * 2 ^ 40 + off) false)) ∧
    exec (.registerWrite a 64 v) s = .next (u.accessDone a false) ∧
    (∃ t : State, exec (.i3cWrite a v) s = .next t ∧ t.mgmt.i3c = (5, 0) ∧ t.regs = u.regs ∧ t.ev = u.ev ∧ t.met = s.met) ∧
    (∀ ecc, ∃ t : State, exec (.mgmt 1 a v ecc) s = .next t ∧ t.mgmt.jtag = (5, 0) ∧ t.regs = u.regs ∧ t.ev = u.ev ∧
      t.met = s.met)) ∧
  (∀ (off : Nat) (v : Word) (s : State), s.boot.awake = false → exec (.mirrorWrite off v) s = .next s) ∧
  (∀ (h : EcpHdr) (a : Nat) (v : Word) (s : State), addrUnit a = 0xF0 → a < 2 ^ 48 → s.accessYields h.seq = false →
    s.ecpRuns (.regWrite h a v) = true → ∃ u : State, u = (s.ecpTaken h).mirrorRefused ∧ u.met = s.met ∧
    exec (.regWrite h a v) s = .next (u.reply h 0x13 0x14 5 (regReplyBody a [0]))) ∧
  (∀ s : State,
    (s.boot.awake = true → s.rg uMet MET_STATUS.present = 1 → s.mirror.at_ + 200000000 ≤ s.tick → ∃ (t : State) (r : EvRec),
      exec .mirrorStale s = .next t ∧ t.rg uMet MET_STATUS.present = 0 ∧ t.ev.held = s.ev.held ++ [r] ∧ r.code = 0xB003 ∧
      r.prec = 11 ∧ r.unit = 0xF0 ∧ r.tick = s.tick ∧ t.met = s.met ∧ t.mirror = s.mirror ∧ t.mem = s.mem ∧
      (∀ k, k ≠ regKey uMet MET_STATUS.present 0 → mget t.regs k 0 = mget s.regs k 0)) ∧
    ((s.boot.awake = false ∨ s.rg uMet MET_STATUS.present ≠ 1 ∨ s.tick < s.mirror.at_ + 200000000) →
      exec .mirrorStale s = .next s)) ∧
  (∀ (m : MetFrame) (s : State), m.valid = true → s.boot.awake = true → ∃ t : State, exec (.statusFrame m) s = .next t ∧
    t.rg uMet MET_STATUS.present = 1 ∧ t.mirror.at_ = s.tick)

/-- What a management access does: values, access codes and error completions. An access of an absent unit, of an address that is not
aligned to 8 bytes, or of an offset with no register and no window is an error completion and changes no state; so is a
REGISTER_WRITE of another width than 64 bits. A read of a register answers its value and clears its clear-on-read fields, and
changes no memory, engine or event. A read of a read-only window answers its word and changes nothing, and a write there completes and
changes nothing. A read in a window of memory answers the 8 bytes where none of them is uncorrectable; a write there stores 8 bytes. A
write of a register of a unit other than 0xF0 completes with that register's effect; of one whose fields are all read-only it changes
nothing. REGISTER_WRITE of 64 bits has exactly the effect of a management write, and REGISTER_WRITE notes how the access completed; while
the keeper is not awake it changes nothing. (spec/00_scope.md, spec/01_package_and_hierarchy.md) -/
def Obligations.RegisterAccess : Prop :=
  (∀ (a v : Nat) (ecc : EccHits) (s : State), addrUnit a ≠ 0xF0 → (s.unitUp (addrUnit a) = false ∨ a % 8 ≠ 0 ∨ 2 ^ 48 ≤ a) →
    s.mgmtRead a ecc = (none, s) ∧ s.mgmtWrite a v = (false, s)) ∧
  (∀ (a v : Nat) (ecc : EccHits) (s : State), addrUnit a ≠ 0xF0 → s.regAt (addrUnit a) (addrOff a) = none →
    s.windowWord (addrUnit a) (addrOff a) = none → s.windowMem (addrUnit a) (addrOff a) = none →
    s.mgmtRead a ecc = (none, s) ∧ s.mgmtWrite a v = (false, s)) ∧
  (∀ (a : Nat) (ecc : EccHits) (r : RegDesc) (d : Nat) (s : State), s.unitUp (addrUnit a) = true → a % 8 = 0 → a < 2 ^ 48 →
    s.regAt (addrUnit a) (addrOff a) = some (r, d) → ∃ t : State, s.mgmtRead a ecc = (some (s.regValue (addrUnit a) r d), t) ∧
      t.mem = s.mem ∧ t.engs = s.engs ∧ t.ev = s.ev ∧ t.met = s.met ∧ ((∀ f ∈ r.flds, f.acc ≠ .rc) → t = s)) ∧
  (∀ (a v : Nat) (r : RegDesc) (d : Nat) (s : State), addrUnit a ≠ 0xF0 → s.unitUp (addrUnit a) = true → a % 8 = 0 → a < 2 ^ 48 →
    s.regAt (addrUnit a) (addrOff a) = some (r, d) → s.mgmtWrite a v = (true, s.regWrite (addrUnit a) r d v)) ∧
  (∀ (a v x : Nat) (ecc : EccHits) (s : State), s.unitUp (addrUnit a) = true → a % 8 = 0 → a < 2 ^ 48 →
    s.regAt (addrUnit a) (addrOff a) = none → s.windowWord (addrUnit a) (addrOff a) = some x →
    s.mgmtRead a ecc = (some x, s) ∧ (addrUnit a ≠ 0xF0 → s.mgmtWrite a v = (true, s))) ∧
  (∀ (a v p : Nat) (ecc : EccHits) (s : State), s.unitUp (addrUnit a) = true → a % 8 = 0 → a < 2 ^ 48 →
    s.regAt (addrUnit a) (addrOff a) = none → s.windowWord (addrUnit a) (addrOff a) = none →
    s.windowMem (addrUnit a) (addrOff a) = some p →
    s.mgmtWrite a v = (true, s.writeMem p (le 8 v)) ∧
    (ecc.core = [] → ecc.mem = [] → ∃ t : State, s.mgmtRead a ecc = (some (s.word p 8), t) ∧ t.mem = s.mem ∧ t.engs = s.engs ∧
      t.ev = s.ev)) ∧
  (∀ (u : Nat) (r : RegDesc) (d v : Nat) (s : State), (∀ f ∈ r.flds, f.acc = .ro ∨ f.acc = .rc) → s.plainWrite u r d v = s) ∧
  (∀ (a w : Nat) (v : Word) (s : State),
    (s.boot.awake = true → w = 64 →
      exec (.registerWrite a w v) s = .next ((s.mgmtWrite a v.toNat).2.accessDone a (s.mgmtWrite a v.toNat).1)) ∧
    (s.boot.awake = true → w ≠ 64 → exec (.registerWrite a w v) s = .next (s.accessDone a false)) ∧
    (s.boot.awake = false → exec (.registerWrite a w v) s = .next s))

/-- The I3C target and the JTAG port. With the keeper awake: an I3C write or a JTAG update performs the management access of its
address and leaves its status, 0 or 5; an I3C read request or a JTAG read leaves status and value; another JTAG command leaves 5.
A status read returns what the last I3C access left, the JTAG capture what the last one left. SETDASA to the target's static
address, or ENTDAA, assigns a dynamic address while there is none; to another address it changes nothing. GETSTATUS returns a
value that is not stated. EXTEST, BYPASS, SAMPLE_PRELOAD (which loads the boundary register) and IDCODE (which returns the
identification) select their instruction, and trst_n, in its turn, selects IDCODE. None of these selections changes a register, memory, or
the log. With the keeper not awake none of these rows changes anything. (spec/18_electrical_mechanical.md) -/
def Obligations.ManagementPins : Prop :=
  (∀ (a : Nat) (v : Word) (s : State), s.boot.awake = true → ∃ t : State, exec (.i3cWrite a v) s = .next t ∧
    t.mgmt.i3c = (if (s.mgmtWrite a v.toNat).1 then 0 else 5, 0) ∧ t.regs = (s.mgmtWrite a v.toNat).2.regs ∧
    t.mem = (s.mgmtWrite a v.toNat).2.mem ∧ t.ev = (s.mgmtWrite a v.toNat).2.ev) ∧
  (∀ (a : Nat) (ecc : EccHits) (s : State), s.boot.awake = true → ∃ t : State, exec (.readRequest a ecc) s = .next t ∧
    t.regs = (s.mgmtRead a ecc).2.regs ∧ t.ev = (s.mgmtRead a ecc).2.ev ∧ t.mem = s.mem ∧
    (∀ v, (s.mgmtRead a ecc).1 = some v → t.mgmt.i3c = (0, v)) ∧ ((s.mgmtRead a ecc).1 = none → t.mgmt.i3c = (5, 0))) ∧
  (∀ s : State, s.boot.awake = true → ∃ t : State, exec .statusRead s = .next t ∧
    t.mgmt.out = s.mgmt.out ++ [.status s.mgmt.i3c.1 s.mgmt.i3c.2] ∧ t.mgmt.i3c = s.mgmt.i3c ∧ t.regs = s.regs) ∧
  (∀ (static dyn : Nat) (s : State), s.boot.awake = true →
    (static = 0x50 + s.mgmt.strap → s.mgmt.dyn = none → ∃ t : State, exec (.setdasa static dyn) s = .next t ∧ t.mgmt.dyn = some dyn ∧
      t.regs = s.regs) ∧
    ((static ≠ 0x50 + s.mgmt.strap ∨ s.mgmt.dyn ≠ none) → exec (.setdasa static dyn) s = .next s) ∧
    (s.mgmt.dyn = none → ∃ t : State, exec (.entdaa dyn) s = .next t ∧ t.mgmt.dyn = some dyn ∧ t.regs = s.regs) ∧
    (s.mgmt.dyn ≠ none → exec (.entdaa dyn) s = .next s)) ∧
  (∀ s : State, s.boot.awake = true → ∃ t : State, exec .getstatus s = .next t ∧ t.freeCtr = s.freeCtr + 1 ∧
    t.mgmt.out = s.mgmt.out ++ [.getstatus (Config.freeNat s.freeCtr % 2 ^ 16)] ∧ t.regs = s.regs) ∧
  (∀ (pins : Nat) (i : Instr) (ir : Nat) (s : State), s.boot.awake = true →
    ((i = .extest ∧ ir = 0x00) ∨ (i = .samplePreload pins ∧ ir = 0x01) ∨ (i = .idcode ∧ ir = 0x02) ∨ (i = .bypass ∧ ir = 0x3F) ∨
      (i = .trstN ∧ ir = 0x02 ∧ s.yields .trstN = false)) → ∃ t : State, exec i s = .next t ∧ t.mgmt.ir = ir ∧ t.regs = s.regs ∧
      t.mem = s.mem ∧ t.ev = s.ev ∧ t.mgmt.jtag = s.mgmt.jtag ∧
      (i = .samplePreload pins → t.mgmt.bound = pins) ∧ (i ≠ .samplePreload pins → t.mgmt.bound = s.mgmt.bound) ∧
      (i = .idcode → t.mgmt.out = s.mgmt.out ++ [.idcode (2 ^ 28 + (0x4B00 + s.fuses.tiles) * 2 ^ 12 + 0x5A7 * 2 + 1)]) ∧
      (i ≠ .idcode → t.mgmt.out = s.mgmt.out)) ∧
  (∀ (c a : Nat) (v : Word) (ecc : EccHits) (s u : State), s.boot.awake = true →
    u = (s.setMgmt { s.mgmt with ir := 0x10 }).returned (.capture s.mgmt.jtag.1 s.mgmt.jtag.2) →
    (c = 1 → ∃ t : State, exec (.mgmt c a v ecc) s = .next t ∧ t.mgmt.jtag = (if (u.mgmtWrite a v.toNat).1 then 0 else 5, 0) ∧
      t.regs = (u.mgmtWrite a v.toNat).2.regs ∧ t.mgmt.out = s.mgmt.out ++ [.capture s.mgmt.jtag.1 s.mgmt.jtag.2]) ∧
    (c = 2 → ∃ t : State, exec (.mgmt c a v ecc) s = .next t ∧ t.regs = (u.mgmtRead a ecc).2.regs ∧
      (∀ x, (u.mgmtRead a ecc).1 = some x → t.mgmt.jtag = (0, x)) ∧ ((u.mgmtRead a ecc).1 = none → t.mgmt.jtag = (5, 0))) ∧
    (c ≠ 1 → c ≠ 2 → ∃ t : State, exec (.mgmt c a v ecc) s = .next t ∧ t.mgmt.jtag = (5, 0) ∧ t.regs = s.regs ∧
      t.mgmt.ir = 0x10)) ∧
  (∀ (i : Instr) (a b : Nat) (v : Word) (ecc : EccHits) (s : State), s.boot.awake = false → (i = .i3cWrite a v ∨ i = .readRequest a ecc ∨
    i = .statusRead ∨ i = .setdasa a b ∨ i = .entdaa a ∨ i = .getstatus ∨ i = .extest ∨ i = .samplePreload a ∨ i = .idcode ∨
    i = .bypass ∨ i = .mgmt a b v ecc ∨ (i = .trstN ∧ s.yields .trstN = false)) → exec i s = .next s)
end

