-- ==== Sys2Proof/Laws/Ecp.lean ====
section
/-!
SUPPORT. What the receiving port does with a request that passes every check, said once.
-/

namespace Sys2Proof.Machine

/-- A request that runs (R367 to R369) has exactly its own effect, on the state with its number taken and its port noted. -/
theorem ecpIn_of_runs {s : State} {i : Instr} {h : EcpHdr} {type : Nat} {body : List Byte} (run : State → State)
    (hi : ecpOf i = some (h, type, body)) (hr : s.ecpRuns i = true) : s.ecpIn h type false body run = run (s.ecpTaken h) := by
  simp only [State.ecpRuns, hi, Bool.and_eq_true, beq_iff_eq, Bool.not_eq_true', List.any_eq_false] at hr
  obtain ⟨⟨⟨⟨⟨⟨⟨⟨⟨⟨h1, h2⟩, h3⟩, h4⟩, h5⟩, h6⟩, h7⟩, h8⟩, h9⟩, h10⟩, h11⟩ := hr
  have hf : (s.ecpTaken h).claim.cache.find? (fun e => e.out.reqId == h.reqId && e.rtype == type) = none := by
    rw [List.find?_eq_none]; simpa using h11
  have ha : (s.countFec h.port h.rx).authentic h type body = true := h5
  have hs : (s.countFec h.port h.rx).claim.seqFresh h.seq = true := h6
  simp only [State.ecpTaken] at h10 hf ⊢
  simp only [State.ecpIn, h1, h2, h3, h4, ha, hs, h7, h8, h9]
  simp [h10, hf]

end Sys2Proof.Machine
end

