-- ==== Sys2Proof/Laws/Flit.lean ====
section
/-!
SUPPORT. What a link does with a flit that passes every check, said once.
-/

namespace Sys2Proof.Machine

/-- A sequenced flit that runs (R341, R344) has its own effect on the state with its number taken. -/
theorem flitIn_of_runs {s : State} {i : Instr} {f : FlitHdr} {type rsv : Nat} {dst : Nat × Nat} (run : State → State)
    (hi : flitOf i = some (f, type, rsv, dst)) (hr : s.flitRuns i = true) :
    s.flitIn f type rsv dst run = run (s.flitTaken f) := by
  simp only [State.flitRuns, hi, Bool.and_eq_true, Bool.or_eq_true, beq_iff_eq, decide_eq_true_eq] at hr
  obtain ⟨⟨⟨⟨h1, h2⟩, h3⟩, h4⟩, h5⟩ := hr
  have h6 : s.flitCheck f type rsv dst = none := by simpa using h3
  have h7 : ¬ type ≤ 3 := by omega
  have h8 : s.lg f.link LNK_STATUS.state ≠ 1 := by omega
  simp only [State.flitIn, h1, h6, State.sequence, h5]
  rw [if_neg (by simp; omega), if_neg h8, if_neg h7]
  rfl

end Sys2Proof.Machine
end

