-- ==== Sys2Proof/Laws/Mem.lean ====
section
/-!
SUPPORT. Laws of the maps and of the byte memory: a read after a write, and that every memory operation keeps the canonical form.
-/

namespace Sys2Proof.Machine

/-! ### Maps -/

theorem mfind_mput_same {α : Type} (m : SMap α) (k : Nat) (v : α) : mfind (mput m k v) k = some v := by
  induction m with
  | nil => simp [mput, mfind]
  | cons p m ih =>
    obtain ⟨k', v'⟩ := p
    simp only [mput]
    split
    · simp [mfind]
    · split
      · simp [mfind]
      · rename_i h _; simp [mfind, h, ih]

theorem mfind_mput_other {α : Type} (m : SMap α) (k j : Nat) (v : α) (h : j ≠ k) : mfind (mput m k v) j = mfind m j := by
  have hk : ¬ k = j := fun e => h e.symm
  induction m with
  | nil => simp [mput, mfind, hk]
  | cons p m ih =>
    obtain ⟨k', v'⟩ := p
    simp only [mput]
    split
    · rename_i e; subst e; simp [mfind, hk]
    · split
      · simp [mfind, hk]
      · simp only [mfind, ih]

@[simp] theorem mget_mput_same {α : Type} (m : SMap α) (k : Nat) (v d : α) : mget (mput m k v) k d = v := by
  simp [mget, mfind_mput_same]

theorem mget_mput_other {α : Type} (m : SMap α) (k j : Nat) (v d : α) (h : j ≠ k) : mget (mput m k v) j d = mget m j d := by
  simp [mget, mfind_mput_other m k j v h]

/-! ### Cells -/

theorem cellFind_cellPut_same (cs : List Host.Cell) (a : Nat) (v : Byte) : cellFind (cellPut cs a v) a = some v := by
  induction cs with
  | nil => simp [cellPut, cellFind]
  | cons p cs ih =>
    obtain ⟨a', v'⟩ := p
    simp only [cellPut]
    split
    · simp [cellFind]
    · split
      · simp [cellFind]
      · rename_i h _; simp [cellFind, h, ih]

theorem cellFind_cellPut_other (cs : List Host.Cell) (a b : Nat) (v : Byte) (h : b ≠ a) : cellFind (cellPut cs a v) b = cellFind cs b := by
  have hk : ¬ a = b := fun e => h e.symm
  induction cs with
  | nil => simp [cellPut, cellFind, hk]
  | cons p cs ih =>
    obtain ⟨a', v'⟩ := p
    simp only [cellPut]
    split
    · rename_i e; subst e; simp [cellFind, hk]
    · split
      · simp [cellFind, hk]
      · simp only [cellFind, ih]

theorem cellFind_cellDel_other (cs : List Host.Cell) (a b : Nat) (h : b ≠ a) : cellFind (cellDel cs a) b = cellFind cs b := by
  have hk : ¬ a = b := fun e => h e.symm
  induction cs with
  | nil => simp [cellDel, cellFind]
  | cons p cs ih =>
    obtain ⟨a', v'⟩ := p
    simp only [cellDel]
    split
    · rename_i e; subst e; simp [cellFind, hk]
    · simp only [cellFind, ih]

/-- Strictly rising cells whose first address is above `n`. -/
def risingFrom (n : Nat) (cs : List Host.Cell) : Prop := (∀ c ∈ cs, n < c.1) ∧ cs.Pairwise (fun a b => a.1 < b.1)

theorem cellsRising_iff (cs : List Host.Cell) : cellsRising cs = true ↔ cs.Pairwise (fun a b => a.1 < b.1) := by
  induction cs with
  | nil => simp [cellsRising]
  | cons p cs ih =>
    cases cs with
    | nil => simp [cellsRising]
    | cons q cs =>
      obtain ⟨a, x⟩ := p
      obtain ⟨b, y⟩ := q
      simp only [cellsRising, Bool.and_eq_true, decide_eq_true_eq, ih]
      constructor
      · rintro ⟨h1, h2⟩
        refine List.pairwise_cons.2 ⟨?_, h2⟩
        intro c hc
        rcases List.mem_cons.1 hc with rfl | hc
        · exact h1
        · exact Nat.lt_trans h1 ((List.pairwise_cons.1 h2).1 c hc)
      · intro h
        exact ⟨(List.pairwise_cons.1 h).1 (b, y) List.mem_cons_self, (List.pairwise_cons.1 h).2⟩

theorem mem_cellPut {cs : List Host.Cell} {a : Nat} {v : Byte} {c : Host.Cell} (h : c ∈ cellPut cs a v) : c = (a, v) ∨ c ∈ cs := by
  induction cs with
  | nil => simp [cellPut] at h; exact .inl h
  | cons p cs ih =>
    obtain ⟨a', v'⟩ := p
    simp only [cellPut] at h
    split at h
    · rcases List.mem_cons.1 h with h | h
      · exact .inl h
      · exact .inr (List.mem_cons_of_mem _ h)
    · split at h
      · rcases List.mem_cons.1 h with h | h
        · exact .inl h
        · exact .inr h
      · rcases List.mem_cons.1 h with h | h
        · exact .inr (h ▸ List.mem_cons_self)
        · rcases ih h with h | h
          · exact .inl h
          · exact .inr (List.mem_cons_of_mem _ h)

theorem cellPut_rising {cs : List Host.Cell} (a : Nat) (v : Byte) (h : cs.Pairwise (fun a b => a.1 < b.1)) :
    (cellPut cs a v).Pairwise (fun a b => a.1 < b.1) := by
  induction cs with
  | nil => simp [cellPut]
  | cons p cs ih =>
    obtain ⟨a', v'⟩ := p
    obtain ⟨h1, h2⟩ := List.pairwise_cons.1 h
    simp only [cellPut]
    split
    · rename_i e; subst e
      exact List.pairwise_cons.2 ⟨h1, h2⟩
    · split
      · rename_i hlt
        refine List.pairwise_cons.2 ⟨?_, h⟩
        intro c hc
        rcases List.mem_cons.1 hc with rfl | hc
        · exact hlt
        · exact Nat.lt_trans hlt (h1 c hc)
      · refine List.pairwise_cons.2 ⟨?_, ih h2⟩
        intro c hc
        rcases mem_cellPut hc with rfl | hc
        · simp only; omega
        · exact h1 c hc

theorem cellDel_sub (cs : List Host.Cell) (a : Nat) : (cellDel cs a).Sublist cs := by
  induction cs with
  | nil => simp [cellDel]
  | cons p cs ih =>
    obtain ⟨a', v'⟩ := p
    simp only [cellDel]
    split
    · exact List.sublist_cons_self _ _
    · exact ih.cons_cons _

/-! ### The canonical form -/

theorem Mem.wf_iff (m : Mem) : m.wf = true ↔ m.cells.Pairwise (fun a b => a.1 < b.1) ∧
    ∀ c ∈ m.cells, c.2 ≠ 0 ∨ (overlayOf m.undef c.1).isSome = true := by
  simp only [Mem.wf, Bool.and_eq_true, cellsRising_iff, List.all_eq_true]
  constructor
  · rintro ⟨h1, h2⟩
    refine ⟨h1, fun c hc => ?_⟩
    have := h2 c hc
    simp only [Bool.or_eq_true, Bool.not_eq_true', beq_eq_false_iff_ne] at this
    exact this
  · rintro ⟨h1, h2⟩
    refine ⟨h1, fun c hc => ?_⟩
    simp only [Bool.or_eq_true, Bool.not_eq_true', beq_eq_false_iff_ne]
    exact h2 c hc

theorem Mem.write_wf (m : Mem) (a : Nat) (v : Byte) (h : m.wf = true) : (m.write a v).wf = true := by
  rw [Mem.wf_iff] at h ⊢
  obtain ⟨h1, h2⟩ := h
  unfold Mem.write
  split
  · refine ⟨h1.sublist (cellDel_sub _ _), fun c hc => h2 c ((cellDel_sub _ _).subset hc)⟩
  · rename_i hn
    refine ⟨cellPut_rising a v h1, fun c hc => ?_⟩
    rcases mem_cellPut hc with rfl | hc
    · by_cases hv : v = 0
      · right
        cases ho : overlayOf m.undef a with
        | none => exact absurd ⟨hv, ho⟩ hn
        | some o => simp
      · exact .inl hv
    · exact h2 c hc

theorem Mem.writes_wf (bs : List Byte) (m : Mem) (a : Nat) (h : m.wf = true) : (m.writes a bs).wf = true := by
  induction bs generalizing m a with
  | nil => exact h
  | cons b bs ih => exact ih _ _ (m.write_wf a b h)

theorem overlayOf_isSome (os : List Overlay) (a : Nat) : (overlayOf os a).isSome = true ↔ ∃ o ∈ os, o.covers a = true := by
  simp [overlayOf, List.find?_isSome]

theorem Overlay.covers_iff (o : Overlay) (a : Nat) : o.covers a = true ↔ o.base ≤ a ∧ a < o.base + o.len := by
  simp [Overlay.covers]

theorem Mem.scramble_wf (m : Mem) (b n s : Nat) (h : m.wf = true) : (m.scramble b n s).wf = true := by
  rw [Mem.wf_iff] at h ⊢
  obtain ⟨h1, h2⟩ := h
  refine ⟨h1.sublist List.filter_sublist, fun c hc => ?_⟩
  obtain ⟨hc, hout⟩ := List.mem_filter.1 hc
  rcases h2 c hc with h | h
  · exact .inl h
  · right
    rw [overlayOf_isSome] at h ⊢
    obtain ⟨o, ho, hcov⟩ := h
    refine ⟨o, List.mem_cons_of_mem _ (List.mem_filter.2 ⟨ho, ?_⟩), hcov⟩
    rw [Overlay.covers_iff] at hcov
    simp only [Bool.not_eq_true', Bool.and_eq_false_iff, decide_eq_false_iff_not] at hout ⊢
    omega

theorem Mem.clear_wf (m : Mem) (b n : Nat) (h : m.wf = true) : (m.clear b n).wf = true := by
  rw [Mem.wf_iff] at h ⊢
  obtain ⟨h1, h2⟩ := h
  refine ⟨h1.sublist List.filter_sublist, fun c hc => ?_⟩
  obtain ⟨hc, hout⟩ := List.mem_filter.1 hc
  rcases h2 c hc with h | h
  · exact .inl h
  · right
    rw [overlayOf_isSome] at h ⊢
    obtain ⟨o, ho, hcov⟩ := h
    rw [Overlay.covers_iff] at hcov
    simp only [Bool.not_eq_true', Bool.and_eq_false_iff, decide_eq_false_iff_not] at hout
    simp only [Mem.clear, List.mem_flatMap]
    by_cases hlo : c.1 < b
    · refine ⟨(⟨o.base, min (o.base + o.len) b - o.base, o.seed⟩ : Overlay), ⟨o, ho, ?_⟩, ?_⟩
      · have h1 : o.base < b := by omega
        simp [Overlay.outside, h1]
      · rw [Overlay.covers_iff]; simp only; omega
    · refine ⟨(⟨max o.base (b + n), (o.base + o.len) - max o.base (b + n), o.seed⟩ : Overlay), ⟨o, ho, ?_⟩, ?_⟩
      · have h1 : b + n < o.base + o.len := by omega
        simp [Overlay.outside, h1]
      · rw [Overlay.covers_iff]; simp only; omega

theorem Mem.graft_wf (m : Mem) (b n : Nat) (sub : Mem) (h : m.wf = true) : (m.graft b n sub).wf = true := by
  unfold Mem.graft
  have h0 : ∀ (l : List Overlay) (m : Mem), m.wf = true → (l.foldl (fun m o => m.scramble o.base o.len o.seed) m).wf = true := by
    intro l
    induction l with
    | nil => exact fun m h => h
    | cons o l ih => exact fun m h => ih _ (m.scramble_wf _ _ _ h)
  have h1 : ∀ (l : List Host.Cell) (m : Mem), m.wf = true → (l.foldl (fun m c => m.write c.1 c.2) m).wf = true := by
    intro l
    induction l with
    | nil => exact fun m h => h
    | cons c l ih => exact fun m h => ih _ (m.write_wf _ _ h)
  exact h1 _ _ (h0 _ _ (m.clear_wf b n h))

/-! ### Read after write -/

theorem Mem.read_write_same (m : Mem) (a : Nat) (v : Byte) (h : m.wf = true) : (m.write a v).read a = v := by
  unfold Mem.write
  split
  · rename_i hz
    obtain ⟨hv, ho⟩ := hz
    have hd : ∀ cs : List Host.Cell, cs.Pairwise (fun a b => a.1 < b.1) → cellFind (cellDel cs a) a = none := by
      intro cs
      induction cs with
      | nil => intro _; simp [cellDel, cellFind]
      | cons p cs ih =>
        obtain ⟨a', v'⟩ := p
        intro hp
        obtain ⟨h1, h2⟩ := List.pairwise_cons.1 hp
        simp only [cellDel]
        split
        · rename_i e
          subst e
          have : ∀ l : List Host.Cell, (∀ c ∈ l, a' < c.1) → cellFind l a' = none := by
            intro l
            induction l with
            | nil => intro _; rfl
            | cons q l ih2 =>
              intro hl
              have hq := hl q List.mem_cons_self
              have : ¬ q.1 = a' := by omega
              obtain ⟨x, y⟩ := q
              simp only [cellFind]
              rw [if_neg this]
              exact ih2 (fun c hc => hl c (List.mem_cons_of_mem _ hc))
          exact this cs (fun c hc => h1 c hc)
        · rename_i hne
          simp [cellFind, hne, ih h2]
    rw [Mem.wf_iff] at h
    simp [Mem.read, hd m.cells h.1, Mem.blank, ho, hv]
  · simp [Mem.read, cellFind_cellPut_same]

theorem Mem.read_write_other (m : Mem) (a b : Nat) (v : Byte) (h : b ≠ a) : (m.write a v).read b = m.read b := by
  unfold Mem.write
  split
  · simp [Mem.read, cellFind_cellDel_other m.cells a b h, Mem.blank]
  · simp [Mem.read, cellFind_cellPut_other m.cells a b v h, Mem.blank]

theorem Mem.read_writes_other (bs : List Byte) (m : Mem) (a b : Nat) (h : b < a ∨ a + bs.length ≤ b) : (m.writes a bs).read b = m.read b := by
  induction bs generalizing m a with
  | nil => rfl
  | cons x bs ih =>
    simp only [List.length_cons] at h
    rw [Mem.writes, ih _ _ (by omega), Mem.read_write_other _ _ _ _ (by omega)]

end Sys2Proof.Machine
end

