-- ==== Sys2Proof/Laws/Keeps.lean ====
section
/-!
SUPPORT. What an operation of the machine keeps: the queue, the canonical form of memory, what the metering island and the fuses have
recorded, and, where a flag says so, the claim. One lemma for each shared operation follows in `Laws/Ops.lean`.
-/

namespace Sys2Proof.Machine

/-- The island's counts only rise, and its seal stays. -/
structure MetLe (a b : MetSt) : Prop where
  sealed : a.sealed = true → b.sealed = true
  total : a.total ≤ b.total
  exported : a.exported ≤ b.exported
  recordNo : a.recordNo ≤ b.recordNo
  leaves : a.leaves ≤ b.leaves
  refusals : a.refusals ≤ b.refusals
  powerUps : a.powerUps ≤ b.powerUps

/-- Fuses are blown and never mended, and only those of the security version and of revocation are blown. -/
structure FuseLe (a b : Fuses) : Prop where
  same : { b with secFused := a.secFused, revoked := a.revoked } = a
  sec : a.secFused ≤ b.secFused
  revoked : a.revoked &&& b.revoked = a.revoked

/-- `s` keeps what `a` had; with `c`, its claim too. -/
structure Keeps (c : Bool) (a s : State) : Prop where
  pending : s.pending = a.pending
  mem : a.mem.wf = true → s.mem.wf = true
  met : MetLe a.met s.met
  fuses : FuseLe a.fuses s.fuses
  claim : c = true → s.claim.claimed = a.claim.claimed ∧ s.claim.key = a.claim.key

theorem MetLe.refl (a : MetSt) : MetLe a a :=
  ⟨id, Nat.le_refl _, Nat.le_refl _, Nat.le_refl _, Nat.le_refl _, Nat.le_refl _, Nat.le_refl _⟩

theorem MetLe.trans {a b c : MetSt} (h : MetLe a b) (g : MetLe b c) : MetLe a c :=
  ⟨fun x => g.sealed (h.sealed x), Nat.le_trans h.total g.total, Nat.le_trans h.exported g.exported,
    Nat.le_trans h.recordNo g.recordNo, Nat.le_trans h.leaves g.leaves, Nat.le_trans h.refusals g.refusals,
    Nat.le_trans h.powerUps g.powerUps⟩

theorem FuseLe.refl (a : Fuses) : FuseLe a a := ⟨rfl, Nat.le_refl _, Nat.and_self _⟩

theorem FuseLe.trans {a b c : Fuses} (h : FuseLe a b) (g : FuseLe b c) : FuseLe a c := by
  refine ⟨?_, Nat.le_trans h.sec g.sec, ?_⟩
  · have h1 := h.same
    rw [← g.same] at h1
    exact h1
  · calc a.revoked &&& c.revoked = (a.revoked &&& b.revoked) &&& c.revoked := by rw [h.revoked]
      _ = a.revoked &&& (b.revoked &&& c.revoked) := Nat.and_assoc _ _ _
      _ = a.revoked := by rw [g.revoked, h.revoked]

theorem Keeps.refl (c : Bool) (a : State) : Keeps c a a := ⟨rfl, id, MetLe.refl _, FuseLe.refl _, fun _ => ⟨rfl, rfl⟩⟩

theorem Keeps.trans {c : Bool} {a s t : State} (h : Keeps c a s) (g : Keeps c s t) : Keeps c a t :=
  ⟨g.pending.trans h.pending, fun x => g.mem (h.mem x), h.met.trans g.met, h.fuses.trans g.fuses,
    fun x => ⟨(g.claim x).1.trans (h.claim x).1, (g.claim x).2.trans (h.claim x).2⟩⟩

/-- An update of other fields. -/
theorem Keeps.upd {c : Bool} {a s t : State} (h : Keeps c a s) (e1 : t.pending = s.pending) (e2 : t.mem = s.mem) (e3 : t.met = s.met)
    (e4 : t.fuses = s.fuses) (e5 : c = true → t.claim.claimed = s.claim.claimed ∧ t.claim.key = s.claim.key) : Keeps c a t :=
  h.trans ⟨e1, fun x => e2 ▸ x, e3 ▸ MetLe.refl _, e4 ▸ FuseLe.refl _, e5⟩

/-- An update of the memory that keeps its form. -/
theorem Keeps.updMem {c : Bool} {a s t : State} (h : Keeps c a s) (e1 : t.pending = s.pending) (e2 : s.mem.wf = true → t.mem.wf = true)
    (e3 : t.met = s.met) (e4 : t.fuses = s.fuses) (e5 : t.claim = s.claim) : Keeps c a t :=
  h.trans ⟨e1, e2, e3 ▸ MetLe.refl _, e4 ▸ FuseLe.refl _, fun _ => by rw [e5]; exact ⟨rfl, rfl⟩⟩

theorem keeps_ite {c : Bool} {a s t : State} {p : Prop} [Decidable p] (h : Keeps c a s) (g : Keeps c a t) : Keeps c a (if p then s else t) := by
  split <;> assumption

/-- A command's outcome keeps it. -/
structure KeepsO (c : Bool) (a : State) (o : Out) : Prop where
  next : ∀ t, o = .next t → Keeps c a t

theorem keepsO_ok {c : Bool} {a s : State} (h : Keeps c a s) : KeepsO c a (ok s) := by
  refine ⟨fun t e => ?_⟩
  cases e
  exact h

theorem keepsO_ite {c : Bool} {a : State} {s t : Out} {p : Prop} [Decidable p] (h : KeepsO c a s) (g : KeepsO c a t) :
    KeepsO c a (if p then s else t) := by
  split <;> assumption

/-- A fold keeps what its step keeps. -/
theorem keeps_foldl {α : Type} {c : Bool} {a : State} (f : State → α → State) (hf : ∀ s x, Keeps c a s → Keeps c a (f s x)) (l : List α) :
    ∀ s, Keeps c a s → Keeps c a (l.foldl f s) := by
  induction l with
  | nil => exact fun s h => h
  | cons x l ih => exact fun s h => ih _ (hf s x h)

theorem keeps_each {α : Type} {c : Bool} {a s : State} {l : List α} {f : State → α → State} (h : Keeps c a s)
    (hf : ∀ s x, Keeps c a s → Keeps c a (f s x)) : Keeps c a (s.each l f) := keeps_foldl f hf l s h

end Sys2Proof.Machine
end

