-- ==== Sys2Proof/Laws/State.lean ====
section
/-!
SUPPORT. What each update of the state leaves: one lemma for each field, and the reads of what was written.
-/

namespace Sys2Proof.Machine

variable (s : State)

/-! ### Register fields -/

/-- A field read after a write of a field: the written value at the same place, the old one elsewhere. -/
theorem State.rg_rs (u v d d' x : Nat) (f g : Fld) :
    (s.rs u f x d).rg v g d' = if regKey v g d' = regKey u f d then x % 2 ^ f.w else s.rg v g d' := by
  unfold State.rs State.rg
  split
  · next h => simp only [h, mget_mput_same]
  · next h => exact mget_mput_other _ _ _ _ _ h

@[simp] theorem State.rg_rs_same (u x d : Nat) (f : Fld) : (s.rs u f x d).rg u f d = x % 2 ^ f.w := by simp [State.rg_rs]

theorem State.rg_rs_other (u v d d' x : Nat) (f g : Fld) (h : regKey v g d' ≠ regKey u f d) : (s.rs u f x d).rg v g d' = s.rg v g d' := by
  simp [State.rg_rs, h]

/-- Two fields of a unit share a place where their offset and lowest bit agree. -/
theorem regKey_same (u d : Nat) (f g : Fld) : (regKey u f d = regKey u g d) ↔ (f.off * 64 + f.lo = g.off * 64 + g.lo) := by
  unfold regKey; omega

theorem State.rg_rs_field (u d x : Nat) (f g : Fld) (h : ¬ (g.off * 64 + g.lo = f.off * 64 + f.lo)) :
    (s.rs u f x d).rg u g d = s.rg u g d := by
  apply State.rg_rs_other; rw [Ne, regKey_same]; exact h

/-! ### Records by number -/

@[simp] theorem State.eng_setEng_same (k : Nat) (x : Eng) : (s.setEng k x).eng k = x := by simp [State.eng, State.setEng]
theorem State.eng_setEng_other (k j : Nat) (x : Eng) (h : j ≠ k) : (s.setEng k x).eng j = s.eng j := by simp [State.eng, State.setEng, mget_mput_other, h]
@[simp] theorem State.core_setCore_same (k : Nat) (x : CoreSt) : (s.setCore k x).core k = x := by simp [State.core, State.setCore]
theorem State.core_setCore_other (k j : Nat) (x : CoreSt) (h : j ≠ k) : (s.setCore k x).core j = s.core j := by simp [State.core, State.setCore, mget_mput_other, h]
@[simp] theorem State.hub_setHub_same (k : Nat) (x : Hub) : (s.setHub k x).hub k = x := by simp [State.hub, State.setHub]
theorem State.hub_setHub_other (k j : Nat) (x : Hub) (h : j ≠ k) : (s.setHub k x).hub j = s.hub j := by simp [State.hub, State.setHub, mget_mput_other, h]
@[simp] theorem State.ctx_setCtx_same (k : Nat) (x : Ctx) : (s.setCtx k x).ctx k = x := by simp [State.ctx, State.setCtx]
theorem State.ctx_setCtx_other (k j : Nat) (x : Ctx) (h : j ≠ k) : (s.setCtx k x).ctx j = s.ctx j := by simp [State.ctx, State.setCtx, mget_mput_other, h]
@[simp] theorem State.seq_setSeq_same (k : Nat) (x : SeqSt) : (s.setSeq k x).seq k = x := by simp [State.seq, State.setSeq]
theorem State.seq_setSeq_other (k j : Nat) (x : SeqSt) (h : j ≠ k) : (s.setSeq k x).seq j = s.seq j := by simp [State.seq, State.setSeq, mget_mput_other, h]
@[simp] theorem State.link_setLink_same (k : Nat) (x : Lnk) : (s.setLink k x).link k = x := by simp [State.link, State.setLink]
theorem State.link_setLink_other (k j : Nat) (x : Lnk) (h : j ≠ k) : (s.setLink k x).link j = s.link j := by simp [State.link, State.setLink, mget_mput_other, h]
@[simp] theorem State.hpt_setHpt_same (k : Nat) (x : HptSt) : (s.setHpt k x).hpt k = x := by simp [State.hpt, State.setHpt]
theorem State.hpt_setHpt_other (k j : Nat) (x : HptSt) (h : j ≠ k) : (s.setHpt k x).hpt j = s.hpt j := by simp [State.hpt, State.setHpt, mget_mput_other, h]
@[simp] theorem State.opt_setOpt_same (k : Nat) (x : OptSt) : (s.setOpt k x).opt k = x := by simp [State.opt, State.setOpt]
theorem State.opt_setOpt_other (k j : Nat) (x : OptSt) (h : j ≠ k) : (s.setOpt k x).opt j = s.opt j := by simp [State.opt, State.setOpt, mget_mput_other, h]
@[simp] theorem State.die_setDie_same (k : Nat) (x : DiePwr) : (s.setDie k x).die k = x := by simp [State.die, State.setDie]
theorem State.die_setDie_other (k j : Nat) (x : DiePwr) (h : j ≠ k) : (s.setDie k x).die j = s.die j := by simp [State.die, State.setDie, mget_mput_other, h]
@[simp] theorem State.sens_setSens_same (k : Nat) (x : Sensors) : (s.setSens k x).sens k = x := by simp [State.sens, State.setSens]
theorem State.sens_setSens_other (k j : Nat) (x : Sensors) (h : j ≠ k) : (s.setSens k x).sens j = s.sens j := by simp [State.sens, State.setSens, mget_mput_other, h]

/-! ### One lemma for each update and field -/

@[simp] theorem State.pending_rs (u : Nat) (f : Fld) (v d : Nat) : (s.rs u f v d).pending = s.pending := rfl
@[simp] theorem State.later_rs (u : Nat) (f : Fld) (v d : Nat) : (s.rs u f v d).later = s.later := rfl
@[simp] theorem State.tick_rs (u : Nat) (f : Fld) (v d : Nat) : (s.rs u f v d).tick = s.tick := rfl
@[simp] theorem State.freeCtr_rs (u : Nat) (f : Fld) (v d : Nat) : (s.rs u f v d).freeCtr = s.freeCtr := rfl
@[simp] theorem State.answers_rs (u : Nat) (f : Fld) (v d : Nat) : (s.rs u f v d).answers = s.answers := rfl
@[simp] theorem State.mem_rs (u : Nat) (f : Fld) (v d : Nat) : (s.rs u f v d).mem = s.mem := rfl
@[simp] theorem State.ev_rs (u : Nat) (f : Fld) (v d : Nat) : (s.rs u f v d).ev = s.ev := rfl
@[simp] theorem State.downAt_rs (u : Nat) (f : Fld) (v d : Nat) : (s.rs u f v d).downAt = s.downAt := rfl
@[simp] theorem State.cores_rs (u : Nat) (f : Fld) (v d : Nat) : (s.rs u f v d).cores = s.cores := rfl
@[simp] theorem State.engs_rs (u : Nat) (f : Fld) (v d : Nat) : (s.rs u f v d).engs = s.engs := rfl
@[simp] theorem State.hubs_rs (u : Nat) (f : Fld) (v d : Nat) : (s.rs u f v d).hubs = s.hubs := rfl
@[simp] theorem State.ctxs_rs (u : Nat) (f : Fld) (v d : Nat) : (s.rs u f v d).ctxs = s.ctxs := rfl
@[simp] theorem State.admits_rs (u : Nat) (f : Fld) (v d : Nat) : (s.rs u f v d).admits = s.admits := rfl
@[simp] theorem State.seqs_rs (u : Nat) (f : Fld) (v d : Nat) : (s.rs u f v d).seqs = s.seqs := rfl
@[simp] theorem State.lease_rs (u : Nat) (f : Fld) (v d : Nat) : (s.rs u f v d).lease = s.lease := rfl
@[simp] theorem State.tlbHeld_rs (u : Nat) (f : Fld) (v d : Nat) : (s.rs u f v d).tlbHeld = s.tlbHeld := rfl
@[simp] theorem State.tlbCur_rs (u : Nat) (f : Fld) (v d : Nat) : (s.rs u f v d).tlbCur = s.tlbCur := rfl
@[simp] theorem State.hbm_rs (u : Nat) (f : Fld) (v d : Nat) : (s.rs u f v d).hbm = s.hbm := rfl
@[simp] theorem State.caches_rs (u : Nat) (f : Fld) (v d : Nat) : (s.rs u f v d).caches = s.caches := rfl
@[simp] theorem State.cacheReq_rs (u : Nat) (f : Fld) (v d : Nat) : (s.rs u f v d).cacheReq = s.cacheReq := rfl
@[simp] theorem State.fuses_rs (u : Nat) (f : Fld) (v d : Nat) : (s.rs u f v d).fuses = s.fuses := rfl
@[simp] theorem State.light_rs (u : Nat) (f : Fld) (v d : Nat) : (s.rs u f v d).light = s.light := rfl
@[simp] theorem State.linkTx_rs (u : Nat) (f : Fld) (v d : Nat) : (s.rs u f v d).linkTx = s.linkTx := rfl
@[simp] theorem State.net_rs (u : Nat) (f : Fld) (v d : Nat) : (s.rs u f v d).net = s.net := rfl
@[simp] theorem State.links_rs (u : Nat) (f : Fld) (v d : Nat) : (s.rs u f v d).links = s.links := rfl
@[simp] theorem State.claim_rs (u : Nat) (f : Fld) (v d : Nat) : (s.rs u f v d).claim = s.claim := rfl
@[simp] theorem State.mrs_rs (u : Nat) (f : Fld) (v d : Nat) : (s.rs u f v d).mrs = s.mrs := rfl
@[simp] theorem State.qps_rs (u : Nat) (f : Fld) (v d : Nat) : (s.rs u f v d).qps = s.qps := rfl
@[simp] theorem State.frames_rs (u : Nat) (f : Fld) (v d : Nat) : (s.rs u f v d).frames = s.frames := rfl
@[simp] theorem State.ports_rs (u : Nat) (f : Fld) (v d : Nat) : (s.rs u f v d).ports = s.ports := rfl
@[simp] theorem State.opts_rs (u : Nat) (f : Fld) (v d : Nat) : (s.rs u f v d).opts = s.opts := rfl
@[simp] theorem State.waves_rs (u : Nat) (f : Fld) (v d : Nat) : (s.rs u f v d).waves = s.waves := rfl
@[simp] theorem State.d2d_rs (u : Nat) (f : Fld) (v d : Nat) : (s.rs u f v d).d2d = s.d2d := rfl
@[simp] theorem State.pwr_rs (u : Nat) (f : Fld) (v d : Nat) : (s.rs u f v d).pwr = s.pwr := rfl
@[simp] theorem State.dies_rs (u : Nat) (f : Fld) (v d : Nat) : (s.rs u f v d).dies = s.dies := rfl
@[simp] theorem State.sensors_rs (u : Nat) (f : Fld) (v d : Nat) : (s.rs u f v d).sensors = s.sensors := rfl
@[simp] theorem State.energy_rs (u : Nat) (f : Fld) (v d : Nat) : (s.rs u f v d).energy = s.energy := rfl
@[simp] theorem State.serving_rs (u : Nat) (f : Fld) (v d : Nat) : (s.rs u f v d).serving = s.serving := rfl
@[simp] theorem State.boot_rs (u : Nat) (f : Fld) (v d : Nat) : (s.rs u f v d).boot = s.boot := rfl
@[simp] theorem State.testing_rs (u : Nat) (f : Fld) (v d : Nat) : (s.rs u f v d).testing = s.testing := rfl
@[simp] theorem State.missed_rs (u : Nat) (f : Fld) (v d : Nat) : (s.rs u f v d).missed = s.missed := rfl
@[simp] theorem State.shuts_rs (u : Nat) (f : Fld) (v d : Nat) : (s.rs u f v d).shuts = s.shuts := rfl
@[simp] theorem State.shutNo_rs (u : Nat) (f : Fld) (v d : Nat) : (s.rs u f v d).shutNo = s.shutNo := rfl
@[simp] theorem State.d2dSent_rs (u : Nat) (f : Fld) (v d : Nat) : (s.rs u f v d).d2dSent = s.d2dSent := rfl
@[simp] theorem State.planReady_rs (u : Nat) (f : Fld) (v d : Nat) : (s.rs u f v d).planReady = s.planReady := rfl
@[simp] theorem State.lateAborts_rs (u : Nat) (f : Fld) (v d : Nat) : (s.rs u f v d).lateAborts = s.lateAborts := rfl
@[simp] theorem State.lateStops_rs (u : Nat) (f : Fld) (v d : Nat) : (s.rs u f v d).lateStops = s.lateStops := rfl
@[simp] theorem State.met_rs (u : Nat) (f : Fld) (v d : Nat) : (s.rs u f v d).met = s.met := rfl
@[simp] theorem State.mirror_rs (u : Nat) (f : Fld) (v d : Nat) : (s.rs u f v d).mirror = s.mirror := rfl
@[simp] theorem State.mgmt_rs (u : Nat) (f : Fld) (v d : Nat) : (s.rs u f v d).mgmt = s.mgmt := rfl
@[simp] theorem State.ecpOut_rs (u : Nat) (f : Fld) (v d : Nat) : (s.rs u f v d).ecpOut = s.ecpOut := rfl

@[simp] theorem State.pending_rinc (u : Nat) (f : Fld) (n d : Nat) : (s.rinc u f n d).pending = s.pending := rfl
@[simp] theorem State.later_rinc (u : Nat) (f : Fld) (n d : Nat) : (s.rinc u f n d).later = s.later := rfl
@[simp] theorem State.tick_rinc (u : Nat) (f : Fld) (n d : Nat) : (s.rinc u f n d).tick = s.tick := rfl
@[simp] theorem State.freeCtr_rinc (u : Nat) (f : Fld) (n d : Nat) : (s.rinc u f n d).freeCtr = s.freeCtr := rfl
@[simp] theorem State.answers_rinc (u : Nat) (f : Fld) (n d : Nat) : (s.rinc u f n d).answers = s.answers := rfl
@[simp] theorem State.mem_rinc (u : Nat) (f : Fld) (n d : Nat) : (s.rinc u f n d).mem = s.mem := rfl
@[simp] theorem State.ev_rinc (u : Nat) (f : Fld) (n d : Nat) : (s.rinc u f n d).ev = s.ev := rfl
@[simp] theorem State.downAt_rinc (u : Nat) (f : Fld) (n d : Nat) : (s.rinc u f n d).downAt = s.downAt := rfl
@[simp] theorem State.cores_rinc (u : Nat) (f : Fld) (n d : Nat) : (s.rinc u f n d).cores = s.cores := rfl
@[simp] theorem State.engs_rinc (u : Nat) (f : Fld) (n d : Nat) : (s.rinc u f n d).engs = s.engs := rfl
@[simp] theorem State.hubs_rinc (u : Nat) (f : Fld) (n d : Nat) : (s.rinc u f n d).hubs = s.hubs := rfl
@[simp] theorem State.ctxs_rinc (u : Nat) (f : Fld) (n d : Nat) : (s.rinc u f n d).ctxs = s.ctxs := rfl
@[simp] theorem State.admits_rinc (u : Nat) (f : Fld) (n d : Nat) : (s.rinc u f n d).admits = s.admits := rfl
@[simp] theorem State.seqs_rinc (u : Nat) (f : Fld) (n d : Nat) : (s.rinc u f n d).seqs = s.seqs := rfl
@[simp] theorem State.lease_rinc (u : Nat) (f : Fld) (n d : Nat) : (s.rinc u f n d).lease = s.lease := rfl
@[simp] theorem State.tlbHeld_rinc (u : Nat) (f : Fld) (n d : Nat) : (s.rinc u f n d).tlbHeld = s.tlbHeld := rfl
@[simp] theorem State.tlbCur_rinc (u : Nat) (f : Fld) (n d : Nat) : (s.rinc u f n d).tlbCur = s.tlbCur := rfl
@[simp] theorem State.hbm_rinc (u : Nat) (f : Fld) (n d : Nat) : (s.rinc u f n d).hbm = s.hbm := rfl
@[simp] theorem State.caches_rinc (u : Nat) (f : Fld) (n d : Nat) : (s.rinc u f n d).caches = s.caches := rfl
@[simp] theorem State.cacheReq_rinc (u : Nat) (f : Fld) (n d : Nat) : (s.rinc u f n d).cacheReq = s.cacheReq := rfl
@[simp] theorem State.fuses_rinc (u : Nat) (f : Fld) (n d : Nat) : (s.rinc u f n d).fuses = s.fuses := rfl
@[simp] theorem State.light_rinc (u : Nat) (f : Fld) (n d : Nat) : (s.rinc u f n d).light = s.light := rfl
@[simp] theorem State.linkTx_rinc (u : Nat) (f : Fld) (n d : Nat) : (s.rinc u f n d).linkTx = s.linkTx := rfl
@[simp] theorem State.net_rinc (u : Nat) (f : Fld) (n d : Nat) : (s.rinc u f n d).net = s.net := rfl
@[simp] theorem State.links_rinc (u : Nat) (f : Fld) (n d : Nat) : (s.rinc u f n d).links = s.links := rfl
@[simp] theorem State.claim_rinc (u : Nat) (f : Fld) (n d : Nat) : (s.rinc u f n d).claim = s.claim := rfl
@[simp] theorem State.mrs_rinc (u : Nat) (f : Fld) (n d : Nat) : (s.rinc u f n d).mrs = s.mrs := rfl
@[simp] theorem State.qps_rinc (u : Nat) (f : Fld) (n d : Nat) : (s.rinc u f n d).qps = s.qps := rfl
@[simp] theorem State.frames_rinc (u : Nat) (f : Fld) (n d : Nat) : (s.rinc u f n d).frames = s.frames := rfl
@[simp] theorem State.ports_rinc (u : Nat) (f : Fld) (n d : Nat) : (s.rinc u f n d).ports = s.ports := rfl
@[simp] theorem State.opts_rinc (u : Nat) (f : Fld) (n d : Nat) : (s.rinc u f n d).opts = s.opts := rfl
@[simp] theorem State.waves_rinc (u : Nat) (f : Fld) (n d : Nat) : (s.rinc u f n d).waves = s.waves := rfl
@[simp] theorem State.d2d_rinc (u : Nat) (f : Fld) (n d : Nat) : (s.rinc u f n d).d2d = s.d2d := rfl
@[simp] theorem State.pwr_rinc (u : Nat) (f : Fld) (n d : Nat) : (s.rinc u f n d).pwr = s.pwr := rfl
@[simp] theorem State.dies_rinc (u : Nat) (f : Fld) (n d : Nat) : (s.rinc u f n d).dies = s.dies := rfl
@[simp] theorem State.sensors_rinc (u : Nat) (f : Fld) (n d : Nat) : (s.rinc u f n d).sensors = s.sensors := rfl
@[simp] theorem State.energy_rinc (u : Nat) (f : Fld) (n d : Nat) : (s.rinc u f n d).energy = s.energy := rfl
@[simp] theorem State.serving_rinc (u : Nat) (f : Fld) (n d : Nat) : (s.rinc u f n d).serving = s.serving := rfl
@[simp] theorem State.boot_rinc (u : Nat) (f : Fld) (n d : Nat) : (s.rinc u f n d).boot = s.boot := rfl
@[simp] theorem State.testing_rinc (u : Nat) (f : Fld) (n d : Nat) : (s.rinc u f n d).testing = s.testing := rfl
@[simp] theorem State.missed_rinc (u : Nat) (f : Fld) (n d : Nat) : (s.rinc u f n d).missed = s.missed := rfl
@[simp] theorem State.shuts_rinc (u : Nat) (f : Fld) (n d : Nat) : (s.rinc u f n d).shuts = s.shuts := rfl
@[simp] theorem State.shutNo_rinc (u : Nat) (f : Fld) (n d : Nat) : (s.rinc u f n d).shutNo = s.shutNo := rfl
@[simp] theorem State.d2dSent_rinc (u : Nat) (f : Fld) (n d : Nat) : (s.rinc u f n d).d2dSent = s.d2dSent := rfl
@[simp] theorem State.planReady_rinc (u : Nat) (f : Fld) (n d : Nat) : (s.rinc u f n d).planReady = s.planReady := rfl
@[simp] theorem State.lateAborts_rinc (u : Nat) (f : Fld) (n d : Nat) : (s.rinc u f n d).lateAborts = s.lateAborts := rfl
@[simp] theorem State.lateStops_rinc (u : Nat) (f : Fld) (n d : Nat) : (s.rinc u f n d).lateStops = s.lateStops := rfl
@[simp] theorem State.met_rinc (u : Nat) (f : Fld) (n d : Nat) : (s.rinc u f n d).met = s.met := rfl
@[simp] theorem State.mirror_rinc (u : Nat) (f : Fld) (n d : Nat) : (s.rinc u f n d).mirror = s.mirror := rfl
@[simp] theorem State.mgmt_rinc (u : Nat) (f : Fld) (n d : Nat) : (s.rinc u f n d).mgmt = s.mgmt := rfl
@[simp] theorem State.ecpOut_rinc (u : Nat) (f : Fld) (n d : Nat) : (s.rinc u f n d).ecpOut = s.ecpOut := rfl

@[simp] theorem State.pending_radd (u : Nat) (f : Fld) (n d : Nat) : (s.radd u f n d).pending = s.pending := rfl
@[simp] theorem State.later_radd (u : Nat) (f : Fld) (n d : Nat) : (s.radd u f n d).later = s.later := rfl
@[simp] theorem State.tick_radd (u : Nat) (f : Fld) (n d : Nat) : (s.radd u f n d).tick = s.tick := rfl
@[simp] theorem State.freeCtr_radd (u : Nat) (f : Fld) (n d : Nat) : (s.radd u f n d).freeCtr = s.freeCtr := rfl
@[simp] theorem State.answers_radd (u : Nat) (f : Fld) (n d : Nat) : (s.radd u f n d).answers = s.answers := rfl
@[simp] theorem State.mem_radd (u : Nat) (f : Fld) (n d : Nat) : (s.radd u f n d).mem = s.mem := rfl
@[simp] theorem State.ev_radd (u : Nat) (f : Fld) (n d : Nat) : (s.radd u f n d).ev = s.ev := rfl
@[simp] theorem State.downAt_radd (u : Nat) (f : Fld) (n d : Nat) : (s.radd u f n d).downAt = s.downAt := rfl
@[simp] theorem State.cores_radd (u : Nat) (f : Fld) (n d : Nat) : (s.radd u f n d).cores = s.cores := rfl
@[simp] theorem State.engs_radd (u : Nat) (f : Fld) (n d : Nat) : (s.radd u f n d).engs = s.engs := rfl
@[simp] theorem State.hubs_radd (u : Nat) (f : Fld) (n d : Nat) : (s.radd u f n d).hubs = s.hubs := rfl
@[simp] theorem State.ctxs_radd (u : Nat) (f : Fld) (n d : Nat) : (s.radd u f n d).ctxs = s.ctxs := rfl
@[simp] theorem State.admits_radd (u : Nat) (f : Fld) (n d : Nat) : (s.radd u f n d).admits = s.admits := rfl
@[simp] theorem State.seqs_radd (u : Nat) (f : Fld) (n d : Nat) : (s.radd u f n d).seqs = s.seqs := rfl
@[simp] theorem State.lease_radd (u : Nat) (f : Fld) (n d : Nat) : (s.radd u f n d).lease = s.lease := rfl
@[simp] theorem State.tlbHeld_radd (u : Nat) (f : Fld) (n d : Nat) : (s.radd u f n d).tlbHeld = s.tlbHeld := rfl
@[simp] theorem State.tlbCur_radd (u : Nat) (f : Fld) (n d : Nat) : (s.radd u f n d).tlbCur = s.tlbCur := rfl
@[simp] theorem State.hbm_radd (u : Nat) (f : Fld) (n d : Nat) : (s.radd u f n d).hbm = s.hbm := rfl
@[simp] theorem State.caches_radd (u : Nat) (f : Fld) (n d : Nat) : (s.radd u f n d).caches = s.caches := rfl
@[simp] theorem State.cacheReq_radd (u : Nat) (f : Fld) (n d : Nat) : (s.radd u f n d).cacheReq = s.cacheReq := rfl
@[simp] theorem State.fuses_radd (u : Nat) (f : Fld) (n d : Nat) : (s.radd u f n d).fuses = s.fuses := rfl
@[simp] theorem State.light_radd (u : Nat) (f : Fld) (n d : Nat) : (s.radd u f n d).light = s.light := rfl
@[simp] theorem State.linkTx_radd (u : Nat) (f : Fld) (n d : Nat) : (s.radd u f n d).linkTx = s.linkTx := rfl
@[simp] theorem State.net_radd (u : Nat) (f : Fld) (n d : Nat) : (s.radd u f n d).net = s.net := rfl
@[simp] theorem State.links_radd (u : Nat) (f : Fld) (n d : Nat) : (s.radd u f n d).links = s.links := rfl
@[simp] theorem State.claim_radd (u : Nat) (f : Fld) (n d : Nat) : (s.radd u f n d).claim = s.claim := rfl
@[simp] theorem State.mrs_radd (u : Nat) (f : Fld) (n d : Nat) : (s.radd u f n d).mrs = s.mrs := rfl
@[simp] theorem State.qps_radd (u : Nat) (f : Fld) (n d : Nat) : (s.radd u f n d).qps = s.qps := rfl
@[simp] theorem State.frames_radd (u : Nat) (f : Fld) (n d : Nat) : (s.radd u f n d).frames = s.frames := rfl
@[simp] theorem State.ports_radd (u : Nat) (f : Fld) (n d : Nat) : (s.radd u f n d).ports = s.ports := rfl
@[simp] theorem State.opts_radd (u : Nat) (f : Fld) (n d : Nat) : (s.radd u f n d).opts = s.opts := rfl
@[simp] theorem State.waves_radd (u : Nat) (f : Fld) (n d : Nat) : (s.radd u f n d).waves = s.waves := rfl
@[simp] theorem State.d2d_radd (u : Nat) (f : Fld) (n d : Nat) : (s.radd u f n d).d2d = s.d2d := rfl
@[simp] theorem State.pwr_radd (u : Nat) (f : Fld) (n d : Nat) : (s.radd u f n d).pwr = s.pwr := rfl
@[simp] theorem State.dies_radd (u : Nat) (f : Fld) (n d : Nat) : (s.radd u f n d).dies = s.dies := rfl
@[simp] theorem State.sensors_radd (u : Nat) (f : Fld) (n d : Nat) : (s.radd u f n d).sensors = s.sensors := rfl
@[simp] theorem State.energy_radd (u : Nat) (f : Fld) (n d : Nat) : (s.radd u f n d).energy = s.energy := rfl
@[simp] theorem State.serving_radd (u : Nat) (f : Fld) (n d : Nat) : (s.radd u f n d).serving = s.serving := rfl
@[simp] theorem State.boot_radd (u : Nat) (f : Fld) (n d : Nat) : (s.radd u f n d).boot = s.boot := rfl
@[simp] theorem State.testing_radd (u : Nat) (f : Fld) (n d : Nat) : (s.radd u f n d).testing = s.testing := rfl
@[simp] theorem State.missed_radd (u : Nat) (f : Fld) (n d : Nat) : (s.radd u f n d).missed = s.missed := rfl
@[simp] theorem State.shuts_radd (u : Nat) (f : Fld) (n d : Nat) : (s.radd u f n d).shuts = s.shuts := rfl
@[simp] theorem State.shutNo_radd (u : Nat) (f : Fld) (n d : Nat) : (s.radd u f n d).shutNo = s.shutNo := rfl
@[simp] theorem State.d2dSent_radd (u : Nat) (f : Fld) (n d : Nat) : (s.radd u f n d).d2dSent = s.d2dSent := rfl
@[simp] theorem State.planReady_radd (u : Nat) (f : Fld) (n d : Nat) : (s.radd u f n d).planReady = s.planReady := rfl
@[simp] theorem State.lateAborts_radd (u : Nat) (f : Fld) (n d : Nat) : (s.radd u f n d).lateAborts = s.lateAborts := rfl
@[simp] theorem State.lateStops_radd (u : Nat) (f : Fld) (n d : Nat) : (s.radd u f n d).lateStops = s.lateStops := rfl
@[simp] theorem State.met_radd (u : Nat) (f : Fld) (n d : Nat) : (s.radd u f n d).met = s.met := rfl
@[simp] theorem State.mirror_radd (u : Nat) (f : Fld) (n d : Nat) : (s.radd u f n d).mirror = s.mirror := rfl
@[simp] theorem State.mgmt_radd (u : Nat) (f : Fld) (n d : Nat) : (s.radd u f n d).mgmt = s.mgmt := rfl
@[simp] theorem State.ecpOut_radd (u : Nat) (f : Fld) (n d : Nat) : (s.radd u f n d).ecpOut = s.ecpOut := rfl

@[simp] theorem State.pending_cs (f : Fld) (c v : Nat) : (s.cs f c v).pending = s.pending := rfl
@[simp] theorem State.later_cs (f : Fld) (c v : Nat) : (s.cs f c v).later = s.later := rfl
@[simp] theorem State.tick_cs (f : Fld) (c v : Nat) : (s.cs f c v).tick = s.tick := rfl
@[simp] theorem State.freeCtr_cs (f : Fld) (c v : Nat) : (s.cs f c v).freeCtr = s.freeCtr := rfl
@[simp] theorem State.answers_cs (f : Fld) (c v : Nat) : (s.cs f c v).answers = s.answers := rfl
@[simp] theorem State.mem_cs (f : Fld) (c v : Nat) : (s.cs f c v).mem = s.mem := rfl
@[simp] theorem State.ev_cs (f : Fld) (c v : Nat) : (s.cs f c v).ev = s.ev := rfl
@[simp] theorem State.downAt_cs (f : Fld) (c v : Nat) : (s.cs f c v).downAt = s.downAt := rfl
@[simp] theorem State.cores_cs (f : Fld) (c v : Nat) : (s.cs f c v).cores = s.cores := rfl
@[simp] theorem State.engs_cs (f : Fld) (c v : Nat) : (s.cs f c v).engs = s.engs := rfl
@[simp] theorem State.hubs_cs (f : Fld) (c v : Nat) : (s.cs f c v).hubs = s.hubs := rfl
@[simp] theorem State.ctxs_cs (f : Fld) (c v : Nat) : (s.cs f c v).ctxs = s.ctxs := rfl
@[simp] theorem State.admits_cs (f : Fld) (c v : Nat) : (s.cs f c v).admits = s.admits := rfl
@[simp] theorem State.seqs_cs (f : Fld) (c v : Nat) : (s.cs f c v).seqs = s.seqs := rfl
@[simp] theorem State.lease_cs (f : Fld) (c v : Nat) : (s.cs f c v).lease = s.lease := rfl
@[simp] theorem State.tlbHeld_cs (f : Fld) (c v : Nat) : (s.cs f c v).tlbHeld = s.tlbHeld := rfl
@[simp] theorem State.tlbCur_cs (f : Fld) (c v : Nat) : (s.cs f c v).tlbCur = s.tlbCur := rfl
@[simp] theorem State.hbm_cs (f : Fld) (c v : Nat) : (s.cs f c v).hbm = s.hbm := rfl
@[simp] theorem State.caches_cs (f : Fld) (c v : Nat) : (s.cs f c v).caches = s.caches := rfl
@[simp] theorem State.cacheReq_cs (f : Fld) (c v : Nat) : (s.cs f c v).cacheReq = s.cacheReq := rfl
@[simp] theorem State.fuses_cs (f : Fld) (c v : Nat) : (s.cs f c v).fuses = s.fuses := rfl
@[simp] theorem State.light_cs (f : Fld) (c v : Nat) : (s.cs f c v).light = s.light := rfl
@[simp] theorem State.linkTx_cs (f : Fld) (c v : Nat) : (s.cs f c v).linkTx = s.linkTx := rfl
@[simp] theorem State.net_cs (f : Fld) (c v : Nat) : (s.cs f c v).net = s.net := rfl
@[simp] theorem State.links_cs (f : Fld) (c v : Nat) : (s.cs f c v).links = s.links := rfl
@[simp] theorem State.claim_cs (f : Fld) (c v : Nat) : (s.cs f c v).claim = s.claim := rfl
@[simp] theorem State.mrs_cs (f : Fld) (c v : Nat) : (s.cs f c v).mrs = s.mrs := rfl
@[simp] theorem State.qps_cs (f : Fld) (c v : Nat) : (s.cs f c v).qps = s.qps := rfl
@[simp] theorem State.frames_cs (f : Fld) (c v : Nat) : (s.cs f c v).frames = s.frames := rfl
@[simp] theorem State.ports_cs (f : Fld) (c v : Nat) : (s.cs f c v).ports = s.ports := rfl
@[simp] theorem State.opts_cs (f : Fld) (c v : Nat) : (s.cs f c v).opts = s.opts := rfl
@[simp] theorem State.waves_cs (f : Fld) (c v : Nat) : (s.cs f c v).waves = s.waves := rfl
@[simp] theorem State.d2d_cs (f : Fld) (c v : Nat) : (s.cs f c v).d2d = s.d2d := rfl
@[simp] theorem State.pwr_cs (f : Fld) (c v : Nat) : (s.cs f c v).pwr = s.pwr := rfl
@[simp] theorem State.dies_cs (f : Fld) (c v : Nat) : (s.cs f c v).dies = s.dies := rfl
@[simp] theorem State.sensors_cs (f : Fld) (c v : Nat) : (s.cs f c v).sensors = s.sensors := rfl
@[simp] theorem State.energy_cs (f : Fld) (c v : Nat) : (s.cs f c v).energy = s.energy := rfl
@[simp] theorem State.serving_cs (f : Fld) (c v : Nat) : (s.cs f c v).serving = s.serving := rfl
@[simp] theorem State.boot_cs (f : Fld) (c v : Nat) : (s.cs f c v).boot = s.boot := rfl
@[simp] theorem State.testing_cs (f : Fld) (c v : Nat) : (s.cs f c v).testing = s.testing := rfl
@[simp] theorem State.missed_cs (f : Fld) (c v : Nat) : (s.cs f c v).missed = s.missed := rfl
@[simp] theorem State.shuts_cs (f : Fld) (c v : Nat) : (s.cs f c v).shuts = s.shuts := rfl
@[simp] theorem State.shutNo_cs (f : Fld) (c v : Nat) : (s.cs f c v).shutNo = s.shutNo := rfl
@[simp] theorem State.d2dSent_cs (f : Fld) (c v : Nat) : (s.cs f c v).d2dSent = s.d2dSent := rfl
@[simp] theorem State.planReady_cs (f : Fld) (c v : Nat) : (s.cs f c v).planReady = s.planReady := rfl
@[simp] theorem State.lateAborts_cs (f : Fld) (c v : Nat) : (s.cs f c v).lateAborts = s.lateAborts := rfl
@[simp] theorem State.lateStops_cs (f : Fld) (c v : Nat) : (s.cs f c v).lateStops = s.lateStops := rfl
@[simp] theorem State.met_cs (f : Fld) (c v : Nat) : (s.cs f c v).met = s.met := rfl
@[simp] theorem State.mirror_cs (f : Fld) (c v : Nat) : (s.cs f c v).mirror = s.mirror := rfl
@[simp] theorem State.mgmt_cs (f : Fld) (c v : Nat) : (s.cs f c v).mgmt = s.mgmt := rfl
@[simp] theorem State.ecpOut_cs (f : Fld) (c v : Nat) : (s.cs f c v).ecpOut = s.ecpOut := rfl

@[simp] theorem State.pending_ls (l : Nat) (f : Fld) (v : Nat) : (s.ls l f v).pending = s.pending := rfl
@[simp] theorem State.later_ls (l : Nat) (f : Fld) (v : Nat) : (s.ls l f v).later = s.later := rfl
@[simp] theorem State.tick_ls (l : Nat) (f : Fld) (v : Nat) : (s.ls l f v).tick = s.tick := rfl
@[simp] theorem State.freeCtr_ls (l : Nat) (f : Fld) (v : Nat) : (s.ls l f v).freeCtr = s.freeCtr := rfl
@[simp] theorem State.answers_ls (l : Nat) (f : Fld) (v : Nat) : (s.ls l f v).answers = s.answers := rfl
@[simp] theorem State.mem_ls (l : Nat) (f : Fld) (v : Nat) : (s.ls l f v).mem = s.mem := rfl
@[simp] theorem State.ev_ls (l : Nat) (f : Fld) (v : Nat) : (s.ls l f v).ev = s.ev := rfl
@[simp] theorem State.downAt_ls (l : Nat) (f : Fld) (v : Nat) : (s.ls l f v).downAt = s.downAt := rfl
@[simp] theorem State.cores_ls (l : Nat) (f : Fld) (v : Nat) : (s.ls l f v).cores = s.cores := rfl
@[simp] theorem State.engs_ls (l : Nat) (f : Fld) (v : Nat) : (s.ls l f v).engs = s.engs := rfl
@[simp] theorem State.hubs_ls (l : Nat) (f : Fld) (v : Nat) : (s.ls l f v).hubs = s.hubs := rfl
@[simp] theorem State.ctxs_ls (l : Nat) (f : Fld) (v : Nat) : (s.ls l f v).ctxs = s.ctxs := rfl
@[simp] theorem State.admits_ls (l : Nat) (f : Fld) (v : Nat) : (s.ls l f v).admits = s.admits := rfl
@[simp] theorem State.seqs_ls (l : Nat) (f : Fld) (v : Nat) : (s.ls l f v).seqs = s.seqs := rfl
@[simp] theorem State.lease_ls (l : Nat) (f : Fld) (v : Nat) : (s.ls l f v).lease = s.lease := rfl
@[simp] theorem State.tlbHeld_ls (l : Nat) (f : Fld) (v : Nat) : (s.ls l f v).tlbHeld = s.tlbHeld := rfl
@[simp] theorem State.tlbCur_ls (l : Nat) (f : Fld) (v : Nat) : (s.ls l f v).tlbCur = s.tlbCur := rfl
@[simp] theorem State.hbm_ls (l : Nat) (f : Fld) (v : Nat) : (s.ls l f v).hbm = s.hbm := rfl
@[simp] theorem State.caches_ls (l : Nat) (f : Fld) (v : Nat) : (s.ls l f v).caches = s.caches := rfl
@[simp] theorem State.cacheReq_ls (l : Nat) (f : Fld) (v : Nat) : (s.ls l f v).cacheReq = s.cacheReq := rfl
@[simp] theorem State.fuses_ls (l : Nat) (f : Fld) (v : Nat) : (s.ls l f v).fuses = s.fuses := rfl
@[simp] theorem State.light_ls (l : Nat) (f : Fld) (v : Nat) : (s.ls l f v).light = s.light := rfl
@[simp] theorem State.linkTx_ls (l : Nat) (f : Fld) (v : Nat) : (s.ls l f v).linkTx = s.linkTx := rfl
@[simp] theorem State.net_ls (l : Nat) (f : Fld) (v : Nat) : (s.ls l f v).net = s.net := rfl
@[simp] theorem State.links_ls (l : Nat) (f : Fld) (v : Nat) : (s.ls l f v).links = s.links := rfl
@[simp] theorem State.claim_ls (l : Nat) (f : Fld) (v : Nat) : (s.ls l f v).claim = s.claim := rfl
@[simp] theorem State.mrs_ls (l : Nat) (f : Fld) (v : Nat) : (s.ls l f v).mrs = s.mrs := rfl
@[simp] theorem State.qps_ls (l : Nat) (f : Fld) (v : Nat) : (s.ls l f v).qps = s.qps := rfl
@[simp] theorem State.frames_ls (l : Nat) (f : Fld) (v : Nat) : (s.ls l f v).frames = s.frames := rfl
@[simp] theorem State.ports_ls (l : Nat) (f : Fld) (v : Nat) : (s.ls l f v).ports = s.ports := rfl
@[simp] theorem State.opts_ls (l : Nat) (f : Fld) (v : Nat) : (s.ls l f v).opts = s.opts := rfl
@[simp] theorem State.waves_ls (l : Nat) (f : Fld) (v : Nat) : (s.ls l f v).waves = s.waves := rfl
@[simp] theorem State.d2d_ls (l : Nat) (f : Fld) (v : Nat) : (s.ls l f v).d2d = s.d2d := rfl
@[simp] theorem State.pwr_ls (l : Nat) (f : Fld) (v : Nat) : (s.ls l f v).pwr = s.pwr := rfl
@[simp] theorem State.dies_ls (l : Nat) (f : Fld) (v : Nat) : (s.ls l f v).dies = s.dies := rfl
@[simp] theorem State.sensors_ls (l : Nat) (f : Fld) (v : Nat) : (s.ls l f v).sensors = s.sensors := rfl
@[simp] theorem State.energy_ls (l : Nat) (f : Fld) (v : Nat) : (s.ls l f v).energy = s.energy := rfl
@[simp] theorem State.serving_ls (l : Nat) (f : Fld) (v : Nat) : (s.ls l f v).serving = s.serving := rfl
@[simp] theorem State.boot_ls (l : Nat) (f : Fld) (v : Nat) : (s.ls l f v).boot = s.boot := rfl
@[simp] theorem State.testing_ls (l : Nat) (f : Fld) (v : Nat) : (s.ls l f v).testing = s.testing := rfl
@[simp] theorem State.missed_ls (l : Nat) (f : Fld) (v : Nat) : (s.ls l f v).missed = s.missed := rfl
@[simp] theorem State.shuts_ls (l : Nat) (f : Fld) (v : Nat) : (s.ls l f v).shuts = s.shuts := rfl
@[simp] theorem State.shutNo_ls (l : Nat) (f : Fld) (v : Nat) : (s.ls l f v).shutNo = s.shutNo := rfl
@[simp] theorem State.d2dSent_ls (l : Nat) (f : Fld) (v : Nat) : (s.ls l f v).d2dSent = s.d2dSent := rfl
@[simp] theorem State.planReady_ls (l : Nat) (f : Fld) (v : Nat) : (s.ls l f v).planReady = s.planReady := rfl
@[simp] theorem State.lateAborts_ls (l : Nat) (f : Fld) (v : Nat) : (s.ls l f v).lateAborts = s.lateAborts := rfl
@[simp] theorem State.lateStops_ls (l : Nat) (f : Fld) (v : Nat) : (s.ls l f v).lateStops = s.lateStops := rfl
@[simp] theorem State.met_ls (l : Nat) (f : Fld) (v : Nat) : (s.ls l f v).met = s.met := rfl
@[simp] theorem State.mirror_ls (l : Nat) (f : Fld) (v : Nat) : (s.ls l f v).mirror = s.mirror := rfl
@[simp] theorem State.mgmt_ls (l : Nat) (f : Fld) (v : Nat) : (s.ls l f v).mgmt = s.mgmt := rfl
@[simp] theorem State.ecpOut_ls (l : Nat) (f : Fld) (v : Nat) : (s.ls l f v).ecpOut = s.ecpOut := rfl

@[simp] theorem State.pending_linc (l : Nat) (f : Fld) (n : Nat) : (s.linc l f n).pending = s.pending := rfl
@[simp] theorem State.later_linc (l : Nat) (f : Fld) (n : Nat) : (s.linc l f n).later = s.later := rfl
@[simp] theorem State.tick_linc (l : Nat) (f : Fld) (n : Nat) : (s.linc l f n).tick = s.tick := rfl
@[simp] theorem State.freeCtr_linc (l : Nat) (f : Fld) (n : Nat) : (s.linc l f n).freeCtr = s.freeCtr := rfl
@[simp] theorem State.answers_linc (l : Nat) (f : Fld) (n : Nat) : (s.linc l f n).answers = s.answers := rfl
@[simp] theorem State.mem_linc (l : Nat) (f : Fld) (n : Nat) : (s.linc l f n).mem = s.mem := rfl
@[simp] theorem State.ev_linc (l : Nat) (f : Fld) (n : Nat) : (s.linc l f n).ev = s.ev := rfl
@[simp] theorem State.downAt_linc (l : Nat) (f : Fld) (n : Nat) : (s.linc l f n).downAt = s.downAt := rfl
@[simp] theorem State.cores_linc (l : Nat) (f : Fld) (n : Nat) : (s.linc l f n).cores = s.cores := rfl
@[simp] theorem State.engs_linc (l : Nat) (f : Fld) (n : Nat) : (s.linc l f n).engs = s.engs := rfl
@[simp] theorem State.hubs_linc (l : Nat) (f : Fld) (n : Nat) : (s.linc l f n).hubs = s.hubs := rfl
@[simp] theorem State.ctxs_linc (l : Nat) (f : Fld) (n : Nat) : (s.linc l f n).ctxs = s.ctxs := rfl
@[simp] theorem State.admits_linc (l : Nat) (f : Fld) (n : Nat) : (s.linc l f n).admits = s.admits := rfl
@[simp] theorem State.seqs_linc (l : Nat) (f : Fld) (n : Nat) : (s.linc l f n).seqs = s.seqs := rfl
@[simp] theorem State.lease_linc (l : Nat) (f : Fld) (n : Nat) : (s.linc l f n).lease = s.lease := rfl
@[simp] theorem State.tlbHeld_linc (l : Nat) (f : Fld) (n : Nat) : (s.linc l f n).tlbHeld = s.tlbHeld := rfl
@[simp] theorem State.tlbCur_linc (l : Nat) (f : Fld) (n : Nat) : (s.linc l f n).tlbCur = s.tlbCur := rfl
@[simp] theorem State.hbm_linc (l : Nat) (f : Fld) (n : Nat) : (s.linc l f n).hbm = s.hbm := rfl
@[simp] theorem State.caches_linc (l : Nat) (f : Fld) (n : Nat) : (s.linc l f n).caches = s.caches := rfl
@[simp] theorem State.cacheReq_linc (l : Nat) (f : Fld) (n : Nat) : (s.linc l f n).cacheReq = s.cacheReq := rfl
@[simp] theorem State.fuses_linc (l : Nat) (f : Fld) (n : Nat) : (s.linc l f n).fuses = s.fuses := rfl
@[simp] theorem State.light_linc (l : Nat) (f : Fld) (n : Nat) : (s.linc l f n).light = s.light := rfl
@[simp] theorem State.linkTx_linc (l : Nat) (f : Fld) (n : Nat) : (s.linc l f n).linkTx = s.linkTx := rfl
@[simp] theorem State.net_linc (l : Nat) (f : Fld) (n : Nat) : (s.linc l f n).net = s.net := rfl
@[simp] theorem State.links_linc (l : Nat) (f : Fld) (n : Nat) : (s.linc l f n).links = s.links := rfl
@[simp] theorem State.claim_linc (l : Nat) (f : Fld) (n : Nat) : (s.linc l f n).claim = s.claim := rfl
@[simp] theorem State.mrs_linc (l : Nat) (f : Fld) (n : Nat) : (s.linc l f n).mrs = s.mrs := rfl
@[simp] theorem State.qps_linc (l : Nat) (f : Fld) (n : Nat) : (s.linc l f n).qps = s.qps := rfl
@[simp] theorem State.frames_linc (l : Nat) (f : Fld) (n : Nat) : (s.linc l f n).frames = s.frames := rfl
@[simp] theorem State.ports_linc (l : Nat) (f : Fld) (n : Nat) : (s.linc l f n).ports = s.ports := rfl
@[simp] theorem State.opts_linc (l : Nat) (f : Fld) (n : Nat) : (s.linc l f n).opts = s.opts := rfl
@[simp] theorem State.waves_linc (l : Nat) (f : Fld) (n : Nat) : (s.linc l f n).waves = s.waves := rfl
@[simp] theorem State.d2d_linc (l : Nat) (f : Fld) (n : Nat) : (s.linc l f n).d2d = s.d2d := rfl
@[simp] theorem State.pwr_linc (l : Nat) (f : Fld) (n : Nat) : (s.linc l f n).pwr = s.pwr := rfl
@[simp] theorem State.dies_linc (l : Nat) (f : Fld) (n : Nat) : (s.linc l f n).dies = s.dies := rfl
@[simp] theorem State.sensors_linc (l : Nat) (f : Fld) (n : Nat) : (s.linc l f n).sensors = s.sensors := rfl
@[simp] theorem State.energy_linc (l : Nat) (f : Fld) (n : Nat) : (s.linc l f n).energy = s.energy := rfl
@[simp] theorem State.serving_linc (l : Nat) (f : Fld) (n : Nat) : (s.linc l f n).serving = s.serving := rfl
@[simp] theorem State.boot_linc (l : Nat) (f : Fld) (n : Nat) : (s.linc l f n).boot = s.boot := rfl
@[simp] theorem State.testing_linc (l : Nat) (f : Fld) (n : Nat) : (s.linc l f n).testing = s.testing := rfl
@[simp] theorem State.missed_linc (l : Nat) (f : Fld) (n : Nat) : (s.linc l f n).missed = s.missed := rfl
@[simp] theorem State.shuts_linc (l : Nat) (f : Fld) (n : Nat) : (s.linc l f n).shuts = s.shuts := rfl
@[simp] theorem State.shutNo_linc (l : Nat) (f : Fld) (n : Nat) : (s.linc l f n).shutNo = s.shutNo := rfl
@[simp] theorem State.d2dSent_linc (l : Nat) (f : Fld) (n : Nat) : (s.linc l f n).d2dSent = s.d2dSent := rfl
@[simp] theorem State.planReady_linc (l : Nat) (f : Fld) (n : Nat) : (s.linc l f n).planReady = s.planReady := rfl
@[simp] theorem State.lateAborts_linc (l : Nat) (f : Fld) (n : Nat) : (s.linc l f n).lateAborts = s.lateAborts := rfl
@[simp] theorem State.lateStops_linc (l : Nat) (f : Fld) (n : Nat) : (s.linc l f n).lateStops = s.lateStops := rfl
@[simp] theorem State.met_linc (l : Nat) (f : Fld) (n : Nat) : (s.linc l f n).met = s.met := rfl
@[simp] theorem State.mirror_linc (l : Nat) (f : Fld) (n : Nat) : (s.linc l f n).mirror = s.mirror := rfl
@[simp] theorem State.mgmt_linc (l : Nat) (f : Fld) (n : Nat) : (s.linc l f n).mgmt = s.mgmt := rfl
@[simp] theorem State.ecpOut_linc (l : Nat) (f : Fld) (n : Nat) : (s.linc l f n).ecpOut = s.ecpOut := rfl

@[simp] theorem State.pending_os (l : Nat) (f : Fld) (v d : Nat) : (s.os l f v d).pending = s.pending := rfl
@[simp] theorem State.later_os (l : Nat) (f : Fld) (v d : Nat) : (s.os l f v d).later = s.later := rfl
@[simp] theorem State.tick_os (l : Nat) (f : Fld) (v d : Nat) : (s.os l f v d).tick = s.tick := rfl
@[simp] theorem State.freeCtr_os (l : Nat) (f : Fld) (v d : Nat) : (s.os l f v d).freeCtr = s.freeCtr := rfl
@[simp] theorem State.answers_os (l : Nat) (f : Fld) (v d : Nat) : (s.os l f v d).answers = s.answers := rfl
@[simp] theorem State.mem_os (l : Nat) (f : Fld) (v d : Nat) : (s.os l f v d).mem = s.mem := rfl
@[simp] theorem State.ev_os (l : Nat) (f : Fld) (v d : Nat) : (s.os l f v d).ev = s.ev := rfl
@[simp] theorem State.downAt_os (l : Nat) (f : Fld) (v d : Nat) : (s.os l f v d).downAt = s.downAt := rfl
@[simp] theorem State.cores_os (l : Nat) (f : Fld) (v d : Nat) : (s.os l f v d).cores = s.cores := rfl
@[simp] theorem State.engs_os (l : Nat) (f : Fld) (v d : Nat) : (s.os l f v d).engs = s.engs := rfl
@[simp] theorem State.hubs_os (l : Nat) (f : Fld) (v d : Nat) : (s.os l f v d).hubs = s.hubs := rfl
@[simp] theorem State.ctxs_os (l : Nat) (f : Fld) (v d : Nat) : (s.os l f v d).ctxs = s.ctxs := rfl
@[simp] theorem State.admits_os (l : Nat) (f : Fld) (v d : Nat) : (s.os l f v d).admits = s.admits := rfl
@[simp] theorem State.seqs_os (l : Nat) (f : Fld) (v d : Nat) : (s.os l f v d).seqs = s.seqs := rfl
@[simp] theorem State.lease_os (l : Nat) (f : Fld) (v d : Nat) : (s.os l f v d).lease = s.lease := rfl
@[simp] theorem State.tlbHeld_os (l : Nat) (f : Fld) (v d : Nat) : (s.os l f v d).tlbHeld = s.tlbHeld := rfl
@[simp] theorem State.tlbCur_os (l : Nat) (f : Fld) (v d : Nat) : (s.os l f v d).tlbCur = s.tlbCur := rfl
@[simp] theorem State.hbm_os (l : Nat) (f : Fld) (v d : Nat) : (s.os l f v d).hbm = s.hbm := rfl
@[simp] theorem State.caches_os (l : Nat) (f : Fld) (v d : Nat) : (s.os l f v d).caches = s.caches := rfl
@[simp] theorem State.cacheReq_os (l : Nat) (f : Fld) (v d : Nat) : (s.os l f v d).cacheReq = s.cacheReq := rfl
@[simp] theorem State.fuses_os (l : Nat) (f : Fld) (v d : Nat) : (s.os l f v d).fuses = s.fuses := rfl
@[simp] theorem State.light_os (l : Nat) (f : Fld) (v d : Nat) : (s.os l f v d).light = s.light := rfl
@[simp] theorem State.linkTx_os (l : Nat) (f : Fld) (v d : Nat) : (s.os l f v d).linkTx = s.linkTx := rfl
@[simp] theorem State.net_os (l : Nat) (f : Fld) (v d : Nat) : (s.os l f v d).net = s.net := rfl
@[simp] theorem State.links_os (l : Nat) (f : Fld) (v d : Nat) : (s.os l f v d).links = s.links := rfl
@[simp] theorem State.claim_os (l : Nat) (f : Fld) (v d : Nat) : (s.os l f v d).claim = s.claim := rfl
@[simp] theorem State.mrs_os (l : Nat) (f : Fld) (v d : Nat) : (s.os l f v d).mrs = s.mrs := rfl
@[simp] theorem State.qps_os (l : Nat) (f : Fld) (v d : Nat) : (s.os l f v d).qps = s.qps := rfl
@[simp] theorem State.frames_os (l : Nat) (f : Fld) (v d : Nat) : (s.os l f v d).frames = s.frames := rfl
@[simp] theorem State.ports_os (l : Nat) (f : Fld) (v d : Nat) : (s.os l f v d).ports = s.ports := rfl
@[simp] theorem State.opts_os (l : Nat) (f : Fld) (v d : Nat) : (s.os l f v d).opts = s.opts := rfl
@[simp] theorem State.waves_os (l : Nat) (f : Fld) (v d : Nat) : (s.os l f v d).waves = s.waves := rfl
@[simp] theorem State.d2d_os (l : Nat) (f : Fld) (v d : Nat) : (s.os l f v d).d2d = s.d2d := rfl
@[simp] theorem State.pwr_os (l : Nat) (f : Fld) (v d : Nat) : (s.os l f v d).pwr = s.pwr := rfl
@[simp] theorem State.dies_os (l : Nat) (f : Fld) (v d : Nat) : (s.os l f v d).dies = s.dies := rfl
@[simp] theorem State.sensors_os (l : Nat) (f : Fld) (v d : Nat) : (s.os l f v d).sensors = s.sensors := rfl
@[simp] theorem State.energy_os (l : Nat) (f : Fld) (v d : Nat) : (s.os l f v d).energy = s.energy := rfl
@[simp] theorem State.serving_os (l : Nat) (f : Fld) (v d : Nat) : (s.os l f v d).serving = s.serving := rfl
@[simp] theorem State.boot_os (l : Nat) (f : Fld) (v d : Nat) : (s.os l f v d).boot = s.boot := rfl
@[simp] theorem State.testing_os (l : Nat) (f : Fld) (v d : Nat) : (s.os l f v d).testing = s.testing := rfl
@[simp] theorem State.missed_os (l : Nat) (f : Fld) (v d : Nat) : (s.os l f v d).missed = s.missed := rfl
@[simp] theorem State.shuts_os (l : Nat) (f : Fld) (v d : Nat) : (s.os l f v d).shuts = s.shuts := rfl
@[simp] theorem State.shutNo_os (l : Nat) (f : Fld) (v d : Nat) : (s.os l f v d).shutNo = s.shutNo := rfl
@[simp] theorem State.d2dSent_os (l : Nat) (f : Fld) (v d : Nat) : (s.os l f v d).d2dSent = s.d2dSent := rfl
@[simp] theorem State.planReady_os (l : Nat) (f : Fld) (v d : Nat) : (s.os l f v d).planReady = s.planReady := rfl
@[simp] theorem State.lateAborts_os (l : Nat) (f : Fld) (v d : Nat) : (s.os l f v d).lateAborts = s.lateAborts := rfl
@[simp] theorem State.lateStops_os (l : Nat) (f : Fld) (v d : Nat) : (s.os l f v d).lateStops = s.lateStops := rfl
@[simp] theorem State.met_os (l : Nat) (f : Fld) (v d : Nat) : (s.os l f v d).met = s.met := rfl
@[simp] theorem State.mirror_os (l : Nat) (f : Fld) (v d : Nat) : (s.os l f v d).mirror = s.mirror := rfl
@[simp] theorem State.mgmt_os (l : Nat) (f : Fld) (v d : Nat) : (s.os l f v d).mgmt = s.mgmt := rfl
@[simp] theorem State.ecpOut_os (l : Nat) (f : Fld) (v d : Nat) : (s.os l f v d).ecpOut = s.ecpOut := rfl

@[simp] theorem State.pending_setFence (t : Nat) (f : Fld) (v : Nat) : (s.setFence t f v).pending = s.pending := rfl
@[simp] theorem State.later_setFence (t : Nat) (f : Fld) (v : Nat) : (s.setFence t f v).later = s.later := rfl
@[simp] theorem State.tick_setFence (t : Nat) (f : Fld) (v : Nat) : (s.setFence t f v).tick = s.tick := rfl
@[simp] theorem State.freeCtr_setFence (t : Nat) (f : Fld) (v : Nat) : (s.setFence t f v).freeCtr = s.freeCtr := rfl
@[simp] theorem State.answers_setFence (t : Nat) (f : Fld) (v : Nat) : (s.setFence t f v).answers = s.answers := rfl
@[simp] theorem State.mem_setFence (t : Nat) (f : Fld) (v : Nat) : (s.setFence t f v).mem = s.mem := rfl
@[simp] theorem State.ev_setFence (t : Nat) (f : Fld) (v : Nat) : (s.setFence t f v).ev = s.ev := rfl
@[simp] theorem State.downAt_setFence (t : Nat) (f : Fld) (v : Nat) : (s.setFence t f v).downAt = s.downAt := rfl
@[simp] theorem State.cores_setFence (t : Nat) (f : Fld) (v : Nat) : (s.setFence t f v).cores = s.cores := rfl
@[simp] theorem State.engs_setFence (t : Nat) (f : Fld) (v : Nat) : (s.setFence t f v).engs = s.engs := rfl
@[simp] theorem State.hubs_setFence (t : Nat) (f : Fld) (v : Nat) : (s.setFence t f v).hubs = s.hubs := rfl
@[simp] theorem State.ctxs_setFence (t : Nat) (f : Fld) (v : Nat) : (s.setFence t f v).ctxs = s.ctxs := rfl
@[simp] theorem State.admits_setFence (t : Nat) (f : Fld) (v : Nat) : (s.setFence t f v).admits = s.admits := rfl
@[simp] theorem State.seqs_setFence (t : Nat) (f : Fld) (v : Nat) : (s.setFence t f v).seqs = s.seqs := rfl
@[simp] theorem State.lease_setFence (t : Nat) (f : Fld) (v : Nat) : (s.setFence t f v).lease = s.lease := rfl
@[simp] theorem State.tlbHeld_setFence (t : Nat) (f : Fld) (v : Nat) : (s.setFence t f v).tlbHeld = s.tlbHeld := rfl
@[simp] theorem State.tlbCur_setFence (t : Nat) (f : Fld) (v : Nat) : (s.setFence t f v).tlbCur = s.tlbCur := rfl
@[simp] theorem State.hbm_setFence (t : Nat) (f : Fld) (v : Nat) : (s.setFence t f v).hbm = s.hbm := rfl
@[simp] theorem State.caches_setFence (t : Nat) (f : Fld) (v : Nat) : (s.setFence t f v).caches = s.caches := rfl
@[simp] theorem State.cacheReq_setFence (t : Nat) (f : Fld) (v : Nat) : (s.setFence t f v).cacheReq = s.cacheReq := rfl
@[simp] theorem State.fuses_setFence (t : Nat) (f : Fld) (v : Nat) : (s.setFence t f v).fuses = s.fuses := rfl
@[simp] theorem State.light_setFence (t : Nat) (f : Fld) (v : Nat) : (s.setFence t f v).light = s.light := rfl
@[simp] theorem State.linkTx_setFence (t : Nat) (f : Fld) (v : Nat) : (s.setFence t f v).linkTx = s.linkTx := rfl
@[simp] theorem State.net_setFence (t : Nat) (f : Fld) (v : Nat) : (s.setFence t f v).net = s.net := rfl
@[simp] theorem State.links_setFence (t : Nat) (f : Fld) (v : Nat) : (s.setFence t f v).links = s.links := rfl
@[simp] theorem State.claim_setFence (t : Nat) (f : Fld) (v : Nat) : (s.setFence t f v).claim = s.claim := rfl
@[simp] theorem State.mrs_setFence (t : Nat) (f : Fld) (v : Nat) : (s.setFence t f v).mrs = s.mrs := rfl
@[simp] theorem State.qps_setFence (t : Nat) (f : Fld) (v : Nat) : (s.setFence t f v).qps = s.qps := rfl
@[simp] theorem State.frames_setFence (t : Nat) (f : Fld) (v : Nat) : (s.setFence t f v).frames = s.frames := rfl
@[simp] theorem State.ports_setFence (t : Nat) (f : Fld) (v : Nat) : (s.setFence t f v).ports = s.ports := rfl
@[simp] theorem State.opts_setFence (t : Nat) (f : Fld) (v : Nat) : (s.setFence t f v).opts = s.opts := rfl
@[simp] theorem State.waves_setFence (t : Nat) (f : Fld) (v : Nat) : (s.setFence t f v).waves = s.waves := rfl
@[simp] theorem State.d2d_setFence (t : Nat) (f : Fld) (v : Nat) : (s.setFence t f v).d2d = s.d2d := rfl
@[simp] theorem State.pwr_setFence (t : Nat) (f : Fld) (v : Nat) : (s.setFence t f v).pwr = s.pwr := rfl
@[simp] theorem State.dies_setFence (t : Nat) (f : Fld) (v : Nat) : (s.setFence t f v).dies = s.dies := rfl
@[simp] theorem State.sensors_setFence (t : Nat) (f : Fld) (v : Nat) : (s.setFence t f v).sensors = s.sensors := rfl
@[simp] theorem State.energy_setFence (t : Nat) (f : Fld) (v : Nat) : (s.setFence t f v).energy = s.energy := rfl
@[simp] theorem State.serving_setFence (t : Nat) (f : Fld) (v : Nat) : (s.setFence t f v).serving = s.serving := rfl
@[simp] theorem State.boot_setFence (t : Nat) (f : Fld) (v : Nat) : (s.setFence t f v).boot = s.boot := rfl
@[simp] theorem State.testing_setFence (t : Nat) (f : Fld) (v : Nat) : (s.setFence t f v).testing = s.testing := rfl
@[simp] theorem State.missed_setFence (t : Nat) (f : Fld) (v : Nat) : (s.setFence t f v).missed = s.missed := rfl
@[simp] theorem State.shuts_setFence (t : Nat) (f : Fld) (v : Nat) : (s.setFence t f v).shuts = s.shuts := rfl
@[simp] theorem State.shutNo_setFence (t : Nat) (f : Fld) (v : Nat) : (s.setFence t f v).shutNo = s.shutNo := rfl
@[simp] theorem State.d2dSent_setFence (t : Nat) (f : Fld) (v : Nat) : (s.setFence t f v).d2dSent = s.d2dSent := rfl
@[simp] theorem State.planReady_setFence (t : Nat) (f : Fld) (v : Nat) : (s.setFence t f v).planReady = s.planReady := rfl
@[simp] theorem State.lateAborts_setFence (t : Nat) (f : Fld) (v : Nat) : (s.setFence t f v).lateAborts = s.lateAborts := rfl
@[simp] theorem State.lateStops_setFence (t : Nat) (f : Fld) (v : Nat) : (s.setFence t f v).lateStops = s.lateStops := rfl
@[simp] theorem State.met_setFence (t : Nat) (f : Fld) (v : Nat) : (s.setFence t f v).met = s.met := rfl
@[simp] theorem State.mirror_setFence (t : Nat) (f : Fld) (v : Nat) : (s.setFence t f v).mirror = s.mirror := rfl
@[simp] theorem State.mgmt_setFence (t : Nat) (f : Fld) (v : Nat) : (s.setFence t f v).mgmt = s.mgmt := rfl
@[simp] theorem State.ecpOut_setFence (t : Nat) (f : Fld) (v : Nat) : (s.setFence t f v).ecpOut = s.ecpOut := rfl

@[simp] theorem State.pending_resetRegs (u : Nat) : (s.resetRegs u).pending = s.pending := rfl
@[simp] theorem State.later_resetRegs (u : Nat) : (s.resetRegs u).later = s.later := rfl
@[simp] theorem State.tick_resetRegs (u : Nat) : (s.resetRegs u).tick = s.tick := rfl
@[simp] theorem State.freeCtr_resetRegs (u : Nat) : (s.resetRegs u).freeCtr = s.freeCtr := rfl
@[simp] theorem State.answers_resetRegs (u : Nat) : (s.resetRegs u).answers = s.answers := rfl
@[simp] theorem State.mem_resetRegs (u : Nat) : (s.resetRegs u).mem = s.mem := rfl
@[simp] theorem State.ev_resetRegs (u : Nat) : (s.resetRegs u).ev = s.ev := rfl
@[simp] theorem State.downAt_resetRegs (u : Nat) : (s.resetRegs u).downAt = s.downAt := rfl
@[simp] theorem State.cores_resetRegs (u : Nat) : (s.resetRegs u).cores = s.cores := rfl
@[simp] theorem State.engs_resetRegs (u : Nat) : (s.resetRegs u).engs = s.engs := rfl
@[simp] theorem State.hubs_resetRegs (u : Nat) : (s.resetRegs u).hubs = s.hubs := rfl
@[simp] theorem State.ctxs_resetRegs (u : Nat) : (s.resetRegs u).ctxs = s.ctxs := rfl
@[simp] theorem State.admits_resetRegs (u : Nat) : (s.resetRegs u).admits = s.admits := rfl
@[simp] theorem State.seqs_resetRegs (u : Nat) : (s.resetRegs u).seqs = s.seqs := rfl
@[simp] theorem State.lease_resetRegs (u : Nat) : (s.resetRegs u).lease = s.lease := rfl
@[simp] theorem State.tlbHeld_resetRegs (u : Nat) : (s.resetRegs u).tlbHeld = s.tlbHeld := rfl
@[simp] theorem State.tlbCur_resetRegs (u : Nat) : (s.resetRegs u).tlbCur = s.tlbCur := rfl
@[simp] theorem State.hbm_resetRegs (u : Nat) : (s.resetRegs u).hbm = s.hbm := rfl
@[simp] theorem State.caches_resetRegs (u : Nat) : (s.resetRegs u).caches = s.caches := rfl
@[simp] theorem State.cacheReq_resetRegs (u : Nat) : (s.resetRegs u).cacheReq = s.cacheReq := rfl
@[simp] theorem State.fuses_resetRegs (u : Nat) : (s.resetRegs u).fuses = s.fuses := rfl
@[simp] theorem State.light_resetRegs (u : Nat) : (s.resetRegs u).light = s.light := rfl
@[simp] theorem State.linkTx_resetRegs (u : Nat) : (s.resetRegs u).linkTx = s.linkTx := rfl
@[simp] theorem State.net_resetRegs (u : Nat) : (s.resetRegs u).net = s.net := rfl
@[simp] theorem State.links_resetRegs (u : Nat) : (s.resetRegs u).links = s.links := rfl
@[simp] theorem State.claim_resetRegs (u : Nat) : (s.resetRegs u).claim = s.claim := rfl
@[simp] theorem State.mrs_resetRegs (u : Nat) : (s.resetRegs u).mrs = s.mrs := rfl
@[simp] theorem State.qps_resetRegs (u : Nat) : (s.resetRegs u).qps = s.qps := rfl
@[simp] theorem State.frames_resetRegs (u : Nat) : (s.resetRegs u).frames = s.frames := rfl
@[simp] theorem State.ports_resetRegs (u : Nat) : (s.resetRegs u).ports = s.ports := rfl
@[simp] theorem State.opts_resetRegs (u : Nat) : (s.resetRegs u).opts = s.opts := rfl
@[simp] theorem State.waves_resetRegs (u : Nat) : (s.resetRegs u).waves = s.waves := rfl
@[simp] theorem State.d2d_resetRegs (u : Nat) : (s.resetRegs u).d2d = s.d2d := rfl
@[simp] theorem State.pwr_resetRegs (u : Nat) : (s.resetRegs u).pwr = s.pwr := rfl
@[simp] theorem State.dies_resetRegs (u : Nat) : (s.resetRegs u).dies = s.dies := rfl
@[simp] theorem State.sensors_resetRegs (u : Nat) : (s.resetRegs u).sensors = s.sensors := rfl
@[simp] theorem State.energy_resetRegs (u : Nat) : (s.resetRegs u).energy = s.energy := rfl
@[simp] theorem State.serving_resetRegs (u : Nat) : (s.resetRegs u).serving = s.serving := rfl
@[simp] theorem State.boot_resetRegs (u : Nat) : (s.resetRegs u).boot = s.boot := rfl
@[simp] theorem State.testing_resetRegs (u : Nat) : (s.resetRegs u).testing = s.testing := rfl
@[simp] theorem State.missed_resetRegs (u : Nat) : (s.resetRegs u).missed = s.missed := rfl
@[simp] theorem State.shuts_resetRegs (u : Nat) : (s.resetRegs u).shuts = s.shuts := rfl
@[simp] theorem State.shutNo_resetRegs (u : Nat) : (s.resetRegs u).shutNo = s.shutNo := rfl
@[simp] theorem State.d2dSent_resetRegs (u : Nat) : (s.resetRegs u).d2dSent = s.d2dSent := rfl
@[simp] theorem State.planReady_resetRegs (u : Nat) : (s.resetRegs u).planReady = s.planReady := rfl
@[simp] theorem State.lateAborts_resetRegs (u : Nat) : (s.resetRegs u).lateAborts = s.lateAborts := rfl
@[simp] theorem State.lateStops_resetRegs (u : Nat) : (s.resetRegs u).lateStops = s.lateStops := rfl
@[simp] theorem State.met_resetRegs (u : Nat) : (s.resetRegs u).met = s.met := rfl
@[simp] theorem State.mirror_resetRegs (u : Nat) : (s.resetRegs u).mirror = s.mirror := rfl
@[simp] theorem State.mgmt_resetRegs (u : Nat) : (s.resetRegs u).mgmt = s.mgmt := rfl
@[simp] theorem State.ecpOut_resetRegs (u : Nat) : (s.resetRegs u).ecpOut = s.ecpOut := rfl

@[simp] theorem State.pending_setEng (k : Nat) (x : Eng) : (s.setEng k x).pending = s.pending := rfl
@[simp] theorem State.later_setEng (k : Nat) (x : Eng) : (s.setEng k x).later = s.later := rfl
@[simp] theorem State.tick_setEng (k : Nat) (x : Eng) : (s.setEng k x).tick = s.tick := rfl
@[simp] theorem State.freeCtr_setEng (k : Nat) (x : Eng) : (s.setEng k x).freeCtr = s.freeCtr := rfl
@[simp] theorem State.regs_setEng (k : Nat) (x : Eng) : (s.setEng k x).regs = s.regs := rfl
@[simp] theorem State.fresh_setEng (k : Nat) (x : Eng) : (s.setEng k x).fresh = s.fresh := rfl
@[simp] theorem State.answers_setEng (k : Nat) (x : Eng) : (s.setEng k x).answers = s.answers := rfl
@[simp] theorem State.mem_setEng (k : Nat) (x : Eng) : (s.setEng k x).mem = s.mem := rfl
@[simp] theorem State.ev_setEng (k : Nat) (x : Eng) : (s.setEng k x).ev = s.ev := rfl
@[simp] theorem State.downAt_setEng (k : Nat) (x : Eng) : (s.setEng k x).downAt = s.downAt := rfl
@[simp] theorem State.cores_setEng (k : Nat) (x : Eng) : (s.setEng k x).cores = s.cores := rfl
@[simp] theorem State.hubs_setEng (k : Nat) (x : Eng) : (s.setEng k x).hubs = s.hubs := rfl
@[simp] theorem State.ctxs_setEng (k : Nat) (x : Eng) : (s.setEng k x).ctxs = s.ctxs := rfl
@[simp] theorem State.admits_setEng (k : Nat) (x : Eng) : (s.setEng k x).admits = s.admits := rfl
@[simp] theorem State.seqs_setEng (k : Nat) (x : Eng) : (s.setEng k x).seqs = s.seqs := rfl
@[simp] theorem State.lease_setEng (k : Nat) (x : Eng) : (s.setEng k x).lease = s.lease := rfl
@[simp] theorem State.tlbHeld_setEng (k : Nat) (x : Eng) : (s.setEng k x).tlbHeld = s.tlbHeld := rfl
@[simp] theorem State.tlbCur_setEng (k : Nat) (x : Eng) : (s.setEng k x).tlbCur = s.tlbCur := rfl
@[simp] theorem State.hbm_setEng (k : Nat) (x : Eng) : (s.setEng k x).hbm = s.hbm := rfl
@[simp] theorem State.caches_setEng (k : Nat) (x : Eng) : (s.setEng k x).caches = s.caches := rfl
@[simp] theorem State.cacheReq_setEng (k : Nat) (x : Eng) : (s.setEng k x).cacheReq = s.cacheReq := rfl
@[simp] theorem State.fuses_setEng (k : Nat) (x : Eng) : (s.setEng k x).fuses = s.fuses := rfl
@[simp] theorem State.light_setEng (k : Nat) (x : Eng) : (s.setEng k x).light = s.light := rfl
@[simp] theorem State.linkTx_setEng (k : Nat) (x : Eng) : (s.setEng k x).linkTx = s.linkTx := rfl
@[simp] theorem State.net_setEng (k : Nat) (x : Eng) : (s.setEng k x).net = s.net := rfl
@[simp] theorem State.links_setEng (k : Nat) (x : Eng) : (s.setEng k x).links = s.links := rfl
@[simp] theorem State.claim_setEng (k : Nat) (x : Eng) : (s.setEng k x).claim = s.claim := rfl
@[simp] theorem State.mrs_setEng (k : Nat) (x : Eng) : (s.setEng k x).mrs = s.mrs := rfl
@[simp] theorem State.qps_setEng (k : Nat) (x : Eng) : (s.setEng k x).qps = s.qps := rfl
@[simp] theorem State.frames_setEng (k : Nat) (x : Eng) : (s.setEng k x).frames = s.frames := rfl
@[simp] theorem State.ports_setEng (k : Nat) (x : Eng) : (s.setEng k x).ports = s.ports := rfl
@[simp] theorem State.opts_setEng (k : Nat) (x : Eng) : (s.setEng k x).opts = s.opts := rfl
@[simp] theorem State.waves_setEng (k : Nat) (x : Eng) : (s.setEng k x).waves = s.waves := rfl
@[simp] theorem State.d2d_setEng (k : Nat) (x : Eng) : (s.setEng k x).d2d = s.d2d := rfl
@[simp] theorem State.pwr_setEng (k : Nat) (x : Eng) : (s.setEng k x).pwr = s.pwr := rfl
@[simp] theorem State.dies_setEng (k : Nat) (x : Eng) : (s.setEng k x).dies = s.dies := rfl
@[simp] theorem State.sensors_setEng (k : Nat) (x : Eng) : (s.setEng k x).sensors = s.sensors := rfl
@[simp] theorem State.energy_setEng (k : Nat) (x : Eng) : (s.setEng k x).energy = s.energy := rfl
@[simp] theorem State.serving_setEng (k : Nat) (x : Eng) : (s.setEng k x).serving = s.serving := rfl
@[simp] theorem State.boot_setEng (k : Nat) (x : Eng) : (s.setEng k x).boot = s.boot := rfl
@[simp] theorem State.testing_setEng (k : Nat) (x : Eng) : (s.setEng k x).testing = s.testing := rfl
@[simp] theorem State.missed_setEng (k : Nat) (x : Eng) : (s.setEng k x).missed = s.missed := rfl
@[simp] theorem State.shuts_setEng (k : Nat) (x : Eng) : (s.setEng k x).shuts = s.shuts := rfl
@[simp] theorem State.shutNo_setEng (k : Nat) (x : Eng) : (s.setEng k x).shutNo = s.shutNo := rfl
@[simp] theorem State.d2dSent_setEng (k : Nat) (x : Eng) : (s.setEng k x).d2dSent = s.d2dSent := rfl
@[simp] theorem State.planReady_setEng (k : Nat) (x : Eng) : (s.setEng k x).planReady = s.planReady := rfl
@[simp] theorem State.lateAborts_setEng (k : Nat) (x : Eng) : (s.setEng k x).lateAborts = s.lateAborts := rfl
@[simp] theorem State.lateStops_setEng (k : Nat) (x : Eng) : (s.setEng k x).lateStops = s.lateStops := rfl
@[simp] theorem State.met_setEng (k : Nat) (x : Eng) : (s.setEng k x).met = s.met := rfl
@[simp] theorem State.mirror_setEng (k : Nat) (x : Eng) : (s.setEng k x).mirror = s.mirror := rfl
@[simp] theorem State.mgmt_setEng (k : Nat) (x : Eng) : (s.setEng k x).mgmt = s.mgmt := rfl
@[simp] theorem State.ecpOut_setEng (k : Nat) (x : Eng) : (s.setEng k x).ecpOut = s.ecpOut := rfl

@[simp] theorem State.pending_setCore (k : Nat) (x : CoreSt) : (s.setCore k x).pending = s.pending := rfl
@[simp] theorem State.later_setCore (k : Nat) (x : CoreSt) : (s.setCore k x).later = s.later := rfl
@[simp] theorem State.tick_setCore (k : Nat) (x : CoreSt) : (s.setCore k x).tick = s.tick := rfl
@[simp] theorem State.freeCtr_setCore (k : Nat) (x : CoreSt) : (s.setCore k x).freeCtr = s.freeCtr := rfl
@[simp] theorem State.regs_setCore (k : Nat) (x : CoreSt) : (s.setCore k x).regs = s.regs := rfl
@[simp] theorem State.fresh_setCore (k : Nat) (x : CoreSt) : (s.setCore k x).fresh = s.fresh := rfl
@[simp] theorem State.answers_setCore (k : Nat) (x : CoreSt) : (s.setCore k x).answers = s.answers := rfl
@[simp] theorem State.mem_setCore (k : Nat) (x : CoreSt) : (s.setCore k x).mem = s.mem := rfl
@[simp] theorem State.ev_setCore (k : Nat) (x : CoreSt) : (s.setCore k x).ev = s.ev := rfl
@[simp] theorem State.downAt_setCore (k : Nat) (x : CoreSt) : (s.setCore k x).downAt = s.downAt := rfl
@[simp] theorem State.engs_setCore (k : Nat) (x : CoreSt) : (s.setCore k x).engs = s.engs := rfl
@[simp] theorem State.hubs_setCore (k : Nat) (x : CoreSt) : (s.setCore k x).hubs = s.hubs := rfl
@[simp] theorem State.ctxs_setCore (k : Nat) (x : CoreSt) : (s.setCore k x).ctxs = s.ctxs := rfl
@[simp] theorem State.admits_setCore (k : Nat) (x : CoreSt) : (s.setCore k x).admits = s.admits := rfl
@[simp] theorem State.seqs_setCore (k : Nat) (x : CoreSt) : (s.setCore k x).seqs = s.seqs := rfl
@[simp] theorem State.lease_setCore (k : Nat) (x : CoreSt) : (s.setCore k x).lease = s.lease := rfl
@[simp] theorem State.tlbHeld_setCore (k : Nat) (x : CoreSt) : (s.setCore k x).tlbHeld = s.tlbHeld := rfl
@[simp] theorem State.tlbCur_setCore (k : Nat) (x : CoreSt) : (s.setCore k x).tlbCur = s.tlbCur := rfl
@[simp] theorem State.hbm_setCore (k : Nat) (x : CoreSt) : (s.setCore k x).hbm = s.hbm := rfl
@[simp] theorem State.caches_setCore (k : Nat) (x : CoreSt) : (s.setCore k x).caches = s.caches := rfl
@[simp] theorem State.cacheReq_setCore (k : Nat) (x : CoreSt) : (s.setCore k x).cacheReq = s.cacheReq := rfl
@[simp] theorem State.fuses_setCore (k : Nat) (x : CoreSt) : (s.setCore k x).fuses = s.fuses := rfl
@[simp] theorem State.light_setCore (k : Nat) (x : CoreSt) : (s.setCore k x).light = s.light := rfl
@[simp] theorem State.linkTx_setCore (k : Nat) (x : CoreSt) : (s.setCore k x).linkTx = s.linkTx := rfl
@[simp] theorem State.net_setCore (k : Nat) (x : CoreSt) : (s.setCore k x).net = s.net := rfl
@[simp] theorem State.links_setCore (k : Nat) (x : CoreSt) : (s.setCore k x).links = s.links := rfl
@[simp] theorem State.claim_setCore (k : Nat) (x : CoreSt) : (s.setCore k x).claim = s.claim := rfl
@[simp] theorem State.mrs_setCore (k : Nat) (x : CoreSt) : (s.setCore k x).mrs = s.mrs := rfl
@[simp] theorem State.qps_setCore (k : Nat) (x : CoreSt) : (s.setCore k x).qps = s.qps := rfl
@[simp] theorem State.frames_setCore (k : Nat) (x : CoreSt) : (s.setCore k x).frames = s.frames := rfl
@[simp] theorem State.ports_setCore (k : Nat) (x : CoreSt) : (s.setCore k x).ports = s.ports := rfl
@[simp] theorem State.opts_setCore (k : Nat) (x : CoreSt) : (s.setCore k x).opts = s.opts := rfl
@[simp] theorem State.waves_setCore (k : Nat) (x : CoreSt) : (s.setCore k x).waves = s.waves := rfl
@[simp] theorem State.d2d_setCore (k : Nat) (x : CoreSt) : (s.setCore k x).d2d = s.d2d := rfl
@[simp] theorem State.pwr_setCore (k : Nat) (x : CoreSt) : (s.setCore k x).pwr = s.pwr := rfl
@[simp] theorem State.dies_setCore (k : Nat) (x : CoreSt) : (s.setCore k x).dies = s.dies := rfl
@[simp] theorem State.sensors_setCore (k : Nat) (x : CoreSt) : (s.setCore k x).sensors = s.sensors := rfl
@[simp] theorem State.energy_setCore (k : Nat) (x : CoreSt) : (s.setCore k x).energy = s.energy := rfl
@[simp] theorem State.serving_setCore (k : Nat) (x : CoreSt) : (s.setCore k x).serving = s.serving := rfl
@[simp] theorem State.boot_setCore (k : Nat) (x : CoreSt) : (s.setCore k x).boot = s.boot := rfl
@[simp] theorem State.testing_setCore (k : Nat) (x : CoreSt) : (s.setCore k x).testing = s.testing := rfl
@[simp] theorem State.missed_setCore (k : Nat) (x : CoreSt) : (s.setCore k x).missed = s.missed := rfl
@[simp] theorem State.shuts_setCore (k : Nat) (x : CoreSt) : (s.setCore k x).shuts = s.shuts := rfl
@[simp] theorem State.shutNo_setCore (k : Nat) (x : CoreSt) : (s.setCore k x).shutNo = s.shutNo := rfl
@[simp] theorem State.d2dSent_setCore (k : Nat) (x : CoreSt) : (s.setCore k x).d2dSent = s.d2dSent := rfl
@[simp] theorem State.planReady_setCore (k : Nat) (x : CoreSt) : (s.setCore k x).planReady = s.planReady := rfl
@[simp] theorem State.lateAborts_setCore (k : Nat) (x : CoreSt) : (s.setCore k x).lateAborts = s.lateAborts := rfl
@[simp] theorem State.lateStops_setCore (k : Nat) (x : CoreSt) : (s.setCore k x).lateStops = s.lateStops := rfl
@[simp] theorem State.met_setCore (k : Nat) (x : CoreSt) : (s.setCore k x).met = s.met := rfl
@[simp] theorem State.mirror_setCore (k : Nat) (x : CoreSt) : (s.setCore k x).mirror = s.mirror := rfl
@[simp] theorem State.mgmt_setCore (k : Nat) (x : CoreSt) : (s.setCore k x).mgmt = s.mgmt := rfl
@[simp] theorem State.ecpOut_setCore (k : Nat) (x : CoreSt) : (s.setCore k x).ecpOut = s.ecpOut := rfl

@[simp] theorem State.pending_setHub (t : Nat) (x : Hub) : (s.setHub t x).pending = s.pending := rfl
@[simp] theorem State.later_setHub (t : Nat) (x : Hub) : (s.setHub t x).later = s.later := rfl
@[simp] theorem State.tick_setHub (t : Nat) (x : Hub) : (s.setHub t x).tick = s.tick := rfl
@[simp] theorem State.freeCtr_setHub (t : Nat) (x : Hub) : (s.setHub t x).freeCtr = s.freeCtr := rfl
@[simp] theorem State.regs_setHub (t : Nat) (x : Hub) : (s.setHub t x).regs = s.regs := rfl
@[simp] theorem State.fresh_setHub (t : Nat) (x : Hub) : (s.setHub t x).fresh = s.fresh := rfl
@[simp] theorem State.answers_setHub (t : Nat) (x : Hub) : (s.setHub t x).answers = s.answers := rfl
@[simp] theorem State.mem_setHub (t : Nat) (x : Hub) : (s.setHub t x).mem = s.mem := rfl
@[simp] theorem State.ev_setHub (t : Nat) (x : Hub) : (s.setHub t x).ev = s.ev := rfl
@[simp] theorem State.downAt_setHub (t : Nat) (x : Hub) : (s.setHub t x).downAt = s.downAt := rfl
@[simp] theorem State.cores_setHub (t : Nat) (x : Hub) : (s.setHub t x).cores = s.cores := rfl
@[simp] theorem State.engs_setHub (t : Nat) (x : Hub) : (s.setHub t x).engs = s.engs := rfl
@[simp] theorem State.ctxs_setHub (t : Nat) (x : Hub) : (s.setHub t x).ctxs = s.ctxs := rfl
@[simp] theorem State.admits_setHub (t : Nat) (x : Hub) : (s.setHub t x).admits = s.admits := rfl
@[simp] theorem State.seqs_setHub (t : Nat) (x : Hub) : (s.setHub t x).seqs = s.seqs := rfl
@[simp] theorem State.lease_setHub (t : Nat) (x : Hub) : (s.setHub t x).lease = s.lease := rfl
@[simp] theorem State.tlbHeld_setHub (t : Nat) (x : Hub) : (s.setHub t x).tlbHeld = s.tlbHeld := rfl
@[simp] theorem State.tlbCur_setHub (t : Nat) (x : Hub) : (s.setHub t x).tlbCur = s.tlbCur := rfl
@[simp] theorem State.hbm_setHub (t : Nat) (x : Hub) : (s.setHub t x).hbm = s.hbm := rfl
@[simp] theorem State.caches_setHub (t : Nat) (x : Hub) : (s.setHub t x).caches = s.caches := rfl
@[simp] theorem State.cacheReq_setHub (t : Nat) (x : Hub) : (s.setHub t x).cacheReq = s.cacheReq := rfl
@[simp] theorem State.fuses_setHub (t : Nat) (x : Hub) : (s.setHub t x).fuses = s.fuses := rfl
@[simp] theorem State.light_setHub (t : Nat) (x : Hub) : (s.setHub t x).light = s.light := rfl
@[simp] theorem State.linkTx_setHub (t : Nat) (x : Hub) : (s.setHub t x).linkTx = s.linkTx := rfl
@[simp] theorem State.net_setHub (t : Nat) (x : Hub) : (s.setHub t x).net = s.net := rfl
@[simp] theorem State.links_setHub (t : Nat) (x : Hub) : (s.setHub t x).links = s.links := rfl
@[simp] theorem State.claim_setHub (t : Nat) (x : Hub) : (s.setHub t x).claim = s.claim := rfl
@[simp] theorem State.mrs_setHub (t : Nat) (x : Hub) : (s.setHub t x).mrs = s.mrs := rfl
@[simp] theorem State.qps_setHub (t : Nat) (x : Hub) : (s.setHub t x).qps = s.qps := rfl
@[simp] theorem State.frames_setHub (t : Nat) (x : Hub) : (s.setHub t x).frames = s.frames := rfl
@[simp] theorem State.ports_setHub (t : Nat) (x : Hub) : (s.setHub t x).ports = s.ports := rfl
@[simp] theorem State.opts_setHub (t : Nat) (x : Hub) : (s.setHub t x).opts = s.opts := rfl
@[simp] theorem State.waves_setHub (t : Nat) (x : Hub) : (s.setHub t x).waves = s.waves := rfl
@[simp] theorem State.d2d_setHub (t : Nat) (x : Hub) : (s.setHub t x).d2d = s.d2d := rfl
@[simp] theorem State.pwr_setHub (t : Nat) (x : Hub) : (s.setHub t x).pwr = s.pwr := rfl
@[simp] theorem State.dies_setHub (t : Nat) (x : Hub) : (s.setHub t x).dies = s.dies := rfl
@[simp] theorem State.sensors_setHub (t : Nat) (x : Hub) : (s.setHub t x).sensors = s.sensors := rfl
@[simp] theorem State.energy_setHub (t : Nat) (x : Hub) : (s.setHub t x).energy = s.energy := rfl
@[simp] theorem State.serving_setHub (t : Nat) (x : Hub) : (s.setHub t x).serving = s.serving := rfl
@[simp] theorem State.boot_setHub (t : Nat) (x : Hub) : (s.setHub t x).boot = s.boot := rfl
@[simp] theorem State.testing_setHub (t : Nat) (x : Hub) : (s.setHub t x).testing = s.testing := rfl
@[simp] theorem State.missed_setHub (t : Nat) (x : Hub) : (s.setHub t x).missed = s.missed := rfl
@[simp] theorem State.shuts_setHub (t : Nat) (x : Hub) : (s.setHub t x).shuts = s.shuts := rfl
@[simp] theorem State.shutNo_setHub (t : Nat) (x : Hub) : (s.setHub t x).shutNo = s.shutNo := rfl
@[simp] theorem State.d2dSent_setHub (t : Nat) (x : Hub) : (s.setHub t x).d2dSent = s.d2dSent := rfl
@[simp] theorem State.planReady_setHub (t : Nat) (x : Hub) : (s.setHub t x).planReady = s.planReady := rfl
@[simp] theorem State.lateAborts_setHub (t : Nat) (x : Hub) : (s.setHub t x).lateAborts = s.lateAborts := rfl
@[simp] theorem State.lateStops_setHub (t : Nat) (x : Hub) : (s.setHub t x).lateStops = s.lateStops := rfl
@[simp] theorem State.met_setHub (t : Nat) (x : Hub) : (s.setHub t x).met = s.met := rfl
@[simp] theorem State.mirror_setHub (t : Nat) (x : Hub) : (s.setHub t x).mirror = s.mirror := rfl
@[simp] theorem State.mgmt_setHub (t : Nat) (x : Hub) : (s.setHub t x).mgmt = s.mgmt := rfl
@[simp] theorem State.ecpOut_setHub (t : Nat) (x : Hub) : (s.setHub t x).ecpOut = s.ecpOut := rfl

@[simp] theorem State.pending_setCtx (c : Nat) (x : Ctx) : (s.setCtx c x).pending = s.pending := rfl
@[simp] theorem State.later_setCtx (c : Nat) (x : Ctx) : (s.setCtx c x).later = s.later := rfl
@[simp] theorem State.tick_setCtx (c : Nat) (x : Ctx) : (s.setCtx c x).tick = s.tick := rfl
@[simp] theorem State.freeCtr_setCtx (c : Nat) (x : Ctx) : (s.setCtx c x).freeCtr = s.freeCtr := rfl
@[simp] theorem State.regs_setCtx (c : Nat) (x : Ctx) : (s.setCtx c x).regs = s.regs := rfl
@[simp] theorem State.fresh_setCtx (c : Nat) (x : Ctx) : (s.setCtx c x).fresh = s.fresh := rfl
@[simp] theorem State.answers_setCtx (c : Nat) (x : Ctx) : (s.setCtx c x).answers = s.answers := rfl
@[simp] theorem State.mem_setCtx (c : Nat) (x : Ctx) : (s.setCtx c x).mem = s.mem := rfl
@[simp] theorem State.ev_setCtx (c : Nat) (x : Ctx) : (s.setCtx c x).ev = s.ev := rfl
@[simp] theorem State.downAt_setCtx (c : Nat) (x : Ctx) : (s.setCtx c x).downAt = s.downAt := rfl
@[simp] theorem State.cores_setCtx (c : Nat) (x : Ctx) : (s.setCtx c x).cores = s.cores := rfl
@[simp] theorem State.engs_setCtx (c : Nat) (x : Ctx) : (s.setCtx c x).engs = s.engs := rfl
@[simp] theorem State.hubs_setCtx (c : Nat) (x : Ctx) : (s.setCtx c x).hubs = s.hubs := rfl
@[simp] theorem State.admits_setCtx (c : Nat) (x : Ctx) : (s.setCtx c x).admits = s.admits := rfl
@[simp] theorem State.seqs_setCtx (c : Nat) (x : Ctx) : (s.setCtx c x).seqs = s.seqs := rfl
@[simp] theorem State.lease_setCtx (c : Nat) (x : Ctx) : (s.setCtx c x).lease = s.lease := rfl
@[simp] theorem State.tlbHeld_setCtx (c : Nat) (x : Ctx) : (s.setCtx c x).tlbHeld = s.tlbHeld := rfl
@[simp] theorem State.tlbCur_setCtx (c : Nat) (x : Ctx) : (s.setCtx c x).tlbCur = s.tlbCur := rfl
@[simp] theorem State.hbm_setCtx (c : Nat) (x : Ctx) : (s.setCtx c x).hbm = s.hbm := rfl
@[simp] theorem State.caches_setCtx (c : Nat) (x : Ctx) : (s.setCtx c x).caches = s.caches := rfl
@[simp] theorem State.cacheReq_setCtx (c : Nat) (x : Ctx) : (s.setCtx c x).cacheReq = s.cacheReq := rfl
@[simp] theorem State.fuses_setCtx (c : Nat) (x : Ctx) : (s.setCtx c x).fuses = s.fuses := rfl
@[simp] theorem State.light_setCtx (c : Nat) (x : Ctx) : (s.setCtx c x).light = s.light := rfl
@[simp] theorem State.linkTx_setCtx (c : Nat) (x : Ctx) : (s.setCtx c x).linkTx = s.linkTx := rfl
@[simp] theorem State.net_setCtx (c : Nat) (x : Ctx) : (s.setCtx c x).net = s.net := rfl
@[simp] theorem State.links_setCtx (c : Nat) (x : Ctx) : (s.setCtx c x).links = s.links := rfl
@[simp] theorem State.claim_setCtx (c : Nat) (x : Ctx) : (s.setCtx c x).claim = s.claim := rfl
@[simp] theorem State.mrs_setCtx (c : Nat) (x : Ctx) : (s.setCtx c x).mrs = s.mrs := rfl
@[simp] theorem State.qps_setCtx (c : Nat) (x : Ctx) : (s.setCtx c x).qps = s.qps := rfl
@[simp] theorem State.frames_setCtx (c : Nat) (x : Ctx) : (s.setCtx c x).frames = s.frames := rfl
@[simp] theorem State.ports_setCtx (c : Nat) (x : Ctx) : (s.setCtx c x).ports = s.ports := rfl
@[simp] theorem State.opts_setCtx (c : Nat) (x : Ctx) : (s.setCtx c x).opts = s.opts := rfl
@[simp] theorem State.waves_setCtx (c : Nat) (x : Ctx) : (s.setCtx c x).waves = s.waves := rfl
@[simp] theorem State.d2d_setCtx (c : Nat) (x : Ctx) : (s.setCtx c x).d2d = s.d2d := rfl
@[simp] theorem State.pwr_setCtx (c : Nat) (x : Ctx) : (s.setCtx c x).pwr = s.pwr := rfl
@[simp] theorem State.dies_setCtx (c : Nat) (x : Ctx) : (s.setCtx c x).dies = s.dies := rfl
@[simp] theorem State.sensors_setCtx (c : Nat) (x : Ctx) : (s.setCtx c x).sensors = s.sensors := rfl
@[simp] theorem State.energy_setCtx (c : Nat) (x : Ctx) : (s.setCtx c x).energy = s.energy := rfl
@[simp] theorem State.serving_setCtx (c : Nat) (x : Ctx) : (s.setCtx c x).serving = s.serving := rfl
@[simp] theorem State.boot_setCtx (c : Nat) (x : Ctx) : (s.setCtx c x).boot = s.boot := rfl
@[simp] theorem State.testing_setCtx (c : Nat) (x : Ctx) : (s.setCtx c x).testing = s.testing := rfl
@[simp] theorem State.missed_setCtx (c : Nat) (x : Ctx) : (s.setCtx c x).missed = s.missed := rfl
@[simp] theorem State.shuts_setCtx (c : Nat) (x : Ctx) : (s.setCtx c x).shuts = s.shuts := rfl
@[simp] theorem State.shutNo_setCtx (c : Nat) (x : Ctx) : (s.setCtx c x).shutNo = s.shutNo := rfl
@[simp] theorem State.d2dSent_setCtx (c : Nat) (x : Ctx) : (s.setCtx c x).d2dSent = s.d2dSent := rfl
@[simp] theorem State.planReady_setCtx (c : Nat) (x : Ctx) : (s.setCtx c x).planReady = s.planReady := rfl
@[simp] theorem State.lateAborts_setCtx (c : Nat) (x : Ctx) : (s.setCtx c x).lateAborts = s.lateAborts := rfl
@[simp] theorem State.lateStops_setCtx (c : Nat) (x : Ctx) : (s.setCtx c x).lateStops = s.lateStops := rfl
@[simp] theorem State.met_setCtx (c : Nat) (x : Ctx) : (s.setCtx c x).met = s.met := rfl
@[simp] theorem State.mirror_setCtx (c : Nat) (x : Ctx) : (s.setCtx c x).mirror = s.mirror := rfl
@[simp] theorem State.mgmt_setCtx (c : Nat) (x : Ctx) : (s.setCtx c x).mgmt = s.mgmt := rfl
@[simp] theorem State.ecpOut_setCtx (c : Nat) (x : Ctx) : (s.setCtx c x).ecpOut = s.ecpOut := rfl

@[simp] theorem State.pending_setSeq (t : Nat) (x : SeqSt) : (s.setSeq t x).pending = s.pending := rfl
@[simp] theorem State.later_setSeq (t : Nat) (x : SeqSt) : (s.setSeq t x).later = s.later := rfl
@[simp] theorem State.tick_setSeq (t : Nat) (x : SeqSt) : (s.setSeq t x).tick = s.tick := rfl
@[simp] theorem State.freeCtr_setSeq (t : Nat) (x : SeqSt) : (s.setSeq t x).freeCtr = s.freeCtr := rfl
@[simp] theorem State.regs_setSeq (t : Nat) (x : SeqSt) : (s.setSeq t x).regs = s.regs := rfl
@[simp] theorem State.fresh_setSeq (t : Nat) (x : SeqSt) : (s.setSeq t x).fresh = s.fresh := rfl
@[simp] theorem State.answers_setSeq (t : Nat) (x : SeqSt) : (s.setSeq t x).answers = s.answers := rfl
@[simp] theorem State.mem_setSeq (t : Nat) (x : SeqSt) : (s.setSeq t x).mem = s.mem := rfl
@[simp] theorem State.ev_setSeq (t : Nat) (x : SeqSt) : (s.setSeq t x).ev = s.ev := rfl
@[simp] theorem State.downAt_setSeq (t : Nat) (x : SeqSt) : (s.setSeq t x).downAt = s.downAt := rfl
@[simp] theorem State.cores_setSeq (t : Nat) (x : SeqSt) : (s.setSeq t x).cores = s.cores := rfl
@[simp] theorem State.engs_setSeq (t : Nat) (x : SeqSt) : (s.setSeq t x).engs = s.engs := rfl
@[simp] theorem State.hubs_setSeq (t : Nat) (x : SeqSt) : (s.setSeq t x).hubs = s.hubs := rfl
@[simp] theorem State.ctxs_setSeq (t : Nat) (x : SeqSt) : (s.setSeq t x).ctxs = s.ctxs := rfl
@[simp] theorem State.admits_setSeq (t : Nat) (x : SeqSt) : (s.setSeq t x).admits = s.admits := rfl
@[simp] theorem State.lease_setSeq (t : Nat) (x : SeqSt) : (s.setSeq t x).lease = s.lease := rfl
@[simp] theorem State.tlbHeld_setSeq (t : Nat) (x : SeqSt) : (s.setSeq t x).tlbHeld = s.tlbHeld := rfl
@[simp] theorem State.tlbCur_setSeq (t : Nat) (x : SeqSt) : (s.setSeq t x).tlbCur = s.tlbCur := rfl
@[simp] theorem State.hbm_setSeq (t : Nat) (x : SeqSt) : (s.setSeq t x).hbm = s.hbm := rfl
@[simp] theorem State.caches_setSeq (t : Nat) (x : SeqSt) : (s.setSeq t x).caches = s.caches := rfl
@[simp] theorem State.cacheReq_setSeq (t : Nat) (x : SeqSt) : (s.setSeq t x).cacheReq = s.cacheReq := rfl
@[simp] theorem State.fuses_setSeq (t : Nat) (x : SeqSt) : (s.setSeq t x).fuses = s.fuses := rfl
@[simp] theorem State.light_setSeq (t : Nat) (x : SeqSt) : (s.setSeq t x).light = s.light := rfl
@[simp] theorem State.linkTx_setSeq (t : Nat) (x : SeqSt) : (s.setSeq t x).linkTx = s.linkTx := rfl
@[simp] theorem State.net_setSeq (t : Nat) (x : SeqSt) : (s.setSeq t x).net = s.net := rfl
@[simp] theorem State.links_setSeq (t : Nat) (x : SeqSt) : (s.setSeq t x).links = s.links := rfl
@[simp] theorem State.claim_setSeq (t : Nat) (x : SeqSt) : (s.setSeq t x).claim = s.claim := rfl
@[simp] theorem State.mrs_setSeq (t : Nat) (x : SeqSt) : (s.setSeq t x).mrs = s.mrs := rfl
@[simp] theorem State.qps_setSeq (t : Nat) (x : SeqSt) : (s.setSeq t x).qps = s.qps := rfl
@[simp] theorem State.frames_setSeq (t : Nat) (x : SeqSt) : (s.setSeq t x).frames = s.frames := rfl
@[simp] theorem State.ports_setSeq (t : Nat) (x : SeqSt) : (s.setSeq t x).ports = s.ports := rfl
@[simp] theorem State.opts_setSeq (t : Nat) (x : SeqSt) : (s.setSeq t x).opts = s.opts := rfl
@[simp] theorem State.waves_setSeq (t : Nat) (x : SeqSt) : (s.setSeq t x).waves = s.waves := rfl
@[simp] theorem State.d2d_setSeq (t : Nat) (x : SeqSt) : (s.setSeq t x).d2d = s.d2d := rfl
@[simp] theorem State.pwr_setSeq (t : Nat) (x : SeqSt) : (s.setSeq t x).pwr = s.pwr := rfl
@[simp] theorem State.dies_setSeq (t : Nat) (x : SeqSt) : (s.setSeq t x).dies = s.dies := rfl
@[simp] theorem State.sensors_setSeq (t : Nat) (x : SeqSt) : (s.setSeq t x).sensors = s.sensors := rfl
@[simp] theorem State.energy_setSeq (t : Nat) (x : SeqSt) : (s.setSeq t x).energy = s.energy := rfl
@[simp] theorem State.serving_setSeq (t : Nat) (x : SeqSt) : (s.setSeq t x).serving = s.serving := rfl
@[simp] theorem State.boot_setSeq (t : Nat) (x : SeqSt) : (s.setSeq t x).boot = s.boot := rfl
@[simp] theorem State.testing_setSeq (t : Nat) (x : SeqSt) : (s.setSeq t x).testing = s.testing := rfl
@[simp] theorem State.missed_setSeq (t : Nat) (x : SeqSt) : (s.setSeq t x).missed = s.missed := rfl
@[simp] theorem State.shuts_setSeq (t : Nat) (x : SeqSt) : (s.setSeq t x).shuts = s.shuts := rfl
@[simp] theorem State.shutNo_setSeq (t : Nat) (x : SeqSt) : (s.setSeq t x).shutNo = s.shutNo := rfl
@[simp] theorem State.d2dSent_setSeq (t : Nat) (x : SeqSt) : (s.setSeq t x).d2dSent = s.d2dSent := rfl
@[simp] theorem State.planReady_setSeq (t : Nat) (x : SeqSt) : (s.setSeq t x).planReady = s.planReady := rfl
@[simp] theorem State.lateAborts_setSeq (t : Nat) (x : SeqSt) : (s.setSeq t x).lateAborts = s.lateAborts := rfl
@[simp] theorem State.lateStops_setSeq (t : Nat) (x : SeqSt) : (s.setSeq t x).lateStops = s.lateStops := rfl
@[simp] theorem State.met_setSeq (t : Nat) (x : SeqSt) : (s.setSeq t x).met = s.met := rfl
@[simp] theorem State.mirror_setSeq (t : Nat) (x : SeqSt) : (s.setSeq t x).mirror = s.mirror := rfl
@[simp] theorem State.mgmt_setSeq (t : Nat) (x : SeqSt) : (s.setSeq t x).mgmt = s.mgmt := rfl
@[simp] theorem State.ecpOut_setSeq (t : Nat) (x : SeqSt) : (s.setSeq t x).ecpOut = s.ecpOut := rfl

@[simp] theorem State.pending_setLink (l : Nat) (x : Lnk) : (s.setLink l x).pending = s.pending := rfl
@[simp] theorem State.later_setLink (l : Nat) (x : Lnk) : (s.setLink l x).later = s.later := rfl
@[simp] theorem State.tick_setLink (l : Nat) (x : Lnk) : (s.setLink l x).tick = s.tick := rfl
@[simp] theorem State.freeCtr_setLink (l : Nat) (x : Lnk) : (s.setLink l x).freeCtr = s.freeCtr := rfl
@[simp] theorem State.regs_setLink (l : Nat) (x : Lnk) : (s.setLink l x).regs = s.regs := rfl
@[simp] theorem State.fresh_setLink (l : Nat) (x : Lnk) : (s.setLink l x).fresh = s.fresh := rfl
@[simp] theorem State.answers_setLink (l : Nat) (x : Lnk) : (s.setLink l x).answers = s.answers := rfl
@[simp] theorem State.mem_setLink (l : Nat) (x : Lnk) : (s.setLink l x).mem = s.mem := rfl
@[simp] theorem State.ev_setLink (l : Nat) (x : Lnk) : (s.setLink l x).ev = s.ev := rfl
@[simp] theorem State.downAt_setLink (l : Nat) (x : Lnk) : (s.setLink l x).downAt = s.downAt := rfl
@[simp] theorem State.cores_setLink (l : Nat) (x : Lnk) : (s.setLink l x).cores = s.cores := rfl
@[simp] theorem State.engs_setLink (l : Nat) (x : Lnk) : (s.setLink l x).engs = s.engs := rfl
@[simp] theorem State.hubs_setLink (l : Nat) (x : Lnk) : (s.setLink l x).hubs = s.hubs := rfl
@[simp] theorem State.ctxs_setLink (l : Nat) (x : Lnk) : (s.setLink l x).ctxs = s.ctxs := rfl
@[simp] theorem State.admits_setLink (l : Nat) (x : Lnk) : (s.setLink l x).admits = s.admits := rfl
@[simp] theorem State.seqs_setLink (l : Nat) (x : Lnk) : (s.setLink l x).seqs = s.seqs := rfl
@[simp] theorem State.lease_setLink (l : Nat) (x : Lnk) : (s.setLink l x).lease = s.lease := rfl
@[simp] theorem State.tlbHeld_setLink (l : Nat) (x : Lnk) : (s.setLink l x).tlbHeld = s.tlbHeld := rfl
@[simp] theorem State.tlbCur_setLink (l : Nat) (x : Lnk) : (s.setLink l x).tlbCur = s.tlbCur := rfl
@[simp] theorem State.hbm_setLink (l : Nat) (x : Lnk) : (s.setLink l x).hbm = s.hbm := rfl
@[simp] theorem State.caches_setLink (l : Nat) (x : Lnk) : (s.setLink l x).caches = s.caches := rfl
@[simp] theorem State.cacheReq_setLink (l : Nat) (x : Lnk) : (s.setLink l x).cacheReq = s.cacheReq := rfl
@[simp] theorem State.fuses_setLink (l : Nat) (x : Lnk) : (s.setLink l x).fuses = s.fuses := rfl
@[simp] theorem State.light_setLink (l : Nat) (x : Lnk) : (s.setLink l x).light = s.light := rfl
@[simp] theorem State.linkTx_setLink (l : Nat) (x : Lnk) : (s.setLink l x).linkTx = s.linkTx := rfl
@[simp] theorem State.net_setLink (l : Nat) (x : Lnk) : (s.setLink l x).net = s.net := rfl
@[simp] theorem State.claim_setLink (l : Nat) (x : Lnk) : (s.setLink l x).claim = s.claim := rfl
@[simp] theorem State.mrs_setLink (l : Nat) (x : Lnk) : (s.setLink l x).mrs = s.mrs := rfl
@[simp] theorem State.qps_setLink (l : Nat) (x : Lnk) : (s.setLink l x).qps = s.qps := rfl
@[simp] theorem State.frames_setLink (l : Nat) (x : Lnk) : (s.setLink l x).frames = s.frames := rfl
@[simp] theorem State.ports_setLink (l : Nat) (x : Lnk) : (s.setLink l x).ports = s.ports := rfl
@[simp] theorem State.opts_setLink (l : Nat) (x : Lnk) : (s.setLink l x).opts = s.opts := rfl
@[simp] theorem State.waves_setLink (l : Nat) (x : Lnk) : (s.setLink l x).waves = s.waves := rfl
@[simp] theorem State.d2d_setLink (l : Nat) (x : Lnk) : (s.setLink l x).d2d = s.d2d := rfl
@[simp] theorem State.pwr_setLink (l : Nat) (x : Lnk) : (s.setLink l x).pwr = s.pwr := rfl
@[simp] theorem State.dies_setLink (l : Nat) (x : Lnk) : (s.setLink l x).dies = s.dies := rfl
@[simp] theorem State.sensors_setLink (l : Nat) (x : Lnk) : (s.setLink l x).sensors = s.sensors := rfl
@[simp] theorem State.energy_setLink (l : Nat) (x : Lnk) : (s.setLink l x).energy = s.energy := rfl
@[simp] theorem State.serving_setLink (l : Nat) (x : Lnk) : (s.setLink l x).serving = s.serving := rfl
@[simp] theorem State.boot_setLink (l : Nat) (x : Lnk) : (s.setLink l x).boot = s.boot := rfl
@[simp] theorem State.testing_setLink (l : Nat) (x : Lnk) : (s.setLink l x).testing = s.testing := rfl
@[simp] theorem State.missed_setLink (l : Nat) (x : Lnk) : (s.setLink l x).missed = s.missed := rfl
@[simp] theorem State.shuts_setLink (l : Nat) (x : Lnk) : (s.setLink l x).shuts = s.shuts := rfl
@[simp] theorem State.shutNo_setLink (l : Nat) (x : Lnk) : (s.setLink l x).shutNo = s.shutNo := rfl
@[simp] theorem State.d2dSent_setLink (l : Nat) (x : Lnk) : (s.setLink l x).d2dSent = s.d2dSent := rfl
@[simp] theorem State.planReady_setLink (l : Nat) (x : Lnk) : (s.setLink l x).planReady = s.planReady := rfl
@[simp] theorem State.lateAborts_setLink (l : Nat) (x : Lnk) : (s.setLink l x).lateAborts = s.lateAborts := rfl
@[simp] theorem State.lateStops_setLink (l : Nat) (x : Lnk) : (s.setLink l x).lateStops = s.lateStops := rfl
@[simp] theorem State.met_setLink (l : Nat) (x : Lnk) : (s.setLink l x).met = s.met := rfl
@[simp] theorem State.mirror_setLink (l : Nat) (x : Lnk) : (s.setLink l x).mirror = s.mirror := rfl
@[simp] theorem State.mgmt_setLink (l : Nat) (x : Lnk) : (s.setLink l x).mgmt = s.mgmt := rfl
@[simp] theorem State.ecpOut_setLink (l : Nat) (x : Lnk) : (s.setLink l x).ecpOut = s.ecpOut := rfl

@[simp] theorem State.pending_setHpt (p : Nat) (x : HptSt) : (s.setHpt p x).pending = s.pending := rfl
@[simp] theorem State.later_setHpt (p : Nat) (x : HptSt) : (s.setHpt p x).later = s.later := rfl
@[simp] theorem State.tick_setHpt (p : Nat) (x : HptSt) : (s.setHpt p x).tick = s.tick := rfl
@[simp] theorem State.freeCtr_setHpt (p : Nat) (x : HptSt) : (s.setHpt p x).freeCtr = s.freeCtr := rfl
@[simp] theorem State.regs_setHpt (p : Nat) (x : HptSt) : (s.setHpt p x).regs = s.regs := rfl
@[simp] theorem State.fresh_setHpt (p : Nat) (x : HptSt) : (s.setHpt p x).fresh = s.fresh := rfl
@[simp] theorem State.answers_setHpt (p : Nat) (x : HptSt) : (s.setHpt p x).answers = s.answers := rfl
@[simp] theorem State.mem_setHpt (p : Nat) (x : HptSt) : (s.setHpt p x).mem = s.mem := rfl
@[simp] theorem State.ev_setHpt (p : Nat) (x : HptSt) : (s.setHpt p x).ev = s.ev := rfl
@[simp] theorem State.downAt_setHpt (p : Nat) (x : HptSt) : (s.setHpt p x).downAt = s.downAt := rfl
@[simp] theorem State.cores_setHpt (p : Nat) (x : HptSt) : (s.setHpt p x).cores = s.cores := rfl
@[simp] theorem State.engs_setHpt (p : Nat) (x : HptSt) : (s.setHpt p x).engs = s.engs := rfl
@[simp] theorem State.hubs_setHpt (p : Nat) (x : HptSt) : (s.setHpt p x).hubs = s.hubs := rfl
@[simp] theorem State.ctxs_setHpt (p : Nat) (x : HptSt) : (s.setHpt p x).ctxs = s.ctxs := rfl
@[simp] theorem State.admits_setHpt (p : Nat) (x : HptSt) : (s.setHpt p x).admits = s.admits := rfl
@[simp] theorem State.seqs_setHpt (p : Nat) (x : HptSt) : (s.setHpt p x).seqs = s.seqs := rfl
@[simp] theorem State.lease_setHpt (p : Nat) (x : HptSt) : (s.setHpt p x).lease = s.lease := rfl
@[simp] theorem State.tlbHeld_setHpt (p : Nat) (x : HptSt) : (s.setHpt p x).tlbHeld = s.tlbHeld := rfl
@[simp] theorem State.tlbCur_setHpt (p : Nat) (x : HptSt) : (s.setHpt p x).tlbCur = s.tlbCur := rfl
@[simp] theorem State.hbm_setHpt (p : Nat) (x : HptSt) : (s.setHpt p x).hbm = s.hbm := rfl
@[simp] theorem State.caches_setHpt (p : Nat) (x : HptSt) : (s.setHpt p x).caches = s.caches := rfl
@[simp] theorem State.cacheReq_setHpt (p : Nat) (x : HptSt) : (s.setHpt p x).cacheReq = s.cacheReq := rfl
@[simp] theorem State.fuses_setHpt (p : Nat) (x : HptSt) : (s.setHpt p x).fuses = s.fuses := rfl
@[simp] theorem State.light_setHpt (p : Nat) (x : HptSt) : (s.setHpt p x).light = s.light := rfl
@[simp] theorem State.linkTx_setHpt (p : Nat) (x : HptSt) : (s.setHpt p x).linkTx = s.linkTx := rfl
@[simp] theorem State.net_setHpt (p : Nat) (x : HptSt) : (s.setHpt p x).net = s.net := rfl
@[simp] theorem State.links_setHpt (p : Nat) (x : HptSt) : (s.setHpt p x).links = s.links := rfl
@[simp] theorem State.claim_setHpt (p : Nat) (x : HptSt) : (s.setHpt p x).claim = s.claim := rfl
@[simp] theorem State.mrs_setHpt (p : Nat) (x : HptSt) : (s.setHpt p x).mrs = s.mrs := rfl
@[simp] theorem State.qps_setHpt (p : Nat) (x : HptSt) : (s.setHpt p x).qps = s.qps := rfl
@[simp] theorem State.frames_setHpt (p : Nat) (x : HptSt) : (s.setHpt p x).frames = s.frames := rfl
@[simp] theorem State.opts_setHpt (p : Nat) (x : HptSt) : (s.setHpt p x).opts = s.opts := rfl
@[simp] theorem State.waves_setHpt (p : Nat) (x : HptSt) : (s.setHpt p x).waves = s.waves := rfl
@[simp] theorem State.d2d_setHpt (p : Nat) (x : HptSt) : (s.setHpt p x).d2d = s.d2d := rfl
@[simp] theorem State.pwr_setHpt (p : Nat) (x : HptSt) : (s.setHpt p x).pwr = s.pwr := rfl
@[simp] theorem State.dies_setHpt (p : Nat) (x : HptSt) : (s.setHpt p x).dies = s.dies := rfl
@[simp] theorem State.sensors_setHpt (p : Nat) (x : HptSt) : (s.setHpt p x).sensors = s.sensors := rfl
@[simp] theorem State.energy_setHpt (p : Nat) (x : HptSt) : (s.setHpt p x).energy = s.energy := rfl
@[simp] theorem State.serving_setHpt (p : Nat) (x : HptSt) : (s.setHpt p x).serving = s.serving := rfl
@[simp] theorem State.boot_setHpt (p : Nat) (x : HptSt) : (s.setHpt p x).boot = s.boot := rfl
@[simp] theorem State.testing_setHpt (p : Nat) (x : HptSt) : (s.setHpt p x).testing = s.testing := rfl
@[simp] theorem State.missed_setHpt (p : Nat) (x : HptSt) : (s.setHpt p x).missed = s.missed := rfl
@[simp] theorem State.shuts_setHpt (p : Nat) (x : HptSt) : (s.setHpt p x).shuts = s.shuts := rfl
@[simp] theorem State.shutNo_setHpt (p : Nat) (x : HptSt) : (s.setHpt p x).shutNo = s.shutNo := rfl
@[simp] theorem State.d2dSent_setHpt (p : Nat) (x : HptSt) : (s.setHpt p x).d2dSent = s.d2dSent := rfl
@[simp] theorem State.planReady_setHpt (p : Nat) (x : HptSt) : (s.setHpt p x).planReady = s.planReady := rfl
@[simp] theorem State.lateAborts_setHpt (p : Nat) (x : HptSt) : (s.setHpt p x).lateAborts = s.lateAborts := rfl
@[simp] theorem State.lateStops_setHpt (p : Nat) (x : HptSt) : (s.setHpt p x).lateStops = s.lateStops := rfl
@[simp] theorem State.met_setHpt (p : Nat) (x : HptSt) : (s.setHpt p x).met = s.met := rfl
@[simp] theorem State.mirror_setHpt (p : Nat) (x : HptSt) : (s.setHpt p x).mirror = s.mirror := rfl
@[simp] theorem State.mgmt_setHpt (p : Nat) (x : HptSt) : (s.setHpt p x).mgmt = s.mgmt := rfl
@[simp] theorem State.ecpOut_setHpt (p : Nat) (x : HptSt) : (s.setHpt p x).ecpOut = s.ecpOut := rfl

@[simp] theorem State.pending_setOpt (l : Nat) (x : OptSt) : (s.setOpt l x).pending = s.pending := rfl
@[simp] theorem State.later_setOpt (l : Nat) (x : OptSt) : (s.setOpt l x).later = s.later := rfl
@[simp] theorem State.tick_setOpt (l : Nat) (x : OptSt) : (s.setOpt l x).tick = s.tick := rfl
@[simp] theorem State.freeCtr_setOpt (l : Nat) (x : OptSt) : (s.setOpt l x).freeCtr = s.freeCtr := rfl
@[simp] theorem State.regs_setOpt (l : Nat) (x : OptSt) : (s.setOpt l x).regs = s.regs := rfl
@[simp] theorem State.fresh_setOpt (l : Nat) (x : OptSt) : (s.setOpt l x).fresh = s.fresh := rfl
@[simp] theorem State.answers_setOpt (l : Nat) (x : OptSt) : (s.setOpt l x).answers = s.answers := rfl
@[simp] theorem State.mem_setOpt (l : Nat) (x : OptSt) : (s.setOpt l x).mem = s.mem := rfl
@[simp] theorem State.ev_setOpt (l : Nat) (x : OptSt) : (s.setOpt l x).ev = s.ev := rfl
@[simp] theorem State.downAt_setOpt (l : Nat) (x : OptSt) : (s.setOpt l x).downAt = s.downAt := rfl
@[simp] theorem State.cores_setOpt (l : Nat) (x : OptSt) : (s.setOpt l x).cores = s.cores := rfl
@[simp] theorem State.engs_setOpt (l : Nat) (x : OptSt) : (s.setOpt l x).engs = s.engs := rfl
@[simp] theorem State.hubs_setOpt (l : Nat) (x : OptSt) : (s.setOpt l x).hubs = s.hubs := rfl
@[simp] theorem State.ctxs_setOpt (l : Nat) (x : OptSt) : (s.setOpt l x).ctxs = s.ctxs := rfl
@[simp] theorem State.admits_setOpt (l : Nat) (x : OptSt) : (s.setOpt l x).admits = s.admits := rfl
@[simp] theorem State.seqs_setOpt (l : Nat) (x : OptSt) : (s.setOpt l x).seqs = s.seqs := rfl
@[simp] theorem State.lease_setOpt (l : Nat) (x : OptSt) : (s.setOpt l x).lease = s.lease := rfl
@[simp] theorem State.tlbHeld_setOpt (l : Nat) (x : OptSt) : (s.setOpt l x).tlbHeld = s.tlbHeld := rfl
@[simp] theorem State.tlbCur_setOpt (l : Nat) (x : OptSt) : (s.setOpt l x).tlbCur = s.tlbCur := rfl
@[simp] theorem State.hbm_setOpt (l : Nat) (x : OptSt) : (s.setOpt l x).hbm = s.hbm := rfl
@[simp] theorem State.caches_setOpt (l : Nat) (x : OptSt) : (s.setOpt l x).caches = s.caches := rfl
@[simp] theorem State.cacheReq_setOpt (l : Nat) (x : OptSt) : (s.setOpt l x).cacheReq = s.cacheReq := rfl
@[simp] theorem State.fuses_setOpt (l : Nat) (x : OptSt) : (s.setOpt l x).fuses = s.fuses := rfl
@[simp] theorem State.light_setOpt (l : Nat) (x : OptSt) : (s.setOpt l x).light = s.light := rfl
@[simp] theorem State.linkTx_setOpt (l : Nat) (x : OptSt) : (s.setOpt l x).linkTx = s.linkTx := rfl
@[simp] theorem State.net_setOpt (l : Nat) (x : OptSt) : (s.setOpt l x).net = s.net := rfl
@[simp] theorem State.links_setOpt (l : Nat) (x : OptSt) : (s.setOpt l x).links = s.links := rfl
@[simp] theorem State.claim_setOpt (l : Nat) (x : OptSt) : (s.setOpt l x).claim = s.claim := rfl
@[simp] theorem State.mrs_setOpt (l : Nat) (x : OptSt) : (s.setOpt l x).mrs = s.mrs := rfl
@[simp] theorem State.qps_setOpt (l : Nat) (x : OptSt) : (s.setOpt l x).qps = s.qps := rfl
@[simp] theorem State.frames_setOpt (l : Nat) (x : OptSt) : (s.setOpt l x).frames = s.frames := rfl
@[simp] theorem State.ports_setOpt (l : Nat) (x : OptSt) : (s.setOpt l x).ports = s.ports := rfl
@[simp] theorem State.waves_setOpt (l : Nat) (x : OptSt) : (s.setOpt l x).waves = s.waves := rfl
@[simp] theorem State.d2d_setOpt (l : Nat) (x : OptSt) : (s.setOpt l x).d2d = s.d2d := rfl
@[simp] theorem State.pwr_setOpt (l : Nat) (x : OptSt) : (s.setOpt l x).pwr = s.pwr := rfl
@[simp] theorem State.dies_setOpt (l : Nat) (x : OptSt) : (s.setOpt l x).dies = s.dies := rfl
@[simp] theorem State.sensors_setOpt (l : Nat) (x : OptSt) : (s.setOpt l x).sensors = s.sensors := rfl
@[simp] theorem State.energy_setOpt (l : Nat) (x : OptSt) : (s.setOpt l x).energy = s.energy := rfl
@[simp] theorem State.serving_setOpt (l : Nat) (x : OptSt) : (s.setOpt l x).serving = s.serving := rfl
@[simp] theorem State.boot_setOpt (l : Nat) (x : OptSt) : (s.setOpt l x).boot = s.boot := rfl
@[simp] theorem State.testing_setOpt (l : Nat) (x : OptSt) : (s.setOpt l x).testing = s.testing := rfl
@[simp] theorem State.missed_setOpt (l : Nat) (x : OptSt) : (s.setOpt l x).missed = s.missed := rfl
@[simp] theorem State.shuts_setOpt (l : Nat) (x : OptSt) : (s.setOpt l x).shuts = s.shuts := rfl
@[simp] theorem State.shutNo_setOpt (l : Nat) (x : OptSt) : (s.setOpt l x).shutNo = s.shutNo := rfl
@[simp] theorem State.d2dSent_setOpt (l : Nat) (x : OptSt) : (s.setOpt l x).d2dSent = s.d2dSent := rfl
@[simp] theorem State.planReady_setOpt (l : Nat) (x : OptSt) : (s.setOpt l x).planReady = s.planReady := rfl
@[simp] theorem State.lateAborts_setOpt (l : Nat) (x : OptSt) : (s.setOpt l x).lateAborts = s.lateAborts := rfl
@[simp] theorem State.lateStops_setOpt (l : Nat) (x : OptSt) : (s.setOpt l x).lateStops = s.lateStops := rfl
@[simp] theorem State.met_setOpt (l : Nat) (x : OptSt) : (s.setOpt l x).met = s.met := rfl
@[simp] theorem State.mirror_setOpt (l : Nat) (x : OptSt) : (s.setOpt l x).mirror = s.mirror := rfl
@[simp] theorem State.mgmt_setOpt (l : Nat) (x : OptSt) : (s.setOpt l x).mgmt = s.mgmt := rfl
@[simp] theorem State.ecpOut_setOpt (l : Nat) (x : OptSt) : (s.setOpt l x).ecpOut = s.ecpOut := rfl

@[simp] theorem State.pending_setMgmt (x : MgmtSt) : (s.setMgmt x).pending = s.pending := rfl
@[simp] theorem State.later_setMgmt (x : MgmtSt) : (s.setMgmt x).later = s.later := rfl
@[simp] theorem State.tick_setMgmt (x : MgmtSt) : (s.setMgmt x).tick = s.tick := rfl
@[simp] theorem State.freeCtr_setMgmt (x : MgmtSt) : (s.setMgmt x).freeCtr = s.freeCtr := rfl
@[simp] theorem State.regs_setMgmt (x : MgmtSt) : (s.setMgmt x).regs = s.regs := rfl
@[simp] theorem State.fresh_setMgmt (x : MgmtSt) : (s.setMgmt x).fresh = s.fresh := rfl
@[simp] theorem State.answers_setMgmt (x : MgmtSt) : (s.setMgmt x).answers = s.answers := rfl
@[simp] theorem State.mem_setMgmt (x : MgmtSt) : (s.setMgmt x).mem = s.mem := rfl
@[simp] theorem State.ev_setMgmt (x : MgmtSt) : (s.setMgmt x).ev = s.ev := rfl
@[simp] theorem State.downAt_setMgmt (x : MgmtSt) : (s.setMgmt x).downAt = s.downAt := rfl
@[simp] theorem State.cores_setMgmt (x : MgmtSt) : (s.setMgmt x).cores = s.cores := rfl
@[simp] theorem State.engs_setMgmt (x : MgmtSt) : (s.setMgmt x).engs = s.engs := rfl
@[simp] theorem State.hubs_setMgmt (x : MgmtSt) : (s.setMgmt x).hubs = s.hubs := rfl
@[simp] theorem State.ctxs_setMgmt (x : MgmtSt) : (s.setMgmt x).ctxs = s.ctxs := rfl
@[simp] theorem State.admits_setMgmt (x : MgmtSt) : (s.setMgmt x).admits = s.admits := rfl
@[simp] theorem State.seqs_setMgmt (x : MgmtSt) : (s.setMgmt x).seqs = s.seqs := rfl
@[simp] theorem State.lease_setMgmt (x : MgmtSt) : (s.setMgmt x).lease = s.lease := rfl
@[simp] theorem State.tlbHeld_setMgmt (x : MgmtSt) : (s.setMgmt x).tlbHeld = s.tlbHeld := rfl
@[simp] theorem State.tlbCur_setMgmt (x : MgmtSt) : (s.setMgmt x).tlbCur = s.tlbCur := rfl
@[simp] theorem State.hbm_setMgmt (x : MgmtSt) : (s.setMgmt x).hbm = s.hbm := rfl
@[simp] theorem State.caches_setMgmt (x : MgmtSt) : (s.setMgmt x).caches = s.caches := rfl
@[simp] theorem State.cacheReq_setMgmt (x : MgmtSt) : (s.setMgmt x).cacheReq = s.cacheReq := rfl
@[simp] theorem State.fuses_setMgmt (x : MgmtSt) : (s.setMgmt x).fuses = s.fuses := rfl
@[simp] theorem State.light_setMgmt (x : MgmtSt) : (s.setMgmt x).light = s.light := rfl
@[simp] theorem State.linkTx_setMgmt (x : MgmtSt) : (s.setMgmt x).linkTx = s.linkTx := rfl
@[simp] theorem State.net_setMgmt (x : MgmtSt) : (s.setMgmt x).net = s.net := rfl
@[simp] theorem State.links_setMgmt (x : MgmtSt) : (s.setMgmt x).links = s.links := rfl
@[simp] theorem State.claim_setMgmt (x : MgmtSt) : (s.setMgmt x).claim = s.claim := rfl
@[simp] theorem State.mrs_setMgmt (x : MgmtSt) : (s.setMgmt x).mrs = s.mrs := rfl
@[simp] theorem State.qps_setMgmt (x : MgmtSt) : (s.setMgmt x).qps = s.qps := rfl
@[simp] theorem State.frames_setMgmt (x : MgmtSt) : (s.setMgmt x).frames = s.frames := rfl
@[simp] theorem State.ports_setMgmt (x : MgmtSt) : (s.setMgmt x).ports = s.ports := rfl
@[simp] theorem State.opts_setMgmt (x : MgmtSt) : (s.setMgmt x).opts = s.opts := rfl
@[simp] theorem State.waves_setMgmt (x : MgmtSt) : (s.setMgmt x).waves = s.waves := rfl
@[simp] theorem State.d2d_setMgmt (x : MgmtSt) : (s.setMgmt x).d2d = s.d2d := rfl
@[simp] theorem State.pwr_setMgmt (x : MgmtSt) : (s.setMgmt x).pwr = s.pwr := rfl
@[simp] theorem State.dies_setMgmt (x : MgmtSt) : (s.setMgmt x).dies = s.dies := rfl
@[simp] theorem State.sensors_setMgmt (x : MgmtSt) : (s.setMgmt x).sensors = s.sensors := rfl
@[simp] theorem State.energy_setMgmt (x : MgmtSt) : (s.setMgmt x).energy = s.energy := rfl
@[simp] theorem State.serving_setMgmt (x : MgmtSt) : (s.setMgmt x).serving = s.serving := rfl
@[simp] theorem State.boot_setMgmt (x : MgmtSt) : (s.setMgmt x).boot = s.boot := rfl
@[simp] theorem State.testing_setMgmt (x : MgmtSt) : (s.setMgmt x).testing = s.testing := rfl
@[simp] theorem State.missed_setMgmt (x : MgmtSt) : (s.setMgmt x).missed = s.missed := rfl
@[simp] theorem State.shuts_setMgmt (x : MgmtSt) : (s.setMgmt x).shuts = s.shuts := rfl
@[simp] theorem State.shutNo_setMgmt (x : MgmtSt) : (s.setMgmt x).shutNo = s.shutNo := rfl
@[simp] theorem State.d2dSent_setMgmt (x : MgmtSt) : (s.setMgmt x).d2dSent = s.d2dSent := rfl
@[simp] theorem State.planReady_setMgmt (x : MgmtSt) : (s.setMgmt x).planReady = s.planReady := rfl
@[simp] theorem State.lateAborts_setMgmt (x : MgmtSt) : (s.setMgmt x).lateAborts = s.lateAborts := rfl
@[simp] theorem State.lateStops_setMgmt (x : MgmtSt) : (s.setMgmt x).lateStops = s.lateStops := rfl
@[simp] theorem State.met_setMgmt (x : MgmtSt) : (s.setMgmt x).met = s.met := rfl
@[simp] theorem State.mirror_setMgmt (x : MgmtSt) : (s.setMgmt x).mirror = s.mirror := rfl
@[simp] theorem State.ecpOut_setMgmt (x : MgmtSt) : (s.setMgmt x).ecpOut = s.ecpOut := rfl

@[simp] theorem State.pending_setMet (x : MetSt) : (s.setMet x).pending = s.pending := rfl
@[simp] theorem State.later_setMet (x : MetSt) : (s.setMet x).later = s.later := rfl
@[simp] theorem State.tick_setMet (x : MetSt) : (s.setMet x).tick = s.tick := rfl
@[simp] theorem State.freeCtr_setMet (x : MetSt) : (s.setMet x).freeCtr = s.freeCtr := rfl
@[simp] theorem State.regs_setMet (x : MetSt) : (s.setMet x).regs = s.regs := rfl
@[simp] theorem State.fresh_setMet (x : MetSt) : (s.setMet x).fresh = s.fresh := rfl
@[simp] theorem State.answers_setMet (x : MetSt) : (s.setMet x).answers = s.answers := rfl
@[simp] theorem State.mem_setMet (x : MetSt) : (s.setMet x).mem = s.mem := rfl
@[simp] theorem State.ev_setMet (x : MetSt) : (s.setMet x).ev = s.ev := rfl
@[simp] theorem State.downAt_setMet (x : MetSt) : (s.setMet x).downAt = s.downAt := rfl
@[simp] theorem State.cores_setMet (x : MetSt) : (s.setMet x).cores = s.cores := rfl
@[simp] theorem State.engs_setMet (x : MetSt) : (s.setMet x).engs = s.engs := rfl
@[simp] theorem State.hubs_setMet (x : MetSt) : (s.setMet x).hubs = s.hubs := rfl
@[simp] theorem State.ctxs_setMet (x : MetSt) : (s.setMet x).ctxs = s.ctxs := rfl
@[simp] theorem State.admits_setMet (x : MetSt) : (s.setMet x).admits = s.admits := rfl
@[simp] theorem State.seqs_setMet (x : MetSt) : (s.setMet x).seqs = s.seqs := rfl
@[simp] theorem State.lease_setMet (x : MetSt) : (s.setMet x).lease = s.lease := rfl
@[simp] theorem State.tlbHeld_setMet (x : MetSt) : (s.setMet x).tlbHeld = s.tlbHeld := rfl
@[simp] theorem State.tlbCur_setMet (x : MetSt) : (s.setMet x).tlbCur = s.tlbCur := rfl
@[simp] theorem State.hbm_setMet (x : MetSt) : (s.setMet x).hbm = s.hbm := rfl
@[simp] theorem State.caches_setMet (x : MetSt) : (s.setMet x).caches = s.caches := rfl
@[simp] theorem State.cacheReq_setMet (x : MetSt) : (s.setMet x).cacheReq = s.cacheReq := rfl
@[simp] theorem State.fuses_setMet (x : MetSt) : (s.setMet x).fuses = s.fuses := rfl
@[simp] theorem State.light_setMet (x : MetSt) : (s.setMet x).light = s.light := rfl
@[simp] theorem State.linkTx_setMet (x : MetSt) : (s.setMet x).linkTx = s.linkTx := rfl
@[simp] theorem State.net_setMet (x : MetSt) : (s.setMet x).net = s.net := rfl
@[simp] theorem State.links_setMet (x : MetSt) : (s.setMet x).links = s.links := rfl
@[simp] theorem State.claim_setMet (x : MetSt) : (s.setMet x).claim = s.claim := rfl
@[simp] theorem State.mrs_setMet (x : MetSt) : (s.setMet x).mrs = s.mrs := rfl
@[simp] theorem State.qps_setMet (x : MetSt) : (s.setMet x).qps = s.qps := rfl
@[simp] theorem State.frames_setMet (x : MetSt) : (s.setMet x).frames = s.frames := rfl
@[simp] theorem State.ports_setMet (x : MetSt) : (s.setMet x).ports = s.ports := rfl
@[simp] theorem State.opts_setMet (x : MetSt) : (s.setMet x).opts = s.opts := rfl
@[simp] theorem State.waves_setMet (x : MetSt) : (s.setMet x).waves = s.waves := rfl
@[simp] theorem State.d2d_setMet (x : MetSt) : (s.setMet x).d2d = s.d2d := rfl
@[simp] theorem State.pwr_setMet (x : MetSt) : (s.setMet x).pwr = s.pwr := rfl
@[simp] theorem State.dies_setMet (x : MetSt) : (s.setMet x).dies = s.dies := rfl
@[simp] theorem State.sensors_setMet (x : MetSt) : (s.setMet x).sensors = s.sensors := rfl
@[simp] theorem State.energy_setMet (x : MetSt) : (s.setMet x).energy = s.energy := rfl
@[simp] theorem State.serving_setMet (x : MetSt) : (s.setMet x).serving = s.serving := rfl
@[simp] theorem State.boot_setMet (x : MetSt) : (s.setMet x).boot = s.boot := rfl
@[simp] theorem State.testing_setMet (x : MetSt) : (s.setMet x).testing = s.testing := rfl
@[simp] theorem State.missed_setMet (x : MetSt) : (s.setMet x).missed = s.missed := rfl
@[simp] theorem State.shuts_setMet (x : MetSt) : (s.setMet x).shuts = s.shuts := rfl
@[simp] theorem State.shutNo_setMet (x : MetSt) : (s.setMet x).shutNo = s.shutNo := rfl
@[simp] theorem State.d2dSent_setMet (x : MetSt) : (s.setMet x).d2dSent = s.d2dSent := rfl
@[simp] theorem State.planReady_setMet (x : MetSt) : (s.setMet x).planReady = s.planReady := rfl
@[simp] theorem State.lateAborts_setMet (x : MetSt) : (s.setMet x).lateAborts = s.lateAborts := rfl
@[simp] theorem State.lateStops_setMet (x : MetSt) : (s.setMet x).lateStops = s.lateStops := rfl
@[simp] theorem State.mirror_setMet (x : MetSt) : (s.setMet x).mirror = s.mirror := rfl
@[simp] theorem State.mgmt_setMet (x : MetSt) : (s.setMet x).mgmt = s.mgmt := rfl
@[simp] theorem State.ecpOut_setMet (x : MetSt) : (s.setMet x).ecpOut = s.ecpOut := rfl

@[simp] theorem State.pending_setDie (d : Nat) (x : DiePwr) : (s.setDie d x).pending = s.pending := rfl
@[simp] theorem State.later_setDie (d : Nat) (x : DiePwr) : (s.setDie d x).later = s.later := rfl
@[simp] theorem State.tick_setDie (d : Nat) (x : DiePwr) : (s.setDie d x).tick = s.tick := rfl
@[simp] theorem State.freeCtr_setDie (d : Nat) (x : DiePwr) : (s.setDie d x).freeCtr = s.freeCtr := rfl
@[simp] theorem State.regs_setDie (d : Nat) (x : DiePwr) : (s.setDie d x).regs = s.regs := rfl
@[simp] theorem State.fresh_setDie (d : Nat) (x : DiePwr) : (s.setDie d x).fresh = s.fresh := rfl
@[simp] theorem State.answers_setDie (d : Nat) (x : DiePwr) : (s.setDie d x).answers = s.answers := rfl
@[simp] theorem State.mem_setDie (d : Nat) (x : DiePwr) : (s.setDie d x).mem = s.mem := rfl
@[simp] theorem State.ev_setDie (d : Nat) (x : DiePwr) : (s.setDie d x).ev = s.ev := rfl
@[simp] theorem State.downAt_setDie (d : Nat) (x : DiePwr) : (s.setDie d x).downAt = s.downAt := rfl
@[simp] theorem State.cores_setDie (d : Nat) (x : DiePwr) : (s.setDie d x).cores = s.cores := rfl
@[simp] theorem State.engs_setDie (d : Nat) (x : DiePwr) : (s.setDie d x).engs = s.engs := rfl
@[simp] theorem State.hubs_setDie (d : Nat) (x : DiePwr) : (s.setDie d x).hubs = s.hubs := rfl
@[simp] theorem State.ctxs_setDie (d : Nat) (x : DiePwr) : (s.setDie d x).ctxs = s.ctxs := rfl
@[simp] theorem State.admits_setDie (d : Nat) (x : DiePwr) : (s.setDie d x).admits = s.admits := rfl
@[simp] theorem State.seqs_setDie (d : Nat) (x : DiePwr) : (s.setDie d x).seqs = s.seqs := rfl
@[simp] theorem State.lease_setDie (d : Nat) (x : DiePwr) : (s.setDie d x).lease = s.lease := rfl
@[simp] theorem State.tlbHeld_setDie (d : Nat) (x : DiePwr) : (s.setDie d x).tlbHeld = s.tlbHeld := rfl
@[simp] theorem State.tlbCur_setDie (d : Nat) (x : DiePwr) : (s.setDie d x).tlbCur = s.tlbCur := rfl
@[simp] theorem State.hbm_setDie (d : Nat) (x : DiePwr) : (s.setDie d x).hbm = s.hbm := rfl
@[simp] theorem State.caches_setDie (d : Nat) (x : DiePwr) : (s.setDie d x).caches = s.caches := rfl
@[simp] theorem State.cacheReq_setDie (d : Nat) (x : DiePwr) : (s.setDie d x).cacheReq = s.cacheReq := rfl
@[simp] theorem State.fuses_setDie (d : Nat) (x : DiePwr) : (s.setDie d x).fuses = s.fuses := rfl
@[simp] theorem State.light_setDie (d : Nat) (x : DiePwr) : (s.setDie d x).light = s.light := rfl
@[simp] theorem State.linkTx_setDie (d : Nat) (x : DiePwr) : (s.setDie d x).linkTx = s.linkTx := rfl
@[simp] theorem State.net_setDie (d : Nat) (x : DiePwr) : (s.setDie d x).net = s.net := rfl
@[simp] theorem State.links_setDie (d : Nat) (x : DiePwr) : (s.setDie d x).links = s.links := rfl
@[simp] theorem State.claim_setDie (d : Nat) (x : DiePwr) : (s.setDie d x).claim = s.claim := rfl
@[simp] theorem State.mrs_setDie (d : Nat) (x : DiePwr) : (s.setDie d x).mrs = s.mrs := rfl
@[simp] theorem State.qps_setDie (d : Nat) (x : DiePwr) : (s.setDie d x).qps = s.qps := rfl
@[simp] theorem State.frames_setDie (d : Nat) (x : DiePwr) : (s.setDie d x).frames = s.frames := rfl
@[simp] theorem State.ports_setDie (d : Nat) (x : DiePwr) : (s.setDie d x).ports = s.ports := rfl
@[simp] theorem State.opts_setDie (d : Nat) (x : DiePwr) : (s.setDie d x).opts = s.opts := rfl
@[simp] theorem State.waves_setDie (d : Nat) (x : DiePwr) : (s.setDie d x).waves = s.waves := rfl
@[simp] theorem State.d2d_setDie (d : Nat) (x : DiePwr) : (s.setDie d x).d2d = s.d2d := rfl
@[simp] theorem State.pwr_setDie (d : Nat) (x : DiePwr) : (s.setDie d x).pwr = s.pwr := rfl
@[simp] theorem State.sensors_setDie (d : Nat) (x : DiePwr) : (s.setDie d x).sensors = s.sensors := rfl
@[simp] theorem State.energy_setDie (d : Nat) (x : DiePwr) : (s.setDie d x).energy = s.energy := rfl
@[simp] theorem State.serving_setDie (d : Nat) (x : DiePwr) : (s.setDie d x).serving = s.serving := rfl
@[simp] theorem State.boot_setDie (d : Nat) (x : DiePwr) : (s.setDie d x).boot = s.boot := rfl
@[simp] theorem State.testing_setDie (d : Nat) (x : DiePwr) : (s.setDie d x).testing = s.testing := rfl
@[simp] theorem State.missed_setDie (d : Nat) (x : DiePwr) : (s.setDie d x).missed = s.missed := rfl
@[simp] theorem State.shuts_setDie (d : Nat) (x : DiePwr) : (s.setDie d x).shuts = s.shuts := rfl
@[simp] theorem State.shutNo_setDie (d : Nat) (x : DiePwr) : (s.setDie d x).shutNo = s.shutNo := rfl
@[simp] theorem State.d2dSent_setDie (d : Nat) (x : DiePwr) : (s.setDie d x).d2dSent = s.d2dSent := rfl
@[simp] theorem State.planReady_setDie (d : Nat) (x : DiePwr) : (s.setDie d x).planReady = s.planReady := rfl
@[simp] theorem State.lateAborts_setDie (d : Nat) (x : DiePwr) : (s.setDie d x).lateAborts = s.lateAborts := rfl
@[simp] theorem State.lateStops_setDie (d : Nat) (x : DiePwr) : (s.setDie d x).lateStops = s.lateStops := rfl
@[simp] theorem State.met_setDie (d : Nat) (x : DiePwr) : (s.setDie d x).met = s.met := rfl
@[simp] theorem State.mirror_setDie (d : Nat) (x : DiePwr) : (s.setDie d x).mirror = s.mirror := rfl
@[simp] theorem State.mgmt_setDie (d : Nat) (x : DiePwr) : (s.setDie d x).mgmt = s.mgmt := rfl
@[simp] theorem State.ecpOut_setDie (d : Nat) (x : DiePwr) : (s.setDie d x).ecpOut = s.ecpOut := rfl

@[simp] theorem State.pending_setSens (t : Nat) (x : Sensors) : (s.setSens t x).pending = s.pending := rfl
@[simp] theorem State.later_setSens (t : Nat) (x : Sensors) : (s.setSens t x).later = s.later := rfl
@[simp] theorem State.tick_setSens (t : Nat) (x : Sensors) : (s.setSens t x).tick = s.tick := rfl
@[simp] theorem State.freeCtr_setSens (t : Nat) (x : Sensors) : (s.setSens t x).freeCtr = s.freeCtr := rfl
@[simp] theorem State.regs_setSens (t : Nat) (x : Sensors) : (s.setSens t x).regs = s.regs := rfl
@[simp] theorem State.fresh_setSens (t : Nat) (x : Sensors) : (s.setSens t x).fresh = s.fresh := rfl
@[simp] theorem State.answers_setSens (t : Nat) (x : Sensors) : (s.setSens t x).answers = s.answers := rfl
@[simp] theorem State.mem_setSens (t : Nat) (x : Sensors) : (s.setSens t x).mem = s.mem := rfl
@[simp] theorem State.ev_setSens (t : Nat) (x : Sensors) : (s.setSens t x).ev = s.ev := rfl
@[simp] theorem State.downAt_setSens (t : Nat) (x : Sensors) : (s.setSens t x).downAt = s.downAt := rfl
@[simp] theorem State.cores_setSens (t : Nat) (x : Sensors) : (s.setSens t x).cores = s.cores := rfl
@[simp] theorem State.engs_setSens (t : Nat) (x : Sensors) : (s.setSens t x).engs = s.engs := rfl
@[simp] theorem State.hubs_setSens (t : Nat) (x : Sensors) : (s.setSens t x).hubs = s.hubs := rfl
@[simp] theorem State.ctxs_setSens (t : Nat) (x : Sensors) : (s.setSens t x).ctxs = s.ctxs := rfl
@[simp] theorem State.admits_setSens (t : Nat) (x : Sensors) : (s.setSens t x).admits = s.admits := rfl
@[simp] theorem State.seqs_setSens (t : Nat) (x : Sensors) : (s.setSens t x).seqs = s.seqs := rfl
@[simp] theorem State.lease_setSens (t : Nat) (x : Sensors) : (s.setSens t x).lease = s.lease := rfl
@[simp] theorem State.tlbHeld_setSens (t : Nat) (x : Sensors) : (s.setSens t x).tlbHeld = s.tlbHeld := rfl
@[simp] theorem State.tlbCur_setSens (t : Nat) (x : Sensors) : (s.setSens t x).tlbCur = s.tlbCur := rfl
@[simp] theorem State.hbm_setSens (t : Nat) (x : Sensors) : (s.setSens t x).hbm = s.hbm := rfl
@[simp] theorem State.caches_setSens (t : Nat) (x : Sensors) : (s.setSens t x).caches = s.caches := rfl
@[simp] theorem State.cacheReq_setSens (t : Nat) (x : Sensors) : (s.setSens t x).cacheReq = s.cacheReq := rfl
@[simp] theorem State.fuses_setSens (t : Nat) (x : Sensors) : (s.setSens t x).fuses = s.fuses := rfl
@[simp] theorem State.light_setSens (t : Nat) (x : Sensors) : (s.setSens t x).light = s.light := rfl
@[simp] theorem State.linkTx_setSens (t : Nat) (x : Sensors) : (s.setSens t x).linkTx = s.linkTx := rfl
@[simp] theorem State.net_setSens (t : Nat) (x : Sensors) : (s.setSens t x).net = s.net := rfl
@[simp] theorem State.links_setSens (t : Nat) (x : Sensors) : (s.setSens t x).links = s.links := rfl
@[simp] theorem State.claim_setSens (t : Nat) (x : Sensors) : (s.setSens t x).claim = s.claim := rfl
@[simp] theorem State.mrs_setSens (t : Nat) (x : Sensors) : (s.setSens t x).mrs = s.mrs := rfl
@[simp] theorem State.qps_setSens (t : Nat) (x : Sensors) : (s.setSens t x).qps = s.qps := rfl
@[simp] theorem State.frames_setSens (t : Nat) (x : Sensors) : (s.setSens t x).frames = s.frames := rfl
@[simp] theorem State.ports_setSens (t : Nat) (x : Sensors) : (s.setSens t x).ports = s.ports := rfl
@[simp] theorem State.opts_setSens (t : Nat) (x : Sensors) : (s.setSens t x).opts = s.opts := rfl
@[simp] theorem State.waves_setSens (t : Nat) (x : Sensors) : (s.setSens t x).waves = s.waves := rfl
@[simp] theorem State.d2d_setSens (t : Nat) (x : Sensors) : (s.setSens t x).d2d = s.d2d := rfl
@[simp] theorem State.pwr_setSens (t : Nat) (x : Sensors) : (s.setSens t x).pwr = s.pwr := rfl
@[simp] theorem State.dies_setSens (t : Nat) (x : Sensors) : (s.setSens t x).dies = s.dies := rfl
@[simp] theorem State.energy_setSens (t : Nat) (x : Sensors) : (s.setSens t x).energy = s.energy := rfl
@[simp] theorem State.serving_setSens (t : Nat) (x : Sensors) : (s.setSens t x).serving = s.serving := rfl
@[simp] theorem State.boot_setSens (t : Nat) (x : Sensors) : (s.setSens t x).boot = s.boot := rfl
@[simp] theorem State.testing_setSens (t : Nat) (x : Sensors) : (s.setSens t x).testing = s.testing := rfl
@[simp] theorem State.missed_setSens (t : Nat) (x : Sensors) : (s.setSens t x).missed = s.missed := rfl
@[simp] theorem State.shuts_setSens (t : Nat) (x : Sensors) : (s.setSens t x).shuts = s.shuts := rfl
@[simp] theorem State.shutNo_setSens (t : Nat) (x : Sensors) : (s.setSens t x).shutNo = s.shutNo := rfl
@[simp] theorem State.d2dSent_setSens (t : Nat) (x : Sensors) : (s.setSens t x).d2dSent = s.d2dSent := rfl
@[simp] theorem State.planReady_setSens (t : Nat) (x : Sensors) : (s.setSens t x).planReady = s.planReady := rfl
@[simp] theorem State.lateAborts_setSens (t : Nat) (x : Sensors) : (s.setSens t x).lateAborts = s.lateAborts := rfl
@[simp] theorem State.lateStops_setSens (t : Nat) (x : Sensors) : (s.setSens t x).lateStops = s.lateStops := rfl
@[simp] theorem State.met_setSens (t : Nat) (x : Sensors) : (s.setSens t x).met = s.met := rfl
@[simp] theorem State.mirror_setSens (t : Nat) (x : Sensors) : (s.setSens t x).mirror = s.mirror := rfl
@[simp] theorem State.mgmt_setSens (t : Nat) (x : Sensors) : (s.setSens t x).mgmt = s.mgmt := rfl
@[simp] theorem State.ecpOut_setSens (t : Nat) (x : Sensors) : (s.setSens t x).ecpOut = s.ecpOut := rfl

@[simp] theorem State.pending_setQp (n : Nat) (x : Qp) : (s.setQp n x).pending = s.pending := rfl
@[simp] theorem State.later_setQp (n : Nat) (x : Qp) : (s.setQp n x).later = s.later := rfl
@[simp] theorem State.tick_setQp (n : Nat) (x : Qp) : (s.setQp n x).tick = s.tick := rfl
@[simp] theorem State.freeCtr_setQp (n : Nat) (x : Qp) : (s.setQp n x).freeCtr = s.freeCtr := rfl
@[simp] theorem State.regs_setQp (n : Nat) (x : Qp) : (s.setQp n x).regs = s.regs := rfl
@[simp] theorem State.fresh_setQp (n : Nat) (x : Qp) : (s.setQp n x).fresh = s.fresh := rfl
@[simp] theorem State.answers_setQp (n : Nat) (x : Qp) : (s.setQp n x).answers = s.answers := rfl
@[simp] theorem State.mem_setQp (n : Nat) (x : Qp) : (s.setQp n x).mem = s.mem := rfl
@[simp] theorem State.ev_setQp (n : Nat) (x : Qp) : (s.setQp n x).ev = s.ev := rfl
@[simp] theorem State.downAt_setQp (n : Nat) (x : Qp) : (s.setQp n x).downAt = s.downAt := rfl
@[simp] theorem State.cores_setQp (n : Nat) (x : Qp) : (s.setQp n x).cores = s.cores := rfl
@[simp] theorem State.engs_setQp (n : Nat) (x : Qp) : (s.setQp n x).engs = s.engs := rfl
@[simp] theorem State.hubs_setQp (n : Nat) (x : Qp) : (s.setQp n x).hubs = s.hubs := rfl
@[simp] theorem State.ctxs_setQp (n : Nat) (x : Qp) : (s.setQp n x).ctxs = s.ctxs := rfl
@[simp] theorem State.admits_setQp (n : Nat) (x : Qp) : (s.setQp n x).admits = s.admits := rfl
@[simp] theorem State.seqs_setQp (n : Nat) (x : Qp) : (s.setQp n x).seqs = s.seqs := rfl
@[simp] theorem State.lease_setQp (n : Nat) (x : Qp) : (s.setQp n x).lease = s.lease := rfl
@[simp] theorem State.tlbHeld_setQp (n : Nat) (x : Qp) : (s.setQp n x).tlbHeld = s.tlbHeld := rfl
@[simp] theorem State.tlbCur_setQp (n : Nat) (x : Qp) : (s.setQp n x).tlbCur = s.tlbCur := rfl
@[simp] theorem State.hbm_setQp (n : Nat) (x : Qp) : (s.setQp n x).hbm = s.hbm := rfl
@[simp] theorem State.caches_setQp (n : Nat) (x : Qp) : (s.setQp n x).caches = s.caches := rfl
@[simp] theorem State.cacheReq_setQp (n : Nat) (x : Qp) : (s.setQp n x).cacheReq = s.cacheReq := rfl
@[simp] theorem State.fuses_setQp (n : Nat) (x : Qp) : (s.setQp n x).fuses = s.fuses := rfl
@[simp] theorem State.light_setQp (n : Nat) (x : Qp) : (s.setQp n x).light = s.light := rfl
@[simp] theorem State.linkTx_setQp (n : Nat) (x : Qp) : (s.setQp n x).linkTx = s.linkTx := rfl
@[simp] theorem State.net_setQp (n : Nat) (x : Qp) : (s.setQp n x).net = s.net := rfl
@[simp] theorem State.links_setQp (n : Nat) (x : Qp) : (s.setQp n x).links = s.links := rfl
@[simp] theorem State.claim_setQp (n : Nat) (x : Qp) : (s.setQp n x).claim = s.claim := rfl
@[simp] theorem State.mrs_setQp (n : Nat) (x : Qp) : (s.setQp n x).mrs = s.mrs := rfl
@[simp] theorem State.frames_setQp (n : Nat) (x : Qp) : (s.setQp n x).frames = s.frames := rfl
@[simp] theorem State.ports_setQp (n : Nat) (x : Qp) : (s.setQp n x).ports = s.ports := rfl
@[simp] theorem State.opts_setQp (n : Nat) (x : Qp) : (s.setQp n x).opts = s.opts := rfl
@[simp] theorem State.waves_setQp (n : Nat) (x : Qp) : (s.setQp n x).waves = s.waves := rfl
@[simp] theorem State.d2d_setQp (n : Nat) (x : Qp) : (s.setQp n x).d2d = s.d2d := rfl
@[simp] theorem State.pwr_setQp (n : Nat) (x : Qp) : (s.setQp n x).pwr = s.pwr := rfl
@[simp] theorem State.dies_setQp (n : Nat) (x : Qp) : (s.setQp n x).dies = s.dies := rfl
@[simp] theorem State.sensors_setQp (n : Nat) (x : Qp) : (s.setQp n x).sensors = s.sensors := rfl
@[simp] theorem State.energy_setQp (n : Nat) (x : Qp) : (s.setQp n x).energy = s.energy := rfl
@[simp] theorem State.serving_setQp (n : Nat) (x : Qp) : (s.setQp n x).serving = s.serving := rfl
@[simp] theorem State.boot_setQp (n : Nat) (x : Qp) : (s.setQp n x).boot = s.boot := rfl
@[simp] theorem State.testing_setQp (n : Nat) (x : Qp) : (s.setQp n x).testing = s.testing := rfl
@[simp] theorem State.missed_setQp (n : Nat) (x : Qp) : (s.setQp n x).missed = s.missed := rfl
@[simp] theorem State.shuts_setQp (n : Nat) (x : Qp) : (s.setQp n x).shuts = s.shuts := rfl
@[simp] theorem State.shutNo_setQp (n : Nat) (x : Qp) : (s.setQp n x).shutNo = s.shutNo := rfl
@[simp] theorem State.d2dSent_setQp (n : Nat) (x : Qp) : (s.setQp n x).d2dSent = s.d2dSent := rfl
@[simp] theorem State.planReady_setQp (n : Nat) (x : Qp) : (s.setQp n x).planReady = s.planReady := rfl
@[simp] theorem State.lateAborts_setQp (n : Nat) (x : Qp) : (s.setQp n x).lateAborts = s.lateAborts := rfl
@[simp] theorem State.lateStops_setQp (n : Nat) (x : Qp) : (s.setQp n x).lateStops = s.lateStops := rfl
@[simp] theorem State.met_setQp (n : Nat) (x : Qp) : (s.setQp n x).met = s.met := rfl
@[simp] theorem State.mirror_setQp (n : Nat) (x : Qp) : (s.setQp n x).mirror = s.mirror := rfl
@[simp] theorem State.mgmt_setQp (n : Nat) (x : Qp) : (s.setQp n x).mgmt = s.mgmt := rfl
@[simp] theorem State.ecpOut_setQp (n : Nat) (x : Qp) : (s.setQp n x).ecpOut = s.ecpOut := rfl

@[simp] theorem State.pending_setServ (t : Nat) (x : Serv) : (s.setServ t x).pending = s.pending := rfl
@[simp] theorem State.later_setServ (t : Nat) (x : Serv) : (s.setServ t x).later = s.later := rfl
@[simp] theorem State.tick_setServ (t : Nat) (x : Serv) : (s.setServ t x).tick = s.tick := rfl
@[simp] theorem State.freeCtr_setServ (t : Nat) (x : Serv) : (s.setServ t x).freeCtr = s.freeCtr := rfl
@[simp] theorem State.regs_setServ (t : Nat) (x : Serv) : (s.setServ t x).regs = s.regs := rfl
@[simp] theorem State.fresh_setServ (t : Nat) (x : Serv) : (s.setServ t x).fresh = s.fresh := rfl
@[simp] theorem State.answers_setServ (t : Nat) (x : Serv) : (s.setServ t x).answers = s.answers := rfl
@[simp] theorem State.mem_setServ (t : Nat) (x : Serv) : (s.setServ t x).mem = s.mem := rfl
@[simp] theorem State.ev_setServ (t : Nat) (x : Serv) : (s.setServ t x).ev = s.ev := rfl
@[simp] theorem State.downAt_setServ (t : Nat) (x : Serv) : (s.setServ t x).downAt = s.downAt := rfl
@[simp] theorem State.cores_setServ (t : Nat) (x : Serv) : (s.setServ t x).cores = s.cores := rfl
@[simp] theorem State.engs_setServ (t : Nat) (x : Serv) : (s.setServ t x).engs = s.engs := rfl
@[simp] theorem State.hubs_setServ (t : Nat) (x : Serv) : (s.setServ t x).hubs = s.hubs := rfl
@[simp] theorem State.ctxs_setServ (t : Nat) (x : Serv) : (s.setServ t x).ctxs = s.ctxs := rfl
@[simp] theorem State.admits_setServ (t : Nat) (x : Serv) : (s.setServ t x).admits = s.admits := rfl
@[simp] theorem State.seqs_setServ (t : Nat) (x : Serv) : (s.setServ t x).seqs = s.seqs := rfl
@[simp] theorem State.lease_setServ (t : Nat) (x : Serv) : (s.setServ t x).lease = s.lease := rfl
@[simp] theorem State.tlbHeld_setServ (t : Nat) (x : Serv) : (s.setServ t x).tlbHeld = s.tlbHeld := rfl
@[simp] theorem State.tlbCur_setServ (t : Nat) (x : Serv) : (s.setServ t x).tlbCur = s.tlbCur := rfl
@[simp] theorem State.hbm_setServ (t : Nat) (x : Serv) : (s.setServ t x).hbm = s.hbm := rfl
@[simp] theorem State.caches_setServ (t : Nat) (x : Serv) : (s.setServ t x).caches = s.caches := rfl
@[simp] theorem State.cacheReq_setServ (t : Nat) (x : Serv) : (s.setServ t x).cacheReq = s.cacheReq := rfl
@[simp] theorem State.fuses_setServ (t : Nat) (x : Serv) : (s.setServ t x).fuses = s.fuses := rfl
@[simp] theorem State.light_setServ (t : Nat) (x : Serv) : (s.setServ t x).light = s.light := rfl
@[simp] theorem State.linkTx_setServ (t : Nat) (x : Serv) : (s.setServ t x).linkTx = s.linkTx := rfl
@[simp] theorem State.net_setServ (t : Nat) (x : Serv) : (s.setServ t x).net = s.net := rfl
@[simp] theorem State.links_setServ (t : Nat) (x : Serv) : (s.setServ t x).links = s.links := rfl
@[simp] theorem State.claim_setServ (t : Nat) (x : Serv) : (s.setServ t x).claim = s.claim := rfl
@[simp] theorem State.mrs_setServ (t : Nat) (x : Serv) : (s.setServ t x).mrs = s.mrs := rfl
@[simp] theorem State.qps_setServ (t : Nat) (x : Serv) : (s.setServ t x).qps = s.qps := rfl
@[simp] theorem State.frames_setServ (t : Nat) (x : Serv) : (s.setServ t x).frames = s.frames := rfl
@[simp] theorem State.ports_setServ (t : Nat) (x : Serv) : (s.setServ t x).ports = s.ports := rfl
@[simp] theorem State.opts_setServ (t : Nat) (x : Serv) : (s.setServ t x).opts = s.opts := rfl
@[simp] theorem State.waves_setServ (t : Nat) (x : Serv) : (s.setServ t x).waves = s.waves := rfl
@[simp] theorem State.d2d_setServ (t : Nat) (x : Serv) : (s.setServ t x).d2d = s.d2d := rfl
@[simp] theorem State.pwr_setServ (t : Nat) (x : Serv) : (s.setServ t x).pwr = s.pwr := rfl
@[simp] theorem State.dies_setServ (t : Nat) (x : Serv) : (s.setServ t x).dies = s.dies := rfl
@[simp] theorem State.sensors_setServ (t : Nat) (x : Serv) : (s.setServ t x).sensors = s.sensors := rfl
@[simp] theorem State.energy_setServ (t : Nat) (x : Serv) : (s.setServ t x).energy = s.energy := rfl
@[simp] theorem State.boot_setServ (t : Nat) (x : Serv) : (s.setServ t x).boot = s.boot := rfl
@[simp] theorem State.testing_setServ (t : Nat) (x : Serv) : (s.setServ t x).testing = s.testing := rfl
@[simp] theorem State.missed_setServ (t : Nat) (x : Serv) : (s.setServ t x).missed = s.missed := rfl
@[simp] theorem State.shuts_setServ (t : Nat) (x : Serv) : (s.setServ t x).shuts = s.shuts := rfl
@[simp] theorem State.shutNo_setServ (t : Nat) (x : Serv) : (s.setServ t x).shutNo = s.shutNo := rfl
@[simp] theorem State.d2dSent_setServ (t : Nat) (x : Serv) : (s.setServ t x).d2dSent = s.d2dSent := rfl
@[simp] theorem State.planReady_setServ (t : Nat) (x : Serv) : (s.setServ t x).planReady = s.planReady := rfl
@[simp] theorem State.lateAborts_setServ (t : Nat) (x : Serv) : (s.setServ t x).lateAborts = s.lateAborts := rfl
@[simp] theorem State.lateStops_setServ (t : Nat) (x : Serv) : (s.setServ t x).lateStops = s.lateStops := rfl
@[simp] theorem State.met_setServ (t : Nat) (x : Serv) : (s.setServ t x).met = s.met := rfl
@[simp] theorem State.mirror_setServ (t : Nat) (x : Serv) : (s.setServ t x).mirror = s.mirror := rfl
@[simp] theorem State.mgmt_setServ (t : Nat) (x : Serv) : (s.setServ t x).mgmt = s.mgmt := rfl
@[simp] theorem State.ecpOut_setServ (t : Nat) (x : Serv) : (s.setServ t x).ecpOut = s.ecpOut := rfl

@[simp] theorem State.pending_setHbm (n : Nat) (x : HbmSt) : (s.setHbm n x).pending = s.pending := rfl
@[simp] theorem State.later_setHbm (n : Nat) (x : HbmSt) : (s.setHbm n x).later = s.later := rfl
@[simp] theorem State.tick_setHbm (n : Nat) (x : HbmSt) : (s.setHbm n x).tick = s.tick := rfl
@[simp] theorem State.freeCtr_setHbm (n : Nat) (x : HbmSt) : (s.setHbm n x).freeCtr = s.freeCtr := rfl
@[simp] theorem State.regs_setHbm (n : Nat) (x : HbmSt) : (s.setHbm n x).regs = s.regs := rfl
@[simp] theorem State.fresh_setHbm (n : Nat) (x : HbmSt) : (s.setHbm n x).fresh = s.fresh := rfl
@[simp] theorem State.answers_setHbm (n : Nat) (x : HbmSt) : (s.setHbm n x).answers = s.answers := rfl
@[simp] theorem State.mem_setHbm (n : Nat) (x : HbmSt) : (s.setHbm n x).mem = s.mem := rfl
@[simp] theorem State.ev_setHbm (n : Nat) (x : HbmSt) : (s.setHbm n x).ev = s.ev := rfl
@[simp] theorem State.downAt_setHbm (n : Nat) (x : HbmSt) : (s.setHbm n x).downAt = s.downAt := rfl
@[simp] theorem State.cores_setHbm (n : Nat) (x : HbmSt) : (s.setHbm n x).cores = s.cores := rfl
@[simp] theorem State.engs_setHbm (n : Nat) (x : HbmSt) : (s.setHbm n x).engs = s.engs := rfl
@[simp] theorem State.hubs_setHbm (n : Nat) (x : HbmSt) : (s.setHbm n x).hubs = s.hubs := rfl
@[simp] theorem State.ctxs_setHbm (n : Nat) (x : HbmSt) : (s.setHbm n x).ctxs = s.ctxs := rfl
@[simp] theorem State.admits_setHbm (n : Nat) (x : HbmSt) : (s.setHbm n x).admits = s.admits := rfl
@[simp] theorem State.seqs_setHbm (n : Nat) (x : HbmSt) : (s.setHbm n x).seqs = s.seqs := rfl
@[simp] theorem State.lease_setHbm (n : Nat) (x : HbmSt) : (s.setHbm n x).lease = s.lease := rfl
@[simp] theorem State.tlbHeld_setHbm (n : Nat) (x : HbmSt) : (s.setHbm n x).tlbHeld = s.tlbHeld := rfl
@[simp] theorem State.tlbCur_setHbm (n : Nat) (x : HbmSt) : (s.setHbm n x).tlbCur = s.tlbCur := rfl
@[simp] theorem State.caches_setHbm (n : Nat) (x : HbmSt) : (s.setHbm n x).caches = s.caches := rfl
@[simp] theorem State.cacheReq_setHbm (n : Nat) (x : HbmSt) : (s.setHbm n x).cacheReq = s.cacheReq := rfl
@[simp] theorem State.fuses_setHbm (n : Nat) (x : HbmSt) : (s.setHbm n x).fuses = s.fuses := rfl
@[simp] theorem State.light_setHbm (n : Nat) (x : HbmSt) : (s.setHbm n x).light = s.light := rfl
@[simp] theorem State.linkTx_setHbm (n : Nat) (x : HbmSt) : (s.setHbm n x).linkTx = s.linkTx := rfl
@[simp] theorem State.net_setHbm (n : Nat) (x : HbmSt) : (s.setHbm n x).net = s.net := rfl
@[simp] theorem State.links_setHbm (n : Nat) (x : HbmSt) : (s.setHbm n x).links = s.links := rfl
@[simp] theorem State.claim_setHbm (n : Nat) (x : HbmSt) : (s.setHbm n x).claim = s.claim := rfl
@[simp] theorem State.mrs_setHbm (n : Nat) (x : HbmSt) : (s.setHbm n x).mrs = s.mrs := rfl
@[simp] theorem State.qps_setHbm (n : Nat) (x : HbmSt) : (s.setHbm n x).qps = s.qps := rfl
@[simp] theorem State.frames_setHbm (n : Nat) (x : HbmSt) : (s.setHbm n x).frames = s.frames := rfl
@[simp] theorem State.ports_setHbm (n : Nat) (x : HbmSt) : (s.setHbm n x).ports = s.ports := rfl
@[simp] theorem State.opts_setHbm (n : Nat) (x : HbmSt) : (s.setHbm n x).opts = s.opts := rfl
@[simp] theorem State.waves_setHbm (n : Nat) (x : HbmSt) : (s.setHbm n x).waves = s.waves := rfl
@[simp] theorem State.d2d_setHbm (n : Nat) (x : HbmSt) : (s.setHbm n x).d2d = s.d2d := rfl
@[simp] theorem State.pwr_setHbm (n : Nat) (x : HbmSt) : (s.setHbm n x).pwr = s.pwr := rfl
@[simp] theorem State.dies_setHbm (n : Nat) (x : HbmSt) : (s.setHbm n x).dies = s.dies := rfl
@[simp] theorem State.sensors_setHbm (n : Nat) (x : HbmSt) : (s.setHbm n x).sensors = s.sensors := rfl
@[simp] theorem State.energy_setHbm (n : Nat) (x : HbmSt) : (s.setHbm n x).energy = s.energy := rfl
@[simp] theorem State.serving_setHbm (n : Nat) (x : HbmSt) : (s.setHbm n x).serving = s.serving := rfl
@[simp] theorem State.boot_setHbm (n : Nat) (x : HbmSt) : (s.setHbm n x).boot = s.boot := rfl
@[simp] theorem State.testing_setHbm (n : Nat) (x : HbmSt) : (s.setHbm n x).testing = s.testing := rfl
@[simp] theorem State.missed_setHbm (n : Nat) (x : HbmSt) : (s.setHbm n x).missed = s.missed := rfl
@[simp] theorem State.shuts_setHbm (n : Nat) (x : HbmSt) : (s.setHbm n x).shuts = s.shuts := rfl
@[simp] theorem State.shutNo_setHbm (n : Nat) (x : HbmSt) : (s.setHbm n x).shutNo = s.shutNo := rfl
@[simp] theorem State.d2dSent_setHbm (n : Nat) (x : HbmSt) : (s.setHbm n x).d2dSent = s.d2dSent := rfl
@[simp] theorem State.planReady_setHbm (n : Nat) (x : HbmSt) : (s.setHbm n x).planReady = s.planReady := rfl
@[simp] theorem State.lateAborts_setHbm (n : Nat) (x : HbmSt) : (s.setHbm n x).lateAborts = s.lateAborts := rfl
@[simp] theorem State.lateStops_setHbm (n : Nat) (x : HbmSt) : (s.setHbm n x).lateStops = s.lateStops := rfl
@[simp] theorem State.met_setHbm (n : Nat) (x : HbmSt) : (s.setHbm n x).met = s.met := rfl
@[simp] theorem State.mirror_setHbm (n : Nat) (x : HbmSt) : (s.setHbm n x).mirror = s.mirror := rfl
@[simp] theorem State.mgmt_setHbm (n : Nat) (x : HbmSt) : (s.setHbm n x).mgmt = s.mgmt := rfl
@[simp] theorem State.ecpOut_setHbm (n : Nat) (x : HbmSt) : (s.setHbm n x).ecpOut = s.ecpOut := rfl

@[simp] theorem State.pending_writeMem (a : Nat) (bs : List Byte) : (s.writeMem a bs).pending = s.pending := rfl
@[simp] theorem State.later_writeMem (a : Nat) (bs : List Byte) : (s.writeMem a bs).later = s.later := rfl
@[simp] theorem State.tick_writeMem (a : Nat) (bs : List Byte) : (s.writeMem a bs).tick = s.tick := rfl
@[simp] theorem State.freeCtr_writeMem (a : Nat) (bs : List Byte) : (s.writeMem a bs).freeCtr = s.freeCtr := rfl
@[simp] theorem State.regs_writeMem (a : Nat) (bs : List Byte) : (s.writeMem a bs).regs = s.regs := rfl
@[simp] theorem State.fresh_writeMem (a : Nat) (bs : List Byte) : (s.writeMem a bs).fresh = s.fresh := rfl
@[simp] theorem State.answers_writeMem (a : Nat) (bs : List Byte) : (s.writeMem a bs).answers = s.answers := rfl
@[simp] theorem State.ev_writeMem (a : Nat) (bs : List Byte) : (s.writeMem a bs).ev = s.ev := rfl
@[simp] theorem State.downAt_writeMem (a : Nat) (bs : List Byte) : (s.writeMem a bs).downAt = s.downAt := rfl
@[simp] theorem State.cores_writeMem (a : Nat) (bs : List Byte) : (s.writeMem a bs).cores = s.cores := rfl
@[simp] theorem State.engs_writeMem (a : Nat) (bs : List Byte) : (s.writeMem a bs).engs = s.engs := rfl
@[simp] theorem State.hubs_writeMem (a : Nat) (bs : List Byte) : (s.writeMem a bs).hubs = s.hubs := rfl
@[simp] theorem State.ctxs_writeMem (a : Nat) (bs : List Byte) : (s.writeMem a bs).ctxs = s.ctxs := rfl
@[simp] theorem State.admits_writeMem (a : Nat) (bs : List Byte) : (s.writeMem a bs).admits = s.admits := rfl
@[simp] theorem State.seqs_writeMem (a : Nat) (bs : List Byte) : (s.writeMem a bs).seqs = s.seqs := rfl
@[simp] theorem State.lease_writeMem (a : Nat) (bs : List Byte) : (s.writeMem a bs).lease = s.lease := rfl
@[simp] theorem State.tlbHeld_writeMem (a : Nat) (bs : List Byte) : (s.writeMem a bs).tlbHeld = s.tlbHeld := rfl
@[simp] theorem State.tlbCur_writeMem (a : Nat) (bs : List Byte) : (s.writeMem a bs).tlbCur = s.tlbCur := rfl
@[simp] theorem State.hbm_writeMem (a : Nat) (bs : List Byte) : (s.writeMem a bs).hbm = s.hbm := rfl
@[simp] theorem State.caches_writeMem (a : Nat) (bs : List Byte) : (s.writeMem a bs).caches = s.caches := rfl
@[simp] theorem State.cacheReq_writeMem (a : Nat) (bs : List Byte) : (s.writeMem a bs).cacheReq = s.cacheReq := rfl
@[simp] theorem State.fuses_writeMem (a : Nat) (bs : List Byte) : (s.writeMem a bs).fuses = s.fuses := rfl
@[simp] theorem State.light_writeMem (a : Nat) (bs : List Byte) : (s.writeMem a bs).light = s.light := rfl
@[simp] theorem State.linkTx_writeMem (a : Nat) (bs : List Byte) : (s.writeMem a bs).linkTx = s.linkTx := rfl
@[simp] theorem State.net_writeMem (a : Nat) (bs : List Byte) : (s.writeMem a bs).net = s.net := rfl
@[simp] theorem State.links_writeMem (a : Nat) (bs : List Byte) : (s.writeMem a bs).links = s.links := rfl
@[simp] theorem State.claim_writeMem (a : Nat) (bs : List Byte) : (s.writeMem a bs).claim = s.claim := rfl
@[simp] theorem State.mrs_writeMem (a : Nat) (bs : List Byte) : (s.writeMem a bs).mrs = s.mrs := rfl
@[simp] theorem State.qps_writeMem (a : Nat) (bs : List Byte) : (s.writeMem a bs).qps = s.qps := rfl
@[simp] theorem State.frames_writeMem (a : Nat) (bs : List Byte) : (s.writeMem a bs).frames = s.frames := rfl
@[simp] theorem State.ports_writeMem (a : Nat) (bs : List Byte) : (s.writeMem a bs).ports = s.ports := rfl
@[simp] theorem State.opts_writeMem (a : Nat) (bs : List Byte) : (s.writeMem a bs).opts = s.opts := rfl
@[simp] theorem State.waves_writeMem (a : Nat) (bs : List Byte) : (s.writeMem a bs).waves = s.waves := rfl
@[simp] theorem State.d2d_writeMem (a : Nat) (bs : List Byte) : (s.writeMem a bs).d2d = s.d2d := rfl
@[simp] theorem State.pwr_writeMem (a : Nat) (bs : List Byte) : (s.writeMem a bs).pwr = s.pwr := rfl
@[simp] theorem State.dies_writeMem (a : Nat) (bs : List Byte) : (s.writeMem a bs).dies = s.dies := rfl
@[simp] theorem State.sensors_writeMem (a : Nat) (bs : List Byte) : (s.writeMem a bs).sensors = s.sensors := rfl
@[simp] theorem State.energy_writeMem (a : Nat) (bs : List Byte) : (s.writeMem a bs).energy = s.energy := rfl
@[simp] theorem State.serving_writeMem (a : Nat) (bs : List Byte) : (s.writeMem a bs).serving = s.serving := rfl
@[simp] theorem State.boot_writeMem (a : Nat) (bs : List Byte) : (s.writeMem a bs).boot = s.boot := rfl
@[simp] theorem State.testing_writeMem (a : Nat) (bs : List Byte) : (s.writeMem a bs).testing = s.testing := rfl
@[simp] theorem State.missed_writeMem (a : Nat) (bs : List Byte) : (s.writeMem a bs).missed = s.missed := rfl
@[simp] theorem State.shuts_writeMem (a : Nat) (bs : List Byte) : (s.writeMem a bs).shuts = s.shuts := rfl
@[simp] theorem State.shutNo_writeMem (a : Nat) (bs : List Byte) : (s.writeMem a bs).shutNo = s.shutNo := rfl
@[simp] theorem State.d2dSent_writeMem (a : Nat) (bs : List Byte) : (s.writeMem a bs).d2dSent = s.d2dSent := rfl
@[simp] theorem State.planReady_writeMem (a : Nat) (bs : List Byte) : (s.writeMem a bs).planReady = s.planReady := rfl
@[simp] theorem State.lateAborts_writeMem (a : Nat) (bs : List Byte) : (s.writeMem a bs).lateAborts = s.lateAborts := rfl
@[simp] theorem State.lateStops_writeMem (a : Nat) (bs : List Byte) : (s.writeMem a bs).lateStops = s.lateStops := rfl
@[simp] theorem State.met_writeMem (a : Nat) (bs : List Byte) : (s.writeMem a bs).met = s.met := rfl
@[simp] theorem State.mirror_writeMem (a : Nat) (bs : List Byte) : (s.writeMem a bs).mirror = s.mirror := rfl
@[simp] theorem State.mgmt_writeMem (a : Nat) (bs : List Byte) : (s.writeMem a bs).mgmt = s.mgmt := rfl
@[simp] theorem State.ecpOut_writeMem (a : Nat) (bs : List Byte) : (s.writeMem a bs).ecpOut = s.ecpOut := rfl

@[simp] theorem State.pending_markEnd (o : Nat) : (s.markEnd o).pending = s.pending := rfl
@[simp] theorem State.later_markEnd (o : Nat) : (s.markEnd o).later = s.later := rfl
@[simp] theorem State.tick_markEnd (o : Nat) : (s.markEnd o).tick = s.tick := rfl
@[simp] theorem State.freeCtr_markEnd (o : Nat) : (s.markEnd o).freeCtr = s.freeCtr := rfl
@[simp] theorem State.regs_markEnd (o : Nat) : (s.markEnd o).regs = s.regs := rfl
@[simp] theorem State.fresh_markEnd (o : Nat) : (s.markEnd o).fresh = s.fresh := rfl
@[simp] theorem State.answers_markEnd (o : Nat) : (s.markEnd o).answers = s.answers := rfl
@[simp] theorem State.mem_markEnd (o : Nat) : (s.markEnd o).mem = s.mem := rfl
@[simp] theorem State.ev_markEnd (o : Nat) : (s.markEnd o).ev = s.ev := rfl
@[simp] theorem State.cores_markEnd (o : Nat) : (s.markEnd o).cores = s.cores := rfl
@[simp] theorem State.engs_markEnd (o : Nat) : (s.markEnd o).engs = s.engs := rfl
@[simp] theorem State.hubs_markEnd (o : Nat) : (s.markEnd o).hubs = s.hubs := rfl
@[simp] theorem State.ctxs_markEnd (o : Nat) : (s.markEnd o).ctxs = s.ctxs := rfl
@[simp] theorem State.admits_markEnd (o : Nat) : (s.markEnd o).admits = s.admits := rfl
@[simp] theorem State.seqs_markEnd (o : Nat) : (s.markEnd o).seqs = s.seqs := rfl
@[simp] theorem State.lease_markEnd (o : Nat) : (s.markEnd o).lease = s.lease := rfl
@[simp] theorem State.tlbHeld_markEnd (o : Nat) : (s.markEnd o).tlbHeld = s.tlbHeld := rfl
@[simp] theorem State.tlbCur_markEnd (o : Nat) : (s.markEnd o).tlbCur = s.tlbCur := rfl
@[simp] theorem State.hbm_markEnd (o : Nat) : (s.markEnd o).hbm = s.hbm := rfl
@[simp] theorem State.caches_markEnd (o : Nat) : (s.markEnd o).caches = s.caches := rfl
@[simp] theorem State.cacheReq_markEnd (o : Nat) : (s.markEnd o).cacheReq = s.cacheReq := rfl
@[simp] theorem State.fuses_markEnd (o : Nat) : (s.markEnd o).fuses = s.fuses := rfl
@[simp] theorem State.light_markEnd (o : Nat) : (s.markEnd o).light = s.light := rfl
@[simp] theorem State.linkTx_markEnd (o : Nat) : (s.markEnd o).linkTx = s.linkTx := rfl
@[simp] theorem State.net_markEnd (o : Nat) : (s.markEnd o).net = s.net := rfl
@[simp] theorem State.links_markEnd (o : Nat) : (s.markEnd o).links = s.links := rfl
@[simp] theorem State.claim_markEnd (o : Nat) : (s.markEnd o).claim = s.claim := rfl
@[simp] theorem State.mrs_markEnd (o : Nat) : (s.markEnd o).mrs = s.mrs := rfl
@[simp] theorem State.qps_markEnd (o : Nat) : (s.markEnd o).qps = s.qps := rfl
@[simp] theorem State.frames_markEnd (o : Nat) : (s.markEnd o).frames = s.frames := rfl
@[simp] theorem State.ports_markEnd (o : Nat) : (s.markEnd o).ports = s.ports := rfl
@[simp] theorem State.opts_markEnd (o : Nat) : (s.markEnd o).opts = s.opts := rfl
@[simp] theorem State.waves_markEnd (o : Nat) : (s.markEnd o).waves = s.waves := rfl
@[simp] theorem State.d2d_markEnd (o : Nat) : (s.markEnd o).d2d = s.d2d := rfl
@[simp] theorem State.pwr_markEnd (o : Nat) : (s.markEnd o).pwr = s.pwr := rfl
@[simp] theorem State.dies_markEnd (o : Nat) : (s.markEnd o).dies = s.dies := rfl
@[simp] theorem State.sensors_markEnd (o : Nat) : (s.markEnd o).sensors = s.sensors := rfl
@[simp] theorem State.energy_markEnd (o : Nat) : (s.markEnd o).energy = s.energy := rfl
@[simp] theorem State.serving_markEnd (o : Nat) : (s.markEnd o).serving = s.serving := rfl
@[simp] theorem State.boot_markEnd (o : Nat) : (s.markEnd o).boot = s.boot := rfl
@[simp] theorem State.testing_markEnd (o : Nat) : (s.markEnd o).testing = s.testing := rfl
@[simp] theorem State.missed_markEnd (o : Nat) : (s.markEnd o).missed = s.missed := rfl
@[simp] theorem State.shuts_markEnd (o : Nat) : (s.markEnd o).shuts = s.shuts := rfl
@[simp] theorem State.shutNo_markEnd (o : Nat) : (s.markEnd o).shutNo = s.shutNo := rfl
@[simp] theorem State.d2dSent_markEnd (o : Nat) : (s.markEnd o).d2dSent = s.d2dSent := rfl
@[simp] theorem State.planReady_markEnd (o : Nat) : (s.markEnd o).planReady = s.planReady := rfl
@[simp] theorem State.lateAborts_markEnd (o : Nat) : (s.markEnd o).lateAborts = s.lateAborts := rfl
@[simp] theorem State.lateStops_markEnd (o : Nat) : (s.markEnd o).lateStops = s.lateStops := rfl
@[simp] theorem State.met_markEnd (o : Nat) : (s.markEnd o).met = s.met := rfl
@[simp] theorem State.mirror_markEnd (o : Nat) : (s.markEnd o).mirror = s.mirror := rfl
@[simp] theorem State.mgmt_markEnd (o : Nat) : (s.markEnd o).mgmt = s.mgmt := rfl
@[simp] theorem State.ecpOut_markEnd (o : Nat) : (s.markEnd o).ecpOut = s.ecpOut := rfl

@[simp] theorem State.pending_say (l : List LeaseMsg) : (s.say l).pending = s.pending := rfl
@[simp] theorem State.later_say (l : List LeaseMsg) : (s.say l).later = s.later := rfl
@[simp] theorem State.tick_say (l : List LeaseMsg) : (s.say l).tick = s.tick := rfl
@[simp] theorem State.freeCtr_say (l : List LeaseMsg) : (s.say l).freeCtr = s.freeCtr := rfl
@[simp] theorem State.regs_say (l : List LeaseMsg) : (s.say l).regs = s.regs := rfl
@[simp] theorem State.fresh_say (l : List LeaseMsg) : (s.say l).fresh = s.fresh := rfl
@[simp] theorem State.answers_say (l : List LeaseMsg) : (s.say l).answers = s.answers := rfl
@[simp] theorem State.mem_say (l : List LeaseMsg) : (s.say l).mem = s.mem := rfl
@[simp] theorem State.ev_say (l : List LeaseMsg) : (s.say l).ev = s.ev := rfl
@[simp] theorem State.downAt_say (l : List LeaseMsg) : (s.say l).downAt = s.downAt := rfl
@[simp] theorem State.cores_say (l : List LeaseMsg) : (s.say l).cores = s.cores := rfl
@[simp] theorem State.engs_say (l : List LeaseMsg) : (s.say l).engs = s.engs := rfl
@[simp] theorem State.hubs_say (l : List LeaseMsg) : (s.say l).hubs = s.hubs := rfl
@[simp] theorem State.ctxs_say (l : List LeaseMsg) : (s.say l).ctxs = s.ctxs := rfl
@[simp] theorem State.admits_say (l : List LeaseMsg) : (s.say l).admits = s.admits := rfl
@[simp] theorem State.seqs_say (l : List LeaseMsg) : (s.say l).seqs = s.seqs := rfl
@[simp] theorem State.tlbHeld_say (l : List LeaseMsg) : (s.say l).tlbHeld = s.tlbHeld := rfl
@[simp] theorem State.tlbCur_say (l : List LeaseMsg) : (s.say l).tlbCur = s.tlbCur := rfl
@[simp] theorem State.hbm_say (l : List LeaseMsg) : (s.say l).hbm = s.hbm := rfl
@[simp] theorem State.caches_say (l : List LeaseMsg) : (s.say l).caches = s.caches := rfl
@[simp] theorem State.cacheReq_say (l : List LeaseMsg) : (s.say l).cacheReq = s.cacheReq := rfl
@[simp] theorem State.fuses_say (l : List LeaseMsg) : (s.say l).fuses = s.fuses := rfl
@[simp] theorem State.light_say (l : List LeaseMsg) : (s.say l).light = s.light := rfl
@[simp] theorem State.linkTx_say (l : List LeaseMsg) : (s.say l).linkTx = s.linkTx := rfl
@[simp] theorem State.net_say (l : List LeaseMsg) : (s.say l).net = s.net := rfl
@[simp] theorem State.links_say (l : List LeaseMsg) : (s.say l).links = s.links := rfl
@[simp] theorem State.claim_say (l : List LeaseMsg) : (s.say l).claim = s.claim := rfl
@[simp] theorem State.mrs_say (l : List LeaseMsg) : (s.say l).mrs = s.mrs := rfl
@[simp] theorem State.qps_say (l : List LeaseMsg) : (s.say l).qps = s.qps := rfl
@[simp] theorem State.frames_say (l : List LeaseMsg) : (s.say l).frames = s.frames := rfl
@[simp] theorem State.ports_say (l : List LeaseMsg) : (s.say l).ports = s.ports := rfl
@[simp] theorem State.opts_say (l : List LeaseMsg) : (s.say l).opts = s.opts := rfl
@[simp] theorem State.waves_say (l : List LeaseMsg) : (s.say l).waves = s.waves := rfl
@[simp] theorem State.d2d_say (l : List LeaseMsg) : (s.say l).d2d = s.d2d := rfl
@[simp] theorem State.pwr_say (l : List LeaseMsg) : (s.say l).pwr = s.pwr := rfl
@[simp] theorem State.dies_say (l : List LeaseMsg) : (s.say l).dies = s.dies := rfl
@[simp] theorem State.sensors_say (l : List LeaseMsg) : (s.say l).sensors = s.sensors := rfl
@[simp] theorem State.energy_say (l : List LeaseMsg) : (s.say l).energy = s.energy := rfl
@[simp] theorem State.serving_say (l : List LeaseMsg) : (s.say l).serving = s.serving := rfl
@[simp] theorem State.boot_say (l : List LeaseMsg) : (s.say l).boot = s.boot := rfl
@[simp] theorem State.testing_say (l : List LeaseMsg) : (s.say l).testing = s.testing := rfl
@[simp] theorem State.missed_say (l : List LeaseMsg) : (s.say l).missed = s.missed := rfl
@[simp] theorem State.shuts_say (l : List LeaseMsg) : (s.say l).shuts = s.shuts := rfl
@[simp] theorem State.shutNo_say (l : List LeaseMsg) : (s.say l).shutNo = s.shutNo := rfl
@[simp] theorem State.d2dSent_say (l : List LeaseMsg) : (s.say l).d2dSent = s.d2dSent := rfl
@[simp] theorem State.planReady_say (l : List LeaseMsg) : (s.say l).planReady = s.planReady := rfl
@[simp] theorem State.lateAborts_say (l : List LeaseMsg) : (s.say l).lateAborts = s.lateAborts := rfl
@[simp] theorem State.lateStops_say (l : List LeaseMsg) : (s.say l).lateStops = s.lateStops := rfl
@[simp] theorem State.met_say (l : List LeaseMsg) : (s.say l).met = s.met := rfl
@[simp] theorem State.mirror_say (l : List LeaseMsg) : (s.say l).mirror = s.mirror := rfl
@[simp] theorem State.mgmt_say (l : List LeaseMsg) : (s.say l).mgmt = s.mgmt := rfl
@[simp] theorem State.ecpOut_say (l : List LeaseMsg) : (s.say l).ecpOut = s.ecpOut := rfl

@[simp] theorem State.pending_raise (code unit object waiter detail : Nat) (b : Bool) : (s.raise code unit object waiter detail b).pending = s.pending := by
  unfold State.raise; dsimp only; split <;> rfl
@[simp] theorem State.later_raise (code unit object waiter detail : Nat) (b : Bool) : (s.raise code unit object waiter detail b).later = s.later := by
  unfold State.raise; dsimp only; split <;> rfl
@[simp] theorem State.tick_raise (code unit object waiter detail : Nat) (b : Bool) : (s.raise code unit object waiter detail b).tick = s.tick := by
  unfold State.raise; dsimp only; split <;> rfl
@[simp] theorem State.freeCtr_raise (code unit object waiter detail : Nat) (b : Bool) : (s.raise code unit object waiter detail b).freeCtr = s.freeCtr := by
  unfold State.raise; dsimp only; split <;> rfl
@[simp] theorem State.regs_raise (code unit object waiter detail : Nat) (b : Bool) : (s.raise code unit object waiter detail b).regs = s.regs := by
  unfold State.raise; dsimp only; split <;> rfl
@[simp] theorem State.fresh_raise (code unit object waiter detail : Nat) (b : Bool) : (s.raise code unit object waiter detail b).fresh = s.fresh := by
  unfold State.raise; dsimp only; split <;> rfl
@[simp] theorem State.answers_raise (code unit object waiter detail : Nat) (b : Bool) : (s.raise code unit object waiter detail b).answers = s.answers := by
  unfold State.raise; dsimp only; split <;> rfl
@[simp] theorem State.mem_raise (code unit object waiter detail : Nat) (b : Bool) : (s.raise code unit object waiter detail b).mem = s.mem := by
  unfold State.raise; dsimp only; split <;> rfl
@[simp] theorem State.downAt_raise (code unit object waiter detail : Nat) (b : Bool) : (s.raise code unit object waiter detail b).downAt = s.downAt := by
  unfold State.raise; dsimp only; split <;> rfl
@[simp] theorem State.cores_raise (code unit object waiter detail : Nat) (b : Bool) : (s.raise code unit object waiter detail b).cores = s.cores := by
  unfold State.raise; dsimp only; split <;> rfl
@[simp] theorem State.engs_raise (code unit object waiter detail : Nat) (b : Bool) : (s.raise code unit object waiter detail b).engs = s.engs := by
  unfold State.raise; dsimp only; split <;> rfl
@[simp] theorem State.hubs_raise (code unit object waiter detail : Nat) (b : Bool) : (s.raise code unit object waiter detail b).hubs = s.hubs := by
  unfold State.raise; dsimp only; split <;> rfl
@[simp] theorem State.ctxs_raise (code unit object waiter detail : Nat) (b : Bool) : (s.raise code unit object waiter detail b).ctxs = s.ctxs := by
  unfold State.raise; dsimp only; split <;> rfl
@[simp] theorem State.admits_raise (code unit object waiter detail : Nat) (b : Bool) : (s.raise code unit object waiter detail b).admits = s.admits := by
  unfold State.raise; dsimp only; split <;> rfl
@[simp] theorem State.seqs_raise (code unit object waiter detail : Nat) (b : Bool) : (s.raise code unit object waiter detail b).seqs = s.seqs := by
  unfold State.raise; dsimp only; split <;> rfl
@[simp] theorem State.lease_raise (code unit object waiter detail : Nat) (b : Bool) : (s.raise code unit object waiter detail b).lease = s.lease := by
  unfold State.raise; dsimp only; split <;> rfl
@[simp] theorem State.tlbHeld_raise (code unit object waiter detail : Nat) (b : Bool) : (s.raise code unit object waiter detail b).tlbHeld = s.tlbHeld := by
  unfold State.raise; dsimp only; split <;> rfl
@[simp] theorem State.tlbCur_raise (code unit object waiter detail : Nat) (b : Bool) : (s.raise code unit object waiter detail b).tlbCur = s.tlbCur := by
  unfold State.raise; dsimp only; split <;> rfl
@[simp] theorem State.hbm_raise (code unit object waiter detail : Nat) (b : Bool) : (s.raise code unit object waiter detail b).hbm = s.hbm := by
  unfold State.raise; dsimp only; split <;> rfl
@[simp] theorem State.caches_raise (code unit object waiter detail : Nat) (b : Bool) : (s.raise code unit object waiter detail b).caches = s.caches := by
  unfold State.raise; dsimp only; split <;> rfl
@[simp] theorem State.cacheReq_raise (code unit object waiter detail : Nat) (b : Bool) : (s.raise code unit object waiter detail b).cacheReq = s.cacheReq := by
  unfold State.raise; dsimp only; split <;> rfl
@[simp] theorem State.fuses_raise (code unit object waiter detail : Nat) (b : Bool) : (s.raise code unit object waiter detail b).fuses = s.fuses := by
  unfold State.raise; dsimp only; split <;> rfl
@[simp] theorem State.light_raise (code unit object waiter detail : Nat) (b : Bool) : (s.raise code unit object waiter detail b).light = s.light := by
  unfold State.raise; dsimp only; split <;> rfl
@[simp] theorem State.linkTx_raise (code unit object waiter detail : Nat) (b : Bool) : (s.raise code unit object waiter detail b).linkTx = s.linkTx := by
  unfold State.raise; dsimp only; split <;> rfl
@[simp] theorem State.net_raise (code unit object waiter detail : Nat) (b : Bool) : (s.raise code unit object waiter detail b).net = s.net := by
  unfold State.raise; dsimp only; split <;> rfl
@[simp] theorem State.links_raise (code unit object waiter detail : Nat) (b : Bool) : (s.raise code unit object waiter detail b).links = s.links := by
  unfold State.raise; dsimp only; split <;> rfl
@[simp] theorem State.claim_raise (code unit object waiter detail : Nat) (b : Bool) : (s.raise code unit object waiter detail b).claim = s.claim := by
  unfold State.raise; dsimp only; split <;> rfl
@[simp] theorem State.mrs_raise (code unit object waiter detail : Nat) (b : Bool) : (s.raise code unit object waiter detail b).mrs = s.mrs := by
  unfold State.raise; dsimp only; split <;> rfl
@[simp] theorem State.qps_raise (code unit object waiter detail : Nat) (b : Bool) : (s.raise code unit object waiter detail b).qps = s.qps := by
  unfold State.raise; dsimp only; split <;> rfl
@[simp] theorem State.frames_raise (code unit object waiter detail : Nat) (b : Bool) : (s.raise code unit object waiter detail b).frames = s.frames := by
  unfold State.raise; dsimp only; split <;> rfl
@[simp] theorem State.ports_raise (code unit object waiter detail : Nat) (b : Bool) : (s.raise code unit object waiter detail b).ports = s.ports := by
  unfold State.raise; dsimp only; split <;> rfl
@[simp] theorem State.opts_raise (code unit object waiter detail : Nat) (b : Bool) : (s.raise code unit object waiter detail b).opts = s.opts := by
  unfold State.raise; dsimp only; split <;> rfl
@[simp] theorem State.waves_raise (code unit object waiter detail : Nat) (b : Bool) : (s.raise code unit object waiter detail b).waves = s.waves := by
  unfold State.raise; dsimp only; split <;> rfl
@[simp] theorem State.d2d_raise (code unit object waiter detail : Nat) (b : Bool) : (s.raise code unit object waiter detail b).d2d = s.d2d := by
  unfold State.raise; dsimp only; split <;> rfl
@[simp] theorem State.pwr_raise (code unit object waiter detail : Nat) (b : Bool) : (s.raise code unit object waiter detail b).pwr = s.pwr := by
  unfold State.raise; dsimp only; split <;> rfl
@[simp] theorem State.dies_raise (code unit object waiter detail : Nat) (b : Bool) : (s.raise code unit object waiter detail b).dies = s.dies := by
  unfold State.raise; dsimp only; split <;> rfl
@[simp] theorem State.sensors_raise (code unit object waiter detail : Nat) (b : Bool) : (s.raise code unit object waiter detail b).sensors = s.sensors := by
  unfold State.raise; dsimp only; split <;> rfl
@[simp] theorem State.energy_raise (code unit object waiter detail : Nat) (b : Bool) : (s.raise code unit object waiter detail b).energy = s.energy := by
  unfold State.raise; dsimp only; split <;> rfl
@[simp] theorem State.serving_raise (code unit object waiter detail : Nat) (b : Bool) : (s.raise code unit object waiter detail b).serving = s.serving := by
  unfold State.raise; dsimp only; split <;> rfl
@[simp] theorem State.boot_raise (code unit object waiter detail : Nat) (b : Bool) : (s.raise code unit object waiter detail b).boot = s.boot := by
  unfold State.raise; dsimp only; split <;> rfl
@[simp] theorem State.testing_raise (code unit object waiter detail : Nat) (b : Bool) : (s.raise code unit object waiter detail b).testing = s.testing := by
  unfold State.raise; dsimp only; split <;> rfl
@[simp] theorem State.missed_raise (code unit object waiter detail : Nat) (b : Bool) : (s.raise code unit object waiter detail b).missed = s.missed := by
  unfold State.raise; dsimp only; split <;> rfl
@[simp] theorem State.shuts_raise (code unit object waiter detail : Nat) (b : Bool) : (s.raise code unit object waiter detail b).shuts = s.shuts := by
  unfold State.raise; dsimp only; split <;> rfl
@[simp] theorem State.shutNo_raise (code unit object waiter detail : Nat) (b : Bool) : (s.raise code unit object waiter detail b).shutNo = s.shutNo := by
  unfold State.raise; dsimp only; split <;> rfl
@[simp] theorem State.d2dSent_raise (code unit object waiter detail : Nat) (b : Bool) : (s.raise code unit object waiter detail b).d2dSent = s.d2dSent := by
  unfold State.raise; dsimp only; split <;> rfl
@[simp] theorem State.planReady_raise (code unit object waiter detail : Nat) (b : Bool) : (s.raise code unit object waiter detail b).planReady = s.planReady := by
  unfold State.raise; dsimp only; split <;> rfl
@[simp] theorem State.lateAborts_raise (code unit object waiter detail : Nat) (b : Bool) : (s.raise code unit object waiter detail b).lateAborts = s.lateAborts := by
  unfold State.raise; dsimp only; split <;> rfl
@[simp] theorem State.lateStops_raise (code unit object waiter detail : Nat) (b : Bool) : (s.raise code unit object waiter detail b).lateStops = s.lateStops := by
  unfold State.raise; dsimp only; split <;> rfl
@[simp] theorem State.met_raise (code unit object waiter detail : Nat) (b : Bool) : (s.raise code unit object waiter detail b).met = s.met := by
  unfold State.raise; dsimp only; split <;> rfl
@[simp] theorem State.mirror_raise (code unit object waiter detail : Nat) (b : Bool) : (s.raise code unit object waiter detail b).mirror = s.mirror := by
  unfold State.raise; dsimp only; split <;> rfl
@[simp] theorem State.mgmt_raise (code unit object waiter detail : Nat) (b : Bool) : (s.raise code unit object waiter detail b).mgmt = s.mgmt := by
  unfold State.raise; dsimp only; split <;> rfl
@[simp] theorem State.ecpOut_raise (code unit object waiter detail : Nat) (b : Bool) : (s.raise code unit object waiter detail b).ecpOut = s.ecpOut := by
  unfold State.raise; dsimp only; split <;> rfl

@[simp] theorem State.pending_charge (acct die term n : Nat) : (s.charge acct die term n).pending = s.pending := by
  unfold State.charge; dsimp only; split <;> rfl
@[simp] theorem State.later_charge (acct die term n : Nat) : (s.charge acct die term n).later = s.later := by
  unfold State.charge; dsimp only; split <;> rfl
@[simp] theorem State.tick_charge (acct die term n : Nat) : (s.charge acct die term n).tick = s.tick := by
  unfold State.charge; dsimp only; split <;> rfl
@[simp] theorem State.freeCtr_charge (acct die term n : Nat) : (s.charge acct die term n).freeCtr = s.freeCtr := by
  unfold State.charge; dsimp only; split <;> rfl
@[simp] theorem State.regs_charge (acct die term n : Nat) : (s.charge acct die term n).regs = s.regs := by
  unfold State.charge; dsimp only; split <;> rfl
@[simp] theorem State.fresh_charge (acct die term n : Nat) : (s.charge acct die term n).fresh = s.fresh := by
  unfold State.charge; dsimp only; split <;> rfl
@[simp] theorem State.answers_charge (acct die term n : Nat) : (s.charge acct die term n).answers = s.answers := by
  unfold State.charge; dsimp only; split <;> rfl
@[simp] theorem State.mem_charge (acct die term n : Nat) : (s.charge acct die term n).mem = s.mem := by
  unfold State.charge; dsimp only; split <;> rfl
@[simp] theorem State.ev_charge (acct die term n : Nat) : (s.charge acct die term n).ev = s.ev := by
  unfold State.charge; dsimp only; split <;> rfl
@[simp] theorem State.downAt_charge (acct die term n : Nat) : (s.charge acct die term n).downAt = s.downAt := by
  unfold State.charge; dsimp only; split <;> rfl
@[simp] theorem State.cores_charge (acct die term n : Nat) : (s.charge acct die term n).cores = s.cores := by
  unfold State.charge; dsimp only; split <;> rfl
@[simp] theorem State.engs_charge (acct die term n : Nat) : (s.charge acct die term n).engs = s.engs := by
  unfold State.charge; dsimp only; split <;> rfl
@[simp] theorem State.hubs_charge (acct die term n : Nat) : (s.charge acct die term n).hubs = s.hubs := by
  unfold State.charge; dsimp only; split <;> rfl
@[simp] theorem State.ctxs_charge (acct die term n : Nat) : (s.charge acct die term n).ctxs = s.ctxs := by
  unfold State.charge; dsimp only; split <;> rfl
@[simp] theorem State.admits_charge (acct die term n : Nat) : (s.charge acct die term n).admits = s.admits := by
  unfold State.charge; dsimp only; split <;> rfl
@[simp] theorem State.seqs_charge (acct die term n : Nat) : (s.charge acct die term n).seqs = s.seqs := by
  unfold State.charge; dsimp only; split <;> rfl
@[simp] theorem State.lease_charge (acct die term n : Nat) : (s.charge acct die term n).lease = s.lease := by
  unfold State.charge; dsimp only; split <;> rfl
@[simp] theorem State.tlbHeld_charge (acct die term n : Nat) : (s.charge acct die term n).tlbHeld = s.tlbHeld := by
  unfold State.charge; dsimp only; split <;> rfl
@[simp] theorem State.tlbCur_charge (acct die term n : Nat) : (s.charge acct die term n).tlbCur = s.tlbCur := by
  unfold State.charge; dsimp only; split <;> rfl
@[simp] theorem State.hbm_charge (acct die term n : Nat) : (s.charge acct die term n).hbm = s.hbm := by
  unfold State.charge; dsimp only; split <;> rfl
@[simp] theorem State.caches_charge (acct die term n : Nat) : (s.charge acct die term n).caches = s.caches := by
  unfold State.charge; dsimp only; split <;> rfl
@[simp] theorem State.cacheReq_charge (acct die term n : Nat) : (s.charge acct die term n).cacheReq = s.cacheReq := by
  unfold State.charge; dsimp only; split <;> rfl
@[simp] theorem State.fuses_charge (acct die term n : Nat) : (s.charge acct die term n).fuses = s.fuses := by
  unfold State.charge; dsimp only; split <;> rfl
@[simp] theorem State.light_charge (acct die term n : Nat) : (s.charge acct die term n).light = s.light := by
  unfold State.charge; dsimp only; split <;> rfl
@[simp] theorem State.linkTx_charge (acct die term n : Nat) : (s.charge acct die term n).linkTx = s.linkTx := by
  unfold State.charge; dsimp only; split <;> rfl
@[simp] theorem State.net_charge (acct die term n : Nat) : (s.charge acct die term n).net = s.net := by
  unfold State.charge; dsimp only; split <;> rfl
@[simp] theorem State.links_charge (acct die term n : Nat) : (s.charge acct die term n).links = s.links := by
  unfold State.charge; dsimp only; split <;> rfl
@[simp] theorem State.claim_charge (acct die term n : Nat) : (s.charge acct die term n).claim = s.claim := by
  unfold State.charge; dsimp only; split <;> rfl
@[simp] theorem State.mrs_charge (acct die term n : Nat) : (s.charge acct die term n).mrs = s.mrs := by
  unfold State.charge; dsimp only; split <;> rfl
@[simp] theorem State.qps_charge (acct die term n : Nat) : (s.charge acct die term n).qps = s.qps := by
  unfold State.charge; dsimp only; split <;> rfl
@[simp] theorem State.frames_charge (acct die term n : Nat) : (s.charge acct die term n).frames = s.frames := by
  unfold State.charge; dsimp only; split <;> rfl
@[simp] theorem State.ports_charge (acct die term n : Nat) : (s.charge acct die term n).ports = s.ports := by
  unfold State.charge; dsimp only; split <;> rfl
@[simp] theorem State.opts_charge (acct die term n : Nat) : (s.charge acct die term n).opts = s.opts := by
  unfold State.charge; dsimp only; split <;> rfl
@[simp] theorem State.waves_charge (acct die term n : Nat) : (s.charge acct die term n).waves = s.waves := by
  unfold State.charge; dsimp only; split <;> rfl
@[simp] theorem State.d2d_charge (acct die term n : Nat) : (s.charge acct die term n).d2d = s.d2d := by
  unfold State.charge; dsimp only; split <;> rfl
@[simp] theorem State.pwr_charge (acct die term n : Nat) : (s.charge acct die term n).pwr = s.pwr := by
  unfold State.charge; dsimp only; split <;> rfl
@[simp] theorem State.dies_charge (acct die term n : Nat) : (s.charge acct die term n).dies = s.dies := by
  unfold State.charge; dsimp only; split <;> rfl
@[simp] theorem State.sensors_charge (acct die term n : Nat) : (s.charge acct die term n).sensors = s.sensors := by
  unfold State.charge; dsimp only; split <;> rfl
@[simp] theorem State.serving_charge (acct die term n : Nat) : (s.charge acct die term n).serving = s.serving := by
  unfold State.charge; dsimp only; split <;> rfl
@[simp] theorem State.boot_charge (acct die term n : Nat) : (s.charge acct die term n).boot = s.boot := by
  unfold State.charge; dsimp only; split <;> rfl
@[simp] theorem State.testing_charge (acct die term n : Nat) : (s.charge acct die term n).testing = s.testing := by
  unfold State.charge; dsimp only; split <;> rfl
@[simp] theorem State.missed_charge (acct die term n : Nat) : (s.charge acct die term n).missed = s.missed := by
  unfold State.charge; dsimp only; split <;> rfl
@[simp] theorem State.shuts_charge (acct die term n : Nat) : (s.charge acct die term n).shuts = s.shuts := by
  unfold State.charge; dsimp only; split <;> rfl
@[simp] theorem State.shutNo_charge (acct die term n : Nat) : (s.charge acct die term n).shutNo = s.shutNo := by
  unfold State.charge; dsimp only; split <;> rfl
@[simp] theorem State.d2dSent_charge (acct die term n : Nat) : (s.charge acct die term n).d2dSent = s.d2dSent := by
  unfold State.charge; dsimp only; split <;> rfl
@[simp] theorem State.planReady_charge (acct die term n : Nat) : (s.charge acct die term n).planReady = s.planReady := by
  unfold State.charge; dsimp only; split <;> rfl
@[simp] theorem State.lateAborts_charge (acct die term n : Nat) : (s.charge acct die term n).lateAborts = s.lateAborts := by
  unfold State.charge; dsimp only; split <;> rfl
@[simp] theorem State.lateStops_charge (acct die term n : Nat) : (s.charge acct die term n).lateStops = s.lateStops := by
  unfold State.charge; dsimp only; split <;> rfl
@[simp] theorem State.met_charge (acct die term n : Nat) : (s.charge acct die term n).met = s.met := by
  unfold State.charge; dsimp only; split <;> rfl
@[simp] theorem State.mirror_charge (acct die term n : Nat) : (s.charge acct die term n).mirror = s.mirror := by
  unfold State.charge; dsimp only; split <;> rfl
@[simp] theorem State.mgmt_charge (acct die term n : Nat) : (s.charge acct die term n).mgmt = s.mgmt := by
  unfold State.charge; dsimp only; split <;> rfl
@[simp] theorem State.ecpOut_charge (acct die term n : Nat) : (s.charge acct die term n).ecpOut = s.ecpOut := by
  unfold State.charge; dsimp only; split <;> rfl

@[simp] theorem State.pending_hw (u : Nat) (f : Fld) (v n d : Nat) : (s.hw u f v n d).pending = s.pending := rfl
@[simp] theorem State.later_hw (u : Nat) (f : Fld) (v n d : Nat) : (s.hw u f v n d).later = s.later := rfl
@[simp] theorem State.tick_hw (u : Nat) (f : Fld) (v n d : Nat) : (s.hw u f v n d).tick = s.tick := rfl
@[simp] theorem State.freeCtr_hw (u : Nat) (f : Fld) (v n d : Nat) : (s.hw u f v n d).freeCtr = s.freeCtr := rfl
@[simp] theorem State.answers_hw (u : Nat) (f : Fld) (v n d : Nat) : (s.hw u f v n d).answers = s.answers := rfl
@[simp] theorem State.mem_hw (u : Nat) (f : Fld) (v n d : Nat) : (s.hw u f v n d).mem = s.mem := rfl
@[simp] theorem State.ev_hw (u : Nat) (f : Fld) (v n d : Nat) : (s.hw u f v n d).ev = s.ev := rfl
@[simp] theorem State.downAt_hw (u : Nat) (f : Fld) (v n d : Nat) : (s.hw u f v n d).downAt = s.downAt := rfl
@[simp] theorem State.cores_hw (u : Nat) (f : Fld) (v n d : Nat) : (s.hw u f v n d).cores = s.cores := rfl
@[simp] theorem State.engs_hw (u : Nat) (f : Fld) (v n d : Nat) : (s.hw u f v n d).engs = s.engs := rfl
@[simp] theorem State.hubs_hw (u : Nat) (f : Fld) (v n d : Nat) : (s.hw u f v n d).hubs = s.hubs := rfl
@[simp] theorem State.ctxs_hw (u : Nat) (f : Fld) (v n d : Nat) : (s.hw u f v n d).ctxs = s.ctxs := rfl
@[simp] theorem State.admits_hw (u : Nat) (f : Fld) (v n d : Nat) : (s.hw u f v n d).admits = s.admits := rfl
@[simp] theorem State.seqs_hw (u : Nat) (f : Fld) (v n d : Nat) : (s.hw u f v n d).seqs = s.seqs := rfl
@[simp] theorem State.lease_hw (u : Nat) (f : Fld) (v n d : Nat) : (s.hw u f v n d).lease = s.lease := rfl
@[simp] theorem State.tlbHeld_hw (u : Nat) (f : Fld) (v n d : Nat) : (s.hw u f v n d).tlbHeld = s.tlbHeld := rfl
@[simp] theorem State.tlbCur_hw (u : Nat) (f : Fld) (v n d : Nat) : (s.hw u f v n d).tlbCur = s.tlbCur := rfl
@[simp] theorem State.hbm_hw (u : Nat) (f : Fld) (v n d : Nat) : (s.hw u f v n d).hbm = s.hbm := rfl
@[simp] theorem State.caches_hw (u : Nat) (f : Fld) (v n d : Nat) : (s.hw u f v n d).caches = s.caches := rfl
@[simp] theorem State.cacheReq_hw (u : Nat) (f : Fld) (v n d : Nat) : (s.hw u f v n d).cacheReq = s.cacheReq := rfl
@[simp] theorem State.fuses_hw (u : Nat) (f : Fld) (v n d : Nat) : (s.hw u f v n d).fuses = s.fuses := rfl
@[simp] theorem State.light_hw (u : Nat) (f : Fld) (v n d : Nat) : (s.hw u f v n d).light = s.light := rfl
@[simp] theorem State.linkTx_hw (u : Nat) (f : Fld) (v n d : Nat) : (s.hw u f v n d).linkTx = s.linkTx := rfl
@[simp] theorem State.net_hw (u : Nat) (f : Fld) (v n d : Nat) : (s.hw u f v n d).net = s.net := rfl
@[simp] theorem State.links_hw (u : Nat) (f : Fld) (v n d : Nat) : (s.hw u f v n d).links = s.links := rfl
@[simp] theorem State.claim_hw (u : Nat) (f : Fld) (v n d : Nat) : (s.hw u f v n d).claim = s.claim := rfl
@[simp] theorem State.mrs_hw (u : Nat) (f : Fld) (v n d : Nat) : (s.hw u f v n d).mrs = s.mrs := rfl
@[simp] theorem State.qps_hw (u : Nat) (f : Fld) (v n d : Nat) : (s.hw u f v n d).qps = s.qps := rfl
@[simp] theorem State.frames_hw (u : Nat) (f : Fld) (v n d : Nat) : (s.hw u f v n d).frames = s.frames := rfl
@[simp] theorem State.ports_hw (u : Nat) (f : Fld) (v n d : Nat) : (s.hw u f v n d).ports = s.ports := rfl
@[simp] theorem State.opts_hw (u : Nat) (f : Fld) (v n d : Nat) : (s.hw u f v n d).opts = s.opts := rfl
@[simp] theorem State.waves_hw (u : Nat) (f : Fld) (v n d : Nat) : (s.hw u f v n d).waves = s.waves := rfl
@[simp] theorem State.d2d_hw (u : Nat) (f : Fld) (v n d : Nat) : (s.hw u f v n d).d2d = s.d2d := rfl
@[simp] theorem State.pwr_hw (u : Nat) (f : Fld) (v n d : Nat) : (s.hw u f v n d).pwr = s.pwr := rfl
@[simp] theorem State.dies_hw (u : Nat) (f : Fld) (v n d : Nat) : (s.hw u f v n d).dies = s.dies := rfl
@[simp] theorem State.sensors_hw (u : Nat) (f : Fld) (v n d : Nat) : (s.hw u f v n d).sensors = s.sensors := rfl
@[simp] theorem State.energy_hw (u : Nat) (f : Fld) (v n d : Nat) : (s.hw u f v n d).energy = s.energy := rfl
@[simp] theorem State.serving_hw (u : Nat) (f : Fld) (v n d : Nat) : (s.hw u f v n d).serving = s.serving := rfl
@[simp] theorem State.boot_hw (u : Nat) (f : Fld) (v n d : Nat) : (s.hw u f v n d).boot = s.boot := rfl
@[simp] theorem State.testing_hw (u : Nat) (f : Fld) (v n d : Nat) : (s.hw u f v n d).testing = s.testing := rfl
@[simp] theorem State.missed_hw (u : Nat) (f : Fld) (v n d : Nat) : (s.hw u f v n d).missed = s.missed := rfl
@[simp] theorem State.shuts_hw (u : Nat) (f : Fld) (v n d : Nat) : (s.hw u f v n d).shuts = s.shuts := rfl
@[simp] theorem State.shutNo_hw (u : Nat) (f : Fld) (v n d : Nat) : (s.hw u f v n d).shutNo = s.shutNo := rfl
@[simp] theorem State.d2dSent_hw (u : Nat) (f : Fld) (v n d : Nat) : (s.hw u f v n d).d2dSent = s.d2dSent := rfl
@[simp] theorem State.planReady_hw (u : Nat) (f : Fld) (v n d : Nat) : (s.hw u f v n d).planReady = s.planReady := rfl
@[simp] theorem State.lateAborts_hw (u : Nat) (f : Fld) (v n d : Nat) : (s.hw u f v n d).lateAborts = s.lateAborts := rfl
@[simp] theorem State.lateStops_hw (u : Nat) (f : Fld) (v n d : Nat) : (s.hw u f v n d).lateStops = s.lateStops := rfl
@[simp] theorem State.met_hw (u : Nat) (f : Fld) (v n d : Nat) : (s.hw u f v n d).met = s.met := rfl
@[simp] theorem State.mirror_hw (u : Nat) (f : Fld) (v n d : Nat) : (s.hw u f v n d).mirror = s.mirror := rfl
@[simp] theorem State.mgmt_hw (u : Nat) (f : Fld) (v n d : Nat) : (s.hw u f v n d).mgmt = s.mgmt := rfl
@[simp] theorem State.ecpOut_hw (u : Nat) (f : Fld) (v n d : Nat) : (s.hw u f v n d).ecpOut = s.ecpOut := rfl

@[simp] theorem State.pending_rmax (u : Nat) (f : Fld) (v d : Nat) : (s.rmax u f v d).pending = s.pending := rfl
@[simp] theorem State.later_rmax (u : Nat) (f : Fld) (v d : Nat) : (s.rmax u f v d).later = s.later := rfl
@[simp] theorem State.tick_rmax (u : Nat) (f : Fld) (v d : Nat) : (s.rmax u f v d).tick = s.tick := rfl
@[simp] theorem State.freeCtr_rmax (u : Nat) (f : Fld) (v d : Nat) : (s.rmax u f v d).freeCtr = s.freeCtr := rfl
@[simp] theorem State.answers_rmax (u : Nat) (f : Fld) (v d : Nat) : (s.rmax u f v d).answers = s.answers := rfl
@[simp] theorem State.mem_rmax (u : Nat) (f : Fld) (v d : Nat) : (s.rmax u f v d).mem = s.mem := rfl
@[simp] theorem State.ev_rmax (u : Nat) (f : Fld) (v d : Nat) : (s.rmax u f v d).ev = s.ev := rfl
@[simp] theorem State.downAt_rmax (u : Nat) (f : Fld) (v d : Nat) : (s.rmax u f v d).downAt = s.downAt := rfl
@[simp] theorem State.cores_rmax (u : Nat) (f : Fld) (v d : Nat) : (s.rmax u f v d).cores = s.cores := rfl
@[simp] theorem State.engs_rmax (u : Nat) (f : Fld) (v d : Nat) : (s.rmax u f v d).engs = s.engs := rfl
@[simp] theorem State.hubs_rmax (u : Nat) (f : Fld) (v d : Nat) : (s.rmax u f v d).hubs = s.hubs := rfl
@[simp] theorem State.ctxs_rmax (u : Nat) (f : Fld) (v d : Nat) : (s.rmax u f v d).ctxs = s.ctxs := rfl
@[simp] theorem State.admits_rmax (u : Nat) (f : Fld) (v d : Nat) : (s.rmax u f v d).admits = s.admits := rfl
@[simp] theorem State.seqs_rmax (u : Nat) (f : Fld) (v d : Nat) : (s.rmax u f v d).seqs = s.seqs := rfl
@[simp] theorem State.lease_rmax (u : Nat) (f : Fld) (v d : Nat) : (s.rmax u f v d).lease = s.lease := rfl
@[simp] theorem State.tlbHeld_rmax (u : Nat) (f : Fld) (v d : Nat) : (s.rmax u f v d).tlbHeld = s.tlbHeld := rfl
@[simp] theorem State.tlbCur_rmax (u : Nat) (f : Fld) (v d : Nat) : (s.rmax u f v d).tlbCur = s.tlbCur := rfl
@[simp] theorem State.hbm_rmax (u : Nat) (f : Fld) (v d : Nat) : (s.rmax u f v d).hbm = s.hbm := rfl
@[simp] theorem State.caches_rmax (u : Nat) (f : Fld) (v d : Nat) : (s.rmax u f v d).caches = s.caches := rfl
@[simp] theorem State.cacheReq_rmax (u : Nat) (f : Fld) (v d : Nat) : (s.rmax u f v d).cacheReq = s.cacheReq := rfl
@[simp] theorem State.fuses_rmax (u : Nat) (f : Fld) (v d : Nat) : (s.rmax u f v d).fuses = s.fuses := rfl
@[simp] theorem State.light_rmax (u : Nat) (f : Fld) (v d : Nat) : (s.rmax u f v d).light = s.light := rfl
@[simp] theorem State.linkTx_rmax (u : Nat) (f : Fld) (v d : Nat) : (s.rmax u f v d).linkTx = s.linkTx := rfl
@[simp] theorem State.net_rmax (u : Nat) (f : Fld) (v d : Nat) : (s.rmax u f v d).net = s.net := rfl
@[simp] theorem State.links_rmax (u : Nat) (f : Fld) (v d : Nat) : (s.rmax u f v d).links = s.links := rfl
@[simp] theorem State.claim_rmax (u : Nat) (f : Fld) (v d : Nat) : (s.rmax u f v d).claim = s.claim := rfl
@[simp] theorem State.mrs_rmax (u : Nat) (f : Fld) (v d : Nat) : (s.rmax u f v d).mrs = s.mrs := rfl
@[simp] theorem State.qps_rmax (u : Nat) (f : Fld) (v d : Nat) : (s.rmax u f v d).qps = s.qps := rfl
@[simp] theorem State.frames_rmax (u : Nat) (f : Fld) (v d : Nat) : (s.rmax u f v d).frames = s.frames := rfl
@[simp] theorem State.ports_rmax (u : Nat) (f : Fld) (v d : Nat) : (s.rmax u f v d).ports = s.ports := rfl
@[simp] theorem State.opts_rmax (u : Nat) (f : Fld) (v d : Nat) : (s.rmax u f v d).opts = s.opts := rfl
@[simp] theorem State.waves_rmax (u : Nat) (f : Fld) (v d : Nat) : (s.rmax u f v d).waves = s.waves := rfl
@[simp] theorem State.d2d_rmax (u : Nat) (f : Fld) (v d : Nat) : (s.rmax u f v d).d2d = s.d2d := rfl
@[simp] theorem State.pwr_rmax (u : Nat) (f : Fld) (v d : Nat) : (s.rmax u f v d).pwr = s.pwr := rfl
@[simp] theorem State.dies_rmax (u : Nat) (f : Fld) (v d : Nat) : (s.rmax u f v d).dies = s.dies := rfl
@[simp] theorem State.sensors_rmax (u : Nat) (f : Fld) (v d : Nat) : (s.rmax u f v d).sensors = s.sensors := rfl
@[simp] theorem State.energy_rmax (u : Nat) (f : Fld) (v d : Nat) : (s.rmax u f v d).energy = s.energy := rfl
@[simp] theorem State.serving_rmax (u : Nat) (f : Fld) (v d : Nat) : (s.rmax u f v d).serving = s.serving := rfl
@[simp] theorem State.boot_rmax (u : Nat) (f : Fld) (v d : Nat) : (s.rmax u f v d).boot = s.boot := rfl
@[simp] theorem State.testing_rmax (u : Nat) (f : Fld) (v d : Nat) : (s.rmax u f v d).testing = s.testing := rfl
@[simp] theorem State.missed_rmax (u : Nat) (f : Fld) (v d : Nat) : (s.rmax u f v d).missed = s.missed := rfl
@[simp] theorem State.shuts_rmax (u : Nat) (f : Fld) (v d : Nat) : (s.rmax u f v d).shuts = s.shuts := rfl
@[simp] theorem State.shutNo_rmax (u : Nat) (f : Fld) (v d : Nat) : (s.rmax u f v d).shutNo = s.shutNo := rfl
@[simp] theorem State.d2dSent_rmax (u : Nat) (f : Fld) (v d : Nat) : (s.rmax u f v d).d2dSent = s.d2dSent := rfl
@[simp] theorem State.planReady_rmax (u : Nat) (f : Fld) (v d : Nat) : (s.rmax u f v d).planReady = s.planReady := rfl
@[simp] theorem State.lateAborts_rmax (u : Nat) (f : Fld) (v d : Nat) : (s.rmax u f v d).lateAborts = s.lateAborts := rfl
@[simp] theorem State.lateStops_rmax (u : Nat) (f : Fld) (v d : Nat) : (s.rmax u f v d).lateStops = s.lateStops := rfl
@[simp] theorem State.met_rmax (u : Nat) (f : Fld) (v d : Nat) : (s.rmax u f v d).met = s.met := rfl
@[simp] theorem State.mirror_rmax (u : Nat) (f : Fld) (v d : Nat) : (s.rmax u f v d).mirror = s.mirror := rfl
@[simp] theorem State.mgmt_rmax (u : Nat) (f : Fld) (v d : Nat) : (s.rmax u f v d).mgmt = s.mgmt := rfl
@[simp] theorem State.ecpOut_rmax (u : Nat) (f : Fld) (v d : Nat) : (s.rmax u f v d).ecpOut = s.ecpOut := rfl

@[simp] theorem State.pending_clr (u : Nat) (f : Fld) (d : Nat) : (s.clr u f d).pending = s.pending := rfl
@[simp] theorem State.later_clr (u : Nat) (f : Fld) (d : Nat) : (s.clr u f d).later = s.later := rfl
@[simp] theorem State.tick_clr (u : Nat) (f : Fld) (d : Nat) : (s.clr u f d).tick = s.tick := rfl
@[simp] theorem State.freeCtr_clr (u : Nat) (f : Fld) (d : Nat) : (s.clr u f d).freeCtr = s.freeCtr := rfl
@[simp] theorem State.answers_clr (u : Nat) (f : Fld) (d : Nat) : (s.clr u f d).answers = s.answers := rfl
@[simp] theorem State.mem_clr (u : Nat) (f : Fld) (d : Nat) : (s.clr u f d).mem = s.mem := rfl
@[simp] theorem State.ev_clr (u : Nat) (f : Fld) (d : Nat) : (s.clr u f d).ev = s.ev := rfl
@[simp] theorem State.downAt_clr (u : Nat) (f : Fld) (d : Nat) : (s.clr u f d).downAt = s.downAt := rfl
@[simp] theorem State.cores_clr (u : Nat) (f : Fld) (d : Nat) : (s.clr u f d).cores = s.cores := rfl
@[simp] theorem State.engs_clr (u : Nat) (f : Fld) (d : Nat) : (s.clr u f d).engs = s.engs := rfl
@[simp] theorem State.hubs_clr (u : Nat) (f : Fld) (d : Nat) : (s.clr u f d).hubs = s.hubs := rfl
@[simp] theorem State.ctxs_clr (u : Nat) (f : Fld) (d : Nat) : (s.clr u f d).ctxs = s.ctxs := rfl
@[simp] theorem State.admits_clr (u : Nat) (f : Fld) (d : Nat) : (s.clr u f d).admits = s.admits := rfl
@[simp] theorem State.seqs_clr (u : Nat) (f : Fld) (d : Nat) : (s.clr u f d).seqs = s.seqs := rfl
@[simp] theorem State.lease_clr (u : Nat) (f : Fld) (d : Nat) : (s.clr u f d).lease = s.lease := rfl
@[simp] theorem State.tlbHeld_clr (u : Nat) (f : Fld) (d : Nat) : (s.clr u f d).tlbHeld = s.tlbHeld := rfl
@[simp] theorem State.tlbCur_clr (u : Nat) (f : Fld) (d : Nat) : (s.clr u f d).tlbCur = s.tlbCur := rfl
@[simp] theorem State.hbm_clr (u : Nat) (f : Fld) (d : Nat) : (s.clr u f d).hbm = s.hbm := rfl
@[simp] theorem State.caches_clr (u : Nat) (f : Fld) (d : Nat) : (s.clr u f d).caches = s.caches := rfl
@[simp] theorem State.cacheReq_clr (u : Nat) (f : Fld) (d : Nat) : (s.clr u f d).cacheReq = s.cacheReq := rfl
@[simp] theorem State.fuses_clr (u : Nat) (f : Fld) (d : Nat) : (s.clr u f d).fuses = s.fuses := rfl
@[simp] theorem State.light_clr (u : Nat) (f : Fld) (d : Nat) : (s.clr u f d).light = s.light := rfl
@[simp] theorem State.linkTx_clr (u : Nat) (f : Fld) (d : Nat) : (s.clr u f d).linkTx = s.linkTx := rfl
@[simp] theorem State.net_clr (u : Nat) (f : Fld) (d : Nat) : (s.clr u f d).net = s.net := rfl
@[simp] theorem State.links_clr (u : Nat) (f : Fld) (d : Nat) : (s.clr u f d).links = s.links := rfl
@[simp] theorem State.claim_clr (u : Nat) (f : Fld) (d : Nat) : (s.clr u f d).claim = s.claim := rfl
@[simp] theorem State.mrs_clr (u : Nat) (f : Fld) (d : Nat) : (s.clr u f d).mrs = s.mrs := rfl
@[simp] theorem State.qps_clr (u : Nat) (f : Fld) (d : Nat) : (s.clr u f d).qps = s.qps := rfl
@[simp] theorem State.frames_clr (u : Nat) (f : Fld) (d : Nat) : (s.clr u f d).frames = s.frames := rfl
@[simp] theorem State.ports_clr (u : Nat) (f : Fld) (d : Nat) : (s.clr u f d).ports = s.ports := rfl
@[simp] theorem State.opts_clr (u : Nat) (f : Fld) (d : Nat) : (s.clr u f d).opts = s.opts := rfl
@[simp] theorem State.waves_clr (u : Nat) (f : Fld) (d : Nat) : (s.clr u f d).waves = s.waves := rfl
@[simp] theorem State.d2d_clr (u : Nat) (f : Fld) (d : Nat) : (s.clr u f d).d2d = s.d2d := rfl
@[simp] theorem State.pwr_clr (u : Nat) (f : Fld) (d : Nat) : (s.clr u f d).pwr = s.pwr := rfl
@[simp] theorem State.dies_clr (u : Nat) (f : Fld) (d : Nat) : (s.clr u f d).dies = s.dies := rfl
@[simp] theorem State.sensors_clr (u : Nat) (f : Fld) (d : Nat) : (s.clr u f d).sensors = s.sensors := rfl
@[simp] theorem State.energy_clr (u : Nat) (f : Fld) (d : Nat) : (s.clr u f d).energy = s.energy := rfl
@[simp] theorem State.serving_clr (u : Nat) (f : Fld) (d : Nat) : (s.clr u f d).serving = s.serving := rfl
@[simp] theorem State.boot_clr (u : Nat) (f : Fld) (d : Nat) : (s.clr u f d).boot = s.boot := rfl
@[simp] theorem State.testing_clr (u : Nat) (f : Fld) (d : Nat) : (s.clr u f d).testing = s.testing := rfl
@[simp] theorem State.missed_clr (u : Nat) (f : Fld) (d : Nat) : (s.clr u f d).missed = s.missed := rfl
@[simp] theorem State.shuts_clr (u : Nat) (f : Fld) (d : Nat) : (s.clr u f d).shuts = s.shuts := rfl
@[simp] theorem State.shutNo_clr (u : Nat) (f : Fld) (d : Nat) : (s.clr u f d).shutNo = s.shutNo := rfl
@[simp] theorem State.d2dSent_clr (u : Nat) (f : Fld) (d : Nat) : (s.clr u f d).d2dSent = s.d2dSent := rfl
@[simp] theorem State.planReady_clr (u : Nat) (f : Fld) (d : Nat) : (s.clr u f d).planReady = s.planReady := rfl
@[simp] theorem State.lateAborts_clr (u : Nat) (f : Fld) (d : Nat) : (s.clr u f d).lateAborts = s.lateAborts := rfl
@[simp] theorem State.lateStops_clr (u : Nat) (f : Fld) (d : Nat) : (s.clr u f d).lateStops = s.lateStops := rfl
@[simp] theorem State.met_clr (u : Nat) (f : Fld) (d : Nat) : (s.clr u f d).met = s.met := rfl
@[simp] theorem State.mirror_clr (u : Nat) (f : Fld) (d : Nat) : (s.clr u f d).mirror = s.mirror := rfl
@[simp] theorem State.mgmt_clr (u : Nat) (f : Fld) (d : Nat) : (s.clr u f d).mgmt = s.mgmt := rfl
@[simp] theorem State.ecpOut_clr (u : Nat) (f : Fld) (d : Nat) : (s.clr u f d).ecpOut = s.ecpOut := rfl

@[simp] theorem State.pending_accessDone (a : Nat) (b : Bool) : (s.accessDone a b).pending = s.pending := rfl
@[simp] theorem State.later_accessDone (a : Nat) (b : Bool) : (s.accessDone a b).later = s.later := rfl
@[simp] theorem State.tick_accessDone (a : Nat) (b : Bool) : (s.accessDone a b).tick = s.tick := rfl
@[simp] theorem State.freeCtr_accessDone (a : Nat) (b : Bool) : (s.accessDone a b).freeCtr = s.freeCtr := rfl
@[simp] theorem State.regs_accessDone (a : Nat) (b : Bool) : (s.accessDone a b).regs = s.regs := rfl
@[simp] theorem State.fresh_accessDone (a : Nat) (b : Bool) : (s.accessDone a b).fresh = s.fresh := rfl
@[simp] theorem State.mem_accessDone (a : Nat) (b : Bool) : (s.accessDone a b).mem = s.mem := rfl
@[simp] theorem State.ev_accessDone (a : Nat) (b : Bool) : (s.accessDone a b).ev = s.ev := rfl
@[simp] theorem State.downAt_accessDone (a : Nat) (b : Bool) : (s.accessDone a b).downAt = s.downAt := rfl
@[simp] theorem State.cores_accessDone (a : Nat) (b : Bool) : (s.accessDone a b).cores = s.cores := rfl
@[simp] theorem State.engs_accessDone (a : Nat) (b : Bool) : (s.accessDone a b).engs = s.engs := rfl
@[simp] theorem State.hubs_accessDone (a : Nat) (b : Bool) : (s.accessDone a b).hubs = s.hubs := rfl
@[simp] theorem State.ctxs_accessDone (a : Nat) (b : Bool) : (s.accessDone a b).ctxs = s.ctxs := rfl
@[simp] theorem State.admits_accessDone (a : Nat) (b : Bool) : (s.accessDone a b).admits = s.admits := rfl
@[simp] theorem State.seqs_accessDone (a : Nat) (b : Bool) : (s.accessDone a b).seqs = s.seqs := rfl
@[simp] theorem State.lease_accessDone (a : Nat) (b : Bool) : (s.accessDone a b).lease = s.lease := rfl
@[simp] theorem State.tlbHeld_accessDone (a : Nat) (b : Bool) : (s.accessDone a b).tlbHeld = s.tlbHeld := rfl
@[simp] theorem State.tlbCur_accessDone (a : Nat) (b : Bool) : (s.accessDone a b).tlbCur = s.tlbCur := rfl
@[simp] theorem State.hbm_accessDone (a : Nat) (b : Bool) : (s.accessDone a b).hbm = s.hbm := rfl
@[simp] theorem State.caches_accessDone (a : Nat) (b : Bool) : (s.accessDone a b).caches = s.caches := rfl
@[simp] theorem State.cacheReq_accessDone (a : Nat) (b : Bool) : (s.accessDone a b).cacheReq = s.cacheReq := rfl
@[simp] theorem State.fuses_accessDone (a : Nat) (b : Bool) : (s.accessDone a b).fuses = s.fuses := rfl
@[simp] theorem State.light_accessDone (a : Nat) (b : Bool) : (s.accessDone a b).light = s.light := rfl
@[simp] theorem State.linkTx_accessDone (a : Nat) (b : Bool) : (s.accessDone a b).linkTx = s.linkTx := rfl
@[simp] theorem State.net_accessDone (a : Nat) (b : Bool) : (s.accessDone a b).net = s.net := rfl
@[simp] theorem State.links_accessDone (a : Nat) (b : Bool) : (s.accessDone a b).links = s.links := rfl
@[simp] theorem State.claim_accessDone (a : Nat) (b : Bool) : (s.accessDone a b).claim = s.claim := rfl
@[simp] theorem State.mrs_accessDone (a : Nat) (b : Bool) : (s.accessDone a b).mrs = s.mrs := rfl
@[simp] theorem State.qps_accessDone (a : Nat) (b : Bool) : (s.accessDone a b).qps = s.qps := rfl
@[simp] theorem State.frames_accessDone (a : Nat) (b : Bool) : (s.accessDone a b).frames = s.frames := rfl
@[simp] theorem State.ports_accessDone (a : Nat) (b : Bool) : (s.accessDone a b).ports = s.ports := rfl
@[simp] theorem State.opts_accessDone (a : Nat) (b : Bool) : (s.accessDone a b).opts = s.opts := rfl
@[simp] theorem State.waves_accessDone (a : Nat) (b : Bool) : (s.accessDone a b).waves = s.waves := rfl
@[simp] theorem State.d2d_accessDone (a : Nat) (b : Bool) : (s.accessDone a b).d2d = s.d2d := rfl
@[simp] theorem State.pwr_accessDone (a : Nat) (b : Bool) : (s.accessDone a b).pwr = s.pwr := rfl
@[simp] theorem State.dies_accessDone (a : Nat) (b : Bool) : (s.accessDone a b).dies = s.dies := rfl
@[simp] theorem State.sensors_accessDone (a : Nat) (b : Bool) : (s.accessDone a b).sensors = s.sensors := rfl
@[simp] theorem State.energy_accessDone (a : Nat) (b : Bool) : (s.accessDone a b).energy = s.energy := rfl
@[simp] theorem State.serving_accessDone (a : Nat) (b : Bool) : (s.accessDone a b).serving = s.serving := rfl
@[simp] theorem State.boot_accessDone (a : Nat) (b : Bool) : (s.accessDone a b).boot = s.boot := rfl
@[simp] theorem State.testing_accessDone (a : Nat) (b : Bool) : (s.accessDone a b).testing = s.testing := rfl
@[simp] theorem State.missed_accessDone (a : Nat) (b : Bool) : (s.accessDone a b).missed = s.missed := rfl
@[simp] theorem State.shuts_accessDone (a : Nat) (b : Bool) : (s.accessDone a b).shuts = s.shuts := rfl
@[simp] theorem State.shutNo_accessDone (a : Nat) (b : Bool) : (s.accessDone a b).shutNo = s.shutNo := rfl
@[simp] theorem State.d2dSent_accessDone (a : Nat) (b : Bool) : (s.accessDone a b).d2dSent = s.d2dSent := rfl
@[simp] theorem State.planReady_accessDone (a : Nat) (b : Bool) : (s.accessDone a b).planReady = s.planReady := rfl
@[simp] theorem State.lateAborts_accessDone (a : Nat) (b : Bool) : (s.accessDone a b).lateAborts = s.lateAborts := rfl
@[simp] theorem State.lateStops_accessDone (a : Nat) (b : Bool) : (s.accessDone a b).lateStops = s.lateStops := rfl
@[simp] theorem State.met_accessDone (a : Nat) (b : Bool) : (s.accessDone a b).met = s.met := rfl
@[simp] theorem State.mirror_accessDone (a : Nat) (b : Bool) : (s.accessDone a b).mirror = s.mirror := rfl
@[simp] theorem State.mgmt_accessDone (a : Nat) (b : Bool) : (s.accessDone a b).mgmt = s.mgmt := rfl
@[simp] theorem State.ecpOut_accessDone (a : Nat) (b : Bool) : (s.accessDone a b).ecpOut = s.ecpOut := rfl

end Sys2Proof.Machine
end

