-- ==== Sys2Proof/Laws/Ops.lean ====
section
/-!
SUPPORT. What the operations of `Machine/Ops.lean` keep (see `Laws/Keeps.lean`), one lemma for each; a proof over a meaning
cites these and unfolds none of them.
-/

namespace Sys2Proof.Machine

variable {c : Bool} {a s : State}

/-! ### Operations that write registers or one record -/

theorem State.rs_keeps (u : Nat) (f : Fld) (v d : Nat) (h : Keeps c a s) : Keeps c a (s.rs u f v d) := h.upd rfl rfl rfl rfl (fun _ => ⟨rfl, rfl⟩)
theorem State.rinc_keeps (u : Nat) (f : Fld) (n d : Nat) (h : Keeps c a s) : Keeps c a (s.rinc u f n d) := h.upd rfl rfl rfl rfl (fun _ => ⟨rfl, rfl⟩)
theorem State.radd_keeps (u : Nat) (f : Fld) (n d : Nat) (h : Keeps c a s) : Keeps c a (s.radd u f n d) := h.upd rfl rfl rfl rfl (fun _ => ⟨rfl, rfl⟩)
theorem State.cs_keeps (f : Fld) (k v : Nat) (h : Keeps c a s) : Keeps c a (s.cs f k v) := h.upd rfl rfl rfl rfl (fun _ => ⟨rfl, rfl⟩)
theorem State.ls_keeps (l : Nat) (f : Fld) (v : Nat) (h : Keeps c a s) : Keeps c a (s.ls l f v) := h.upd rfl rfl rfl rfl (fun _ => ⟨rfl, rfl⟩)
theorem State.linc_keeps (l : Nat) (f : Fld) (n : Nat) (h : Keeps c a s) : Keeps c a (s.linc l f n) := h.upd rfl rfl rfl rfl (fun _ => ⟨rfl, rfl⟩)
theorem State.setFence_keeps (t : Nat) (f : Fld) (v : Nat) (h : Keeps c a s) : Keeps c a (s.setFence t f v) := h.upd rfl rfl rfl rfl (fun _ => ⟨rfl, rfl⟩)
theorem State.resetRegs_keeps (u : Nat) (h : Keeps c a s) : Keeps c a (s.resetRegs u) := h.upd rfl rfl rfl rfl (fun _ => ⟨rfl, rfl⟩)
theorem State.setEng_keeps (k : Nat) (x : Eng) (h : Keeps c a s) : Keeps c a (s.setEng k x) := h.upd rfl rfl rfl rfl (fun _ => ⟨rfl, rfl⟩)
theorem State.setCore_keeps (k : Nat) (x : CoreSt) (h : Keeps c a s) : Keeps c a (s.setCore k x) := h.upd rfl rfl rfl rfl (fun _ => ⟨rfl, rfl⟩)
theorem State.setHub_keeps (t : Nat) (x : Hub) (h : Keeps c a s) : Keeps c a (s.setHub t x) := h.upd rfl rfl rfl rfl (fun _ => ⟨rfl, rfl⟩)
theorem State.setCtx_keeps (n : Nat) (x : Ctx) (h : Keeps c a s) : Keeps c a (s.setCtx n x) := h.upd rfl rfl rfl rfl (fun _ => ⟨rfl, rfl⟩)
theorem State.setSeq_keeps (t : Nat) (x : SeqSt) (h : Keeps c a s) : Keeps c a (s.setSeq t x) := h.upd rfl rfl rfl rfl (fun _ => ⟨rfl, rfl⟩)
theorem State.setLink_keeps (l : Nat) (x : Lnk) (h : Keeps c a s) : Keeps c a (s.setLink l x) := h.upd rfl rfl rfl rfl (fun _ => ⟨rfl, rfl⟩)
theorem State.setHpt_keeps (p : Nat) (x : HptSt) (h : Keeps c a s) : Keeps c a (s.setHpt p x) := h.upd rfl rfl rfl rfl (fun _ => ⟨rfl, rfl⟩)
theorem State.setOpt_keeps (l : Nat) (x : OptSt) (h : Keeps c a s) : Keeps c a (s.setOpt l x) := h.upd rfl rfl rfl rfl (fun _ => ⟨rfl, rfl⟩)
theorem State.setMgmt_keeps (x : MgmtSt) (h : Keeps c a s) : Keeps c a (s.setMgmt x) := h.upd rfl rfl rfl rfl (fun _ => ⟨rfl, rfl⟩)
theorem State.setDie_keeps (d : Nat) (x : DiePwr) (h : Keeps c a s) : Keeps c a (s.setDie d x) := h.upd rfl rfl rfl rfl (fun _ => ⟨rfl, rfl⟩)
theorem State.setSens_keeps (t : Nat) (x : Sensors) (h : Keeps c a s) : Keeps c a (s.setSens t x) := h.upd rfl rfl rfl rfl (fun _ => ⟨rfl, rfl⟩)
theorem State.setQp_keeps (n : Nat) (x : Qp) (h : Keeps c a s) : Keeps c a (s.setQp n x) := h.upd rfl rfl rfl rfl (fun _ => ⟨rfl, rfl⟩)
theorem State.setServ_keeps (t : Nat) (x : Serv) (h : Keeps c a s) : Keeps c a (s.setServ t x) := h.upd rfl rfl rfl rfl (fun _ => ⟨rfl, rfl⟩)
theorem State.setHbm_keeps (n : Nat) (x : HbmSt) (h : Keeps c a s) : Keeps c a (s.setHbm n x) := h.upd rfl rfl rfl rfl (fun _ => ⟨rfl, rfl⟩)
theorem State.markEnd_keeps (o : Nat) (h : Keeps c a s) : Keeps c a (s.markEnd o) := h.upd rfl rfl rfl rfl (fun _ => ⟨rfl, rfl⟩)
theorem State.say_keeps (l : List LeaseMsg) (h : Keeps c a s) : Keeps c a (s.say l) := h.upd rfl rfl rfl rfl (fun _ => ⟨rfl, rfl⟩)

/-! ### Free values, memory, events and energy -/

theorem State.free_keeps (h : Keeps c a s) : Keeps c a s.free.2 := h.upd rfl rfl rfl rfl (fun _ => ⟨rfl, rfl⟩)

theorem State.scramble_keeps (b n : Nat) (h : Keeps c a s) : Keeps c a (s.scramble b n) := by
  unfold State.scramble
  exact keeps_ite h (h.updMem rfl (Mem.scramble_wf _ _ _ _) rfl rfl rfl)

theorem State.writeMem_keeps (b : Nat) (bs : List Byte) (h : Keeps c a s) : Keeps c a (s.writeMem b bs) :=
  h.updMem rfl (Mem.writes_wf _ _ _) rfl rfl rfl

theorem State.raise_keeps (code unit object waiter detail : Nat) (b : Bool) (h : Keeps c a s) :
    Keeps c a (s.raise code unit object waiter detail b) := h.upd (by simp) (by simp) (by simp) (by simp) (by simp)

theorem State.charge_keeps (acct die term n : Nat) (h : Keeps c a s) : Keeps c a (s.charge acct die term n) :=
  h.upd (by simp) (by simp) (by simp) (by simp) (by simp)

/-! ### What is sent -/

theorem State.sendLink_keeps (l type : Nat) (args : List Nat) (data : List Byte) (vc ctx : Nat) (h : Keeps c a s) :
    Keeps c a (s.sendLink l type args data vc ctx) := by
  unfold State.sendLink
  dsimp only
  exact keeps_ite (State.setLink_keeps _ _ h) (keeps_ite (State.setLink_keeps _ _ h) h)

theorem State.countFec_keeps (p : Nat) (r : RxFrame) (h : Keeps c a s) : Keeps c a (s.countFec p r) :=
  State.rinc_keeps _ _ _ _ (State.rinc_keeps _ _ _ _ h)

theorem State.putEcp_keeps (o : EcpOut) (h : Keeps c a s) : Keeps c a (s.putEcp o) := by
  unfold State.putEcp
  exact keeps_ite (State.setHpt_keeps _ _ h) (h.upd rfl rfl rfl rfl (fun _ => ⟨rfl, rfl⟩))

theorem State.putRdma_keeps (o : FrameOut) (h : Keeps c a s) : Keeps c a (s.putRdma o) := by
  unfold State.putRdma
  exact keeps_ite (State.setHpt_keeps _ _ h) (h.upd rfl rfl rfl rfl (fun _ => ⟨rfl, rfl⟩))

theorem State.sendEcp_keeps (port ip udp type flags reqId code : Nat) (body : List Byte) (h : Keeps c a s) :
    Keeps c a (s.sendEcp port ip udp type flags reqId code body) :=
  State.putEcp_keeps _ (h.upd rfl rfl rfl rfl (fun _ => ⟨rfl, rfl⟩))

theorem State.notify_keeps (type : Nat) (body : List Byte) (h : Keeps c a s) : Keeps c a (s.notify type body) := by
  unfold State.notify
  exact keeps_ite (State.sendEcp_keeps _ _ _ _ _ _ _ _ h) h

theorem State.reply_keeps (x : EcpHdr) (rtype type code : Nat) (body : List Byte) (h : Keeps c a s) :
    Keeps c a (s.reply x rtype type code body) := by
  unfold State.reply
  exact (State.sendEcp_keeps x.port x.ip x.udp type 1 x.reqId code body h).upd rfl rfl rfl rfl (fun _ => ⟨rfl, rfl⟩)

end Sys2Proof.Machine
end

