-- ==== Sys2Proof/Tests/Slice0.lean ====
section
/-!
SUPPORT. Tests of the model: terms that are not well formed, values worked by hand from the spec's tables, and a witness for the
hypotheses of every statement.
-/

open Sys2Proof Sys2Proof.Machine

namespace Sys2Proof.Tests

set_option Elab.async false

/-! ### The states of the tests -/

/-- The part in a boot stage, with no position powered. -/
def booting (stage : Nat) : State :=
  State.rs { State.reset with boot := { State.reset.boot with high := true } } 0 CFG_BOOT.stage stage

/-- The part at READY with every position present. -/
def up : State :=
  (List.range 8).foldl (fun s t => ((s.setFence t EVT_FENCE.tile 1).setFence t EVT_FENCE.die 1).setFence t EVT_FENCE.engine 1) (booting 8)

/-- A command word: its class, its op, and further bits. -/
def cmd (cls op more : Nat) : CmdWord := BitVec.ofNat 512 (cls + op * 2 ^ 8 + more)

/-- Engine `k` of die 0, core 0 with a control op at its head. -/
def headOp (k op : Nat) : State := up.setEng k { up.eng k with queue := [cmd 0 op 0] }

/-- A vector command of one FP32 element at `src1`, to FP32 at 0x200. -/
def vecCmd (op src1 : Nat) : CmdWord := cmd 2 op (8 * 2 ^ 128 + 8 * 2 ^ 136 + 2 ^ 152 + src1 * 2 ^ 176 + 0x100 * 2 ^ 200 + 0x200 * 2 ^ 248)

/-- A MATMUL of one by one, FP8 E4M3 operands, K = 32, out to 0x200. -/
def matCmd : CmdWord := cmd 1 1 (4 * 2 ^ 128 + 4 * 2 ^ 136 + 2 ^ 176 + 0x100 * 2 ^ 240 + 0x200 * 2 ^ 312)

def matUp : State := (up.setEng 0 { up.eng 0 with queue := [matCmd] }).setCore 0 { up.core 0 with leave := .full }

/-- The part at READY, claimed. -/
def owned : State := { up with claim := { up.claim with claimed := true, key := [1] } }

/-- The header of a request with a tag. -/
def hdr (tag : List Byte) : EcpHdr :=
  { port := 1, ip := 0, udp := 0, size := 64, magic := 0x5045, version := 1, length := 64, flags := 0, seq := 1, reqId := 7, code := 0,
    rsv := 0, short := false, tail := [], tag := tag }

/-- The part with the lease granted to tile 0. -/
def leads : State :=
  let s := ((((owned.rs (uTile 0) SEQ_ROLE.lease_held 1).rs (uTile 0) SEQ_ROLE.role 1).rs 0 KPR_LEASE.held 1).rs 0 KPR_LEASE.epoch 1).rs 0
    KPR_LEASE_EXP.expiry 3200
  s.setSeq 0 { s.seq 0 with ownExp := 3200 }


theorem wit_ecpRuns (i : List Byte → Instr) (type : Nat) (body : EcpHdr → List Byte)
    (hi : ∀ tag, ecpOf (i tag) = some (hdr tag, type, body (hdr tag))) (hb : ∀ tag, body (hdr tag) = body (hdr [])) :
    ∃ tag, owned.ecpRuns (i tag) = true := by
  let u : State := owned.countFec 1 {}
  let v : State := owned.ecpTaken (hdr [])
  have h1 : v.claim.cache = [] := by decide +kernel
  have h2 : owned.unitUp (uPort 1) = true := by decide +kernel
  have h3 : v.executing 7 = false := by decide +kernel
  have h4 : owned.claim.seqFresh 1 = true := by decide +kernel
  have h5 : u.claim.claimed = true := by decide +kernel
  have h6 : u.claimSoon = false := by decide +kernel
  refine ⟨hmac u.claim.key (ecpBytes (hdr []) type (body (hdr []))), ?_⟩
  generalize ht : hmac u.claim.key (ecpBytes (hdr []) type (body (hdr []))) = tg
  have hv : owned.ecpTaken (hdr tg) = v := rfl
  have ha : u.authentic (hdr tg) type (body (hdr tg)) = true := by
    show (u.claim.claimed && !u.claimSoon && (hdr tg).tag == hmac u.claim.key (ecpBytes (hdr []) type (body (hdr tg)))) = true
    rw [hb tg, ht, h5, h6]
    show (true && !false && tg == tg) = true
    simp
  simp only [State.ecpRuns, hi, hv]
  show (owned.unitUp (uPort 1) && lengthOk (hdr tg) && (0x5045 == 0x5045) && (1 == 1) && u.authentic (hdr tg) type (body (hdr tg)) &&
    owned.claim.seqFresh 1 && !false && (0 == 0) && (0 == 0) && !v.executing 7 && !v.claim.cache.any _) = true
  rw [h1, h2, h3, h4, ha]
  rfl

/-- A flit of link 0 on vc `vc`, numbered 0, with a body of 8 bytes. -/
def flit (vc : Nat) : FlitHdr :=
  { link := 0, seq := 0, vc := vc, kind := true, ack := 0, creditVc := 0, freed := 0, rsv := 0, len := 8, rsvBody := 0 }

/-- The part at READY with link 0 in a state and its engine's link 0 in a stage and safety state. -/
def linked (st stage safety : Nat) : State :=
  ((owned.ls 0 LNK_STATUS.state st).os 0 TOE_STATUS.stage stage).os 0 TOE_STATUS.safety safety


/-- A last fragment of one token. -/
def frag (flags len tok : Nat) : SrvFrag :=
  ⟨0, flags, 0, 0, 5, 0, 0, 0x3F800000, 1, 1, 1, len, 0, [], [tok]⟩

/-- A request that generates, with greedy sampling. -/
def asks (stops : List Nat) (maxNew chunk : Nat) : SrvRequest :=
  ⟨5, 0, stops, 0, 0, 0x3F800000, 1, chunk, maxNew, 1, [0], 0, 0, true, [], 0, some 0, 0, false, 0, 0, none⟩

/-- The part at READY with an instance open on tile 0 for context 3, which runs. -/
def serves : State := (owned.cs SEQ_CTX_STATE.state 3 2).setServ 0 { isOpen := true, ctx := 3, slots := [(8, 0)] }


/-- Link 0 in a state with its record changed, and a peer in the light list. -/
def link0 (st : Nat) (k : Lnk) : State :=
  { (linked st 5 2).setLink 0 k with
    tick := 100000
    light := { (linked st 5 2).light with peers := [⟨0, 1, 2⟩] } }

/-! ### Terms that are not well formed: one for each check, which the check refuses -/

theorem test_wf_core : CoreId.wf ⟨7, 63⟩ = true ∧ CoreId.wf ⟨8, 0⟩ = false ∧ CoreId.wf ⟨7, 64⟩ = false := by decide

theorem test_wf_engine :
    EngId.wf ⟨7, 63, 7⟩ = true ∧ EngId.wf ⟨8, 0, 0⟩ = false ∧ EngId.wf ⟨7, 64, 0⟩ = false ∧ EngId.wf ⟨7, 63, 8⟩ = false := by decide

theorem test_wf_flash : Flash.wf ⟨true, 2, [0, 0]⟩ = true ∧ Flash.wf ⟨true, 1, [0, 0]⟩ = false := by decide

theorem test_wf_report : TileReport.wf ⟨7, 8, [1, 2, 3]⟩ = true ∧ TileReport.wf ⟨8, 8, [1, 2, 3]⟩ = false ∧
    TileReport.wf ⟨7, 5, [1, 2, 3]⟩ = false ∧ TileReport.wf ⟨7, 8, [1, 2]⟩ = false := by decide

/-- A header in range. -/
def goodHdr : EcpHdr := hdr (List.replicate 32 0)

theorem test_wf_ecp : goodHdr.wf = true ∧ { goodHdr with port := 2 }.wf = false ∧ { goodHdr with ip := 2 ^ 128 }.wf = false ∧
    { goodHdr with udp := 2 ^ 16 }.wf = false ∧ { goodHdr with magic := 2 ^ 16 }.wf = false ∧ { goodHdr with version := 2 ^ 8 }.wf = false ∧
    { goodHdr with length := 2 ^ 16 }.wf = false ∧ { goodHdr with flags := 2 ^ 16 }.wf = false ∧ { goodHdr with seq := 2 ^ 64 }.wf = false ∧
    { goodHdr with reqId := 2 ^ 32 }.wf = false ∧ { goodHdr with code := 2 ^ 32 }.wf = false ∧ { goodHdr with rsv := 2 ^ 64 }.wf = false ∧
    { goodHdr with tag := [] }.wf = false := by decide

theorem test_wf_flit : (flit 3).wf = true ∧ { flit 3 with link := 64 }.wf = false ∧ { flit 3 with seq := 2 ^ 16 }.wf = false ∧
    (flit 4).wf = false ∧ { flit 3 with ack := 2 ^ 12 }.wf = false ∧ { flit 3 with creditVc := 4 }.wf = false ∧
    { flit 3 with freed := 2 ^ 11 }.wf = false ∧ { flit 3 with len := 2 ^ 16 }.wf = false := by decide

theorem test_wf_messages : DataMsg.wf ⟨0, 0, 64, 0, 0, 0, []⟩ = false ∧ DataMsg.wf ⟨0, 0, 63, 128, 0, 0, []⟩ = false ∧
    DataMsg.wf ⟨0, 0, 63, 127, 0, 2 ^ 64, []⟩ = false ∧ DataMsg.wf ⟨0, 0, 63, 127, 0, 0, []⟩ = true ∧
    XferHdr.wf ⟨2 ^ 64, 0, 0, 0⟩ = false ∧ XferHdr.wf ⟨0, 0, 64, 0⟩ = false ∧ XferHdr.wf ⟨0, 0, 0, 128⟩ = false ∧
    TrainMsg.wf ⟨[], 0, 64, 0, 0, true, true, 0, 0⟩ = false ∧ TrainMsg.wf ⟨[], 0, 0, 128, 0, true, true, 0, 0⟩ = false ∧
    TrainMsg.wf ⟨[], 0, 0, 0, 64, true, true, 0, 0⟩ = false ∧ TrainMsg.wf ⟨[], 0, 0, 0, 0, true, true, 2 ^ 32, 0⟩ = false ∧
    TrainMsg.wf ⟨[], 0, 0, 0, 0, true, true, 0, 2 ^ 64⟩ = false ∧ PeerOp.wf ⟨1, 2 ^ 32, 0, 0, 0, 0, 0⟩ = false ∧
    PeerOp.wf ⟨1, 0, 2 ^ 16, 0, 0, 0, 0⟩ = false ∧ PeerOp.wf ⟨1, 0, 0, 2 ^ 8, 0, 0, 0⟩ = false ∧
    PeerOp.wf ⟨1, 0, 0, 0, 2 ^ 24, 0, 0⟩ = false ∧ BeaconMsg.wf ⟨0, 2 ^ 32, 0, .net, 0, 0⟩ = false ∧
    BeaconMsg.wf ⟨0, 0, 8, .net, 0, 0⟩ = false ∧ BeaconMsg.wf ⟨0, 0, 0, .net, 0, 2 ^ 16⟩ = false ∧
    CopyMsg.wf ⟨0, .cycle, 2 ^ 32, 0, []⟩ = false ∧
    CopyMsg.wf ⟨2 ^ 16, .cycle, 0, 0, []⟩ = false ∧ CopyMsg.wf ⟨0, .cycle, 0, 0, [{ ctx := 64 }]⟩ = false := by decide

theorem test_wf_data_length : DataMsg.wf ⟨0, 0, 63, 127, 0, 0, List.replicate (2 ^ 16) 0⟩ = false := by
  simp only [DataMsg.wf, List.length_replicate]
  rfl

theorem test_wf_record : EvRec.wf { tick := 0, code := 0, unit := 0, prec := 0 } = true ∧
    EvRec.wf { tick := 2 ^ 64, code := 0, unit := 0, prec := 0 } = false ∧ EvRec.wf { tick := 0, code := 2 ^ 16, unit := 0, prec := 0 } = false ∧
    EvRec.wf { tick := 0, code := 0, unit := 2 ^ 8, prec := 0 } = false ∧ EvRec.wf { tick := 0, code := 0, unit := 0, prec := 16 } = false ∧
    EvRec.wf { tick := 0, code := 0, unit := 0, prec := 0, object := 2 ^ 32 } = false ∧
    EvRec.wf { tick := 0, code := 0, unit := 0, prec := 0, waiter := 2 ^ 24 } = false ∧
    EvRec.wf { tick := 0, code := 0, unit := 0, prec := 0, pkg := 128 } = false ∧
    EvRec.wf { tick := 0, code := 0, unit := 0, prec := 0, pod := 64 } = false ∧
    EvRec.wf { tick := 0, code := 0, unit := 0, prec := 0, repeats := 2 ^ 16 } = false ∧
    EvRec.wf { tick := 0, code := 0, unit := 0, prec := 0, detail := 2 ^ 64 } = false := by decide

theorem test_wf_packets : RocePkt.wf ⟨2 ^ 24, 0, true, true, 0, 0, 0, true, true, true, [], {}⟩ = false ∧
    RocePkt.wf ⟨0, 2 ^ 24, true, true, 0, 0, 0, true, true, true, [], {}⟩ = false ∧
    RocePkt.wf ⟨0, 0, true, true, 2 ^ 32, 0, 0, true, true, true, [], {}⟩ = false ∧
    RocePkt.wf ⟨0, 0, true, true, 0, 2 ^ 64, 0, true, true, true, [], {}⟩ = false ∧
    RocePkt.wf ⟨0, 0, true, true, 0, 0, 2 ^ 32, true, true, true, [], {}⟩ = false ∧
    RocePkt.wf ⟨0, 0, true, true, 0, 0, 0, true, true, true, [], { pcp := some 8 }⟩ = false ∧ RxFrame.wf { dscp := 64 } = false ∧
    OptMarker.wf ⟨64, 0, 0, [], 0, 0, []⟩ = false ∧ OptMarker.wf ⟨63, 10, 0, [], 0, 0, []⟩ = false ∧
    OptMarker.wf ⟨63, 9, 2 ^ 80, [], 0, 0, []⟩ = false ∧ OptMarker.wf ⟨63, 9, 0, [1024], 0, 0, []⟩ = false ∧
    OptMarker.wf ⟨63, 9, 0, [1023], 63, 255, [0]⟩ = true ∧ OptMarker.wf ⟨63, 9, 0, [], 64, 0, []⟩ = false ∧
    OptMarker.wf ⟨63, 9, 0, [], 0, 256, []⟩ = false ∧ OptMarker.wf ⟨63, 9, 0, [], 0, 0, [0, 0, 0, 0, 0]⟩ = false ∧ (frag 0 1 0).wf = true ∧
    { frag 0 1 0 with tile := 2 ^ 8 }.wf = false ∧ { frag 0 1 0 with reqId := 2 ^ 32 }.wf = false ∧
    { frag 0 1 0 with len := 2 ^ 32 }.wf = false ∧ { frag 0 1 0 with off := 2 ^ 32 }.wf = false := by decide

theorem test_wf_commands : (Instr.take 8).wf = false ∧ (Instr.take 7).wf = true ∧ (Instr.coreReset 0x20 64).wf = false ∧
    (Instr.lockTimeout 63 10 true).wf = false ∧ (Instr.lockTimeout 64 0 true).wf = false ∧ (Instr.pauseFrame 2).wf = false ∧
    (Instr.sensorFaulty 0 74).wf = false ∧ (Instr.setdasa 128 0).wf = false ∧ (Instr.forwardedClockLoss 0x10 0 [32]).wf = false ∧
    (Instr.identityCheck 0 0 true [] 0).wf = false ∧
    (Instr.voteDissent 3 0).wf = false ∧ (Instr.refresh 16).wf = false := by decide

/-! ### Values worked by hand -/

/-- The next map epoch after 255 is 1 (R268, R325). -/
theorem test_map_epoch_wraps : nextMapEpoch 255 = 1 ∧ nextMapEpoch 1 = 2 ∧ nextEpoch 255 = 1 := by decide

/-- The table of R302: of ten good wavelengths, lanes 0 to 7 stand on the first eight and the others are spares. -/
theorem test_map_of_ten : buildMap (List.range 10) = 0xEE76543210 := by decide +kernel

/-- Seven good wavelengths leave no spare and a width of 7 (R302). -/
theorem test_map_of_seven : mapWidth (buildMap [0, 1, 3, 4, 5, 6, 8]) = 7 := by decide +kernel

/-- Lanes above a removed one move down (R330). -/
theorem test_drop_lane : dropLane 0xFF76543210 7 = 0xFFF6543210 ∧ dropLane 0xFF76543210 0 = 0xFF6543210F := by decide +kernel

/-- The sweep alternates sides and widens by 4 codes (R314). -/
theorem test_sweep : (List.range 5).map sweepOff = [0, 4, -4, 8, -8] := by decide

/-- Rounding half to even. -/
theorem test_round : roundHalfEven 5 2 = 2 ∧ roundHalfEven 7 2 = 4 ∧ roundHalfEven (-5) 2 = -2 := by decide

/-- The examples of R187: 1 µs, 1.024 ms, 19,200 tk and 2^22 µs; 0xFF is the hub's default. -/
theorem test_timeout : timeoutTk 7 0 = 100 ∧ timeoutTk 7 0x50 = 102400 ∧ timeoutTk 7 0x3C = 19200 ∧ timeoutTk 7 0xB0 = 419430400 ∧
    timeoutTk 7 0xFF = 7 := by decide

/-- FP32: 1 + 1 is 2, and a NaN is not below 2. -/
theorem test_fp32 : f32Add 0x3F800000 0x3F800000 = 0x40000000 ∧ f32Lt 0x3F800000 0x40000000 = true ∧
    f32Lt 0x7FC00000 0x40000000 = false := by decide +kernel

/-- After reset no command waits and memory lists nothing. -/
theorem test_reset_queue : State.reset.pending = [] ∧ State.reset.mem.cells = [] := by decide +kernel

/-- FIPS 180-4's example: the digest of three letters. -/
theorem test_sha256 : sha256 [0x61, 0x62, 0x63] = be 32 0xBA7816BF8F01CFEA414140DE5DAE2223B00361A396177A9CB410FF61F20015AD := by
  decide +kernel

/-- The first test vector of RFC 7748. -/
theorem test_x25519 :
    x25519 (be 32 0xA546E36BF0527C9D3B16154B82465EDD62144C0AC1FC5A18506A2244BA449AC4)
      (be 32 0xE6DB6867583030DB3594C1A424B15F7C726624EC26B3353B10A903A6D0AB1C4C) =
      be 32 0xC3DA55379DE9C6908E94EA4DF28D084F32ECCF03491C71F754B4075577A28552 := by decide +kernel

/-- R427: three levels, and a type of another height, verify nothing. -/
theorem test_hss_parameters : hssVerify (be 4 3) [] (be 4 2) = false ∧ lmsHeight 5 = none ∧ otsShape 2 = none := by decide +kernel

/-! ### Witnesses: states and operands that meet the hypotheses of a statement -/

/-- The part at READY, with the clock loss of tile 2 waiting. -/
def awaits : State := { up with pending := [.tickLineLoss 2] }

theorem test_wit_EmptyQueueIsATick :
    (takesTurn (.settle 7) = true ∧ awaits.yields (.settle 7) = true) ∧
    (let s : State := { up with pending := [.i3cWrite 0 0] }; s.accessYields 1 = true) ∧ State.reset.pending = [] ∧
    State.reset.later = [] ∧ ({ up with later := [.bypass] } : State).pending = [] := by decide +kernel

theorem test_wit_CommandsLeaveTheQueue : ∃ t, exec .bypass State.reset = .next t := ⟨_, rfl⟩

theorem test_wit_MemoryKeepsItsForm : State.reset.mem.wf = true ∧ ∃ t, step State.reset = .next t := ⟨by decide +kernel, _, rfl⟩

theorem test_wit_FusesOnlyGain : ∃ t, step State.reset = .next t := ⟨_, rfl⟩

theorem test_wit_MeteringOnlyRises : ∃ t, step { State.reset with met := { State.reset.met with sealed := true } } = .next t := ⟨_, rfl⟩

theorem test_wit_ClaimChangesOnlyByItsCommands :
    ∃ t, exec .bypass { State.reset with claim := { State.reset.claim with claimed := true } } = .next t := ⟨_, rfl⟩

theorem test_wit_SupplyAndColdReset :
    { State.reset with boot := { State.reset.boot with awake := false } }.boot.awake = false ∧
    (State.reset.boot.awake = true ∧ State.reset.boot.high = false ∧ State.reset.yields (.inputFallsBelow36V 0) = false) ∧
    (let s : State := { State.reset with boot := { State.reset.boot with high := true } }
     s.boot.awake = true ∧ s.boot.high = true ∧ s.pwr.down = .up ∧ s.yields (.inputFallsBelow36V 35999) = false) := by decide +kernel

theorem test_wit_BootStagesPass :
    ((booting 0).booting 0 = true ∧ (booting 0).fuses.intact = true) ∧
    (let s := { booting 0 with fuses := { (booting 0).fuses with intact := false } }; s.booting 0 = true ∧ s.fuses.intact = false) ∧
    (let s := { booting 1 with boot := { (booting 1).boot with flash := ⟨true, 0, []⟩ } }; s.booting 1 = true ∧ s.boot.flash.sfdp = true) ∧
    ((booting 1).booting 1 = true ∧ (booting 1).boot.flash.sfdp = false) ∧ (booting 2).booting 2 = true ∧ (booting 3).booting 3 = true ∧
    (let s := { booting 4 with boot := { (booting 4).boot with heard := [0, 1, 2, 3, 4, 5, 6, 7], flash := ⟨true, 64, List.replicate 64 0⟩ } }
     s.booting 4 = true ∧ s.boot.stuck = false ∧ s.allHeard = true ∧ s.afterDiscovery = some 0xA009) ∧
    (let s := { booting 4 with boot := { (booting 4).boot with warm := true } }
     s.booting 4 = true ∧ s.boot.stuck = false ∧ s.rediscovers = false) ∧
    (let s := { booting 4 with boot := { (booting 4).boot with stuck := true } }; s.booting 4 = true ∧ s.boot.stuck = true) ∧
    ((booting 4).booting 4 = true ∧ (booting 4).allHeard = false ∧ (booting 4).rediscovers = true) ∧
    (booting 5).booting 5 = true ∧ (booting 6).booting 6 = true ∧ ((booting 7).booting 7 = true ∧ (booting 7).linksSettled = true) ∧
    (let s := { booting 3 with tick := 110000000 }
     s.running = true ∧ s.stage ≤ 7 ∧ s.tick ≥ s.boot.start + stageMs s.stage * 100000 ∧ s.yields .stageBound = false) := by decide +kernel

/-- The part in D2D with K0 trained, tile positions under ID, and the edges of a tile DOWN. -/
def finding (ids : SMap Nat) : State :=
  let s := (List.range 2).foldl (fun s m => s.setModState 0 m 7) (booting 4)
  let s := (s.setModState (uTile 0) 9 7)
  { s with boot := { s.boot with ids := ids, assignAt := some 0 } }

theorem test_wit_DiscoveryReports :
    ((finding []).discovering 1 = true ∧ (finding []).idOf 1 = none) ∧
    (let s := finding [(0, 0), (7, 7), (4, 0)]
     s.discovering 7 = true ∧ s.idOf 7 = some 7 ∧ s.mayReport 7 = true ∧ ¬ (7 = s.cols ∧ 7 ≠ s.cols) ∧ s.stage ≠ 8 ∧
     ((s.passId 7 7).edgesOk 7 (s.edgeSet 7) = true ∧ [0, 0, 0] = s.serialsOf 7 ∧ 8 = s.fuses.tiles) ∧
     (2 ≠ s.fuses.tiles ∧ [0] ≠ s.serialsOf 7) ∧ (s.mayReport 4 = true ∧ 4 = s.cols ∧ 0 ≠ s.cols) ∧
     (s.passId 7 8).edgesOk 8 (s.edgeSet 7) = false) ∧
    (let s : State := { up.setFence 7 EVT_FENCE.tile 3 with boot := { up.boot with ids := [(7, 7)] } }
     let s := (s.setModState 0 0 7).setModState (uTile 0) 9 7
     s.idOf 7 = some 7 ∧ s.mayReport 7 = true ∧ (s.passId 7 7).edgesOk 7 (s.edgeSet 7) = true ∧ s.stage = 8) ∧
    (let s : State := { finding [] with tick := 10001 }; s.overdue 7 = true ∧ s.light.degraded = false) ∧
    (let s : State := { finding [] with tick := 10001, light := { (finding []).light with degraded := true } }
     s.overdue 7 = true ∧ s.light.degraded = true) := by decide +kernel

theorem test_wit_ResetLevelsStart :
    (let s := { up with downAt := [(oPackage, 1)] }; s.yields (.packageWarmReset ⟨false, 0, []⟩) = false ∧ s.endedNow oPackage = true) ∧
    (up.yields (.tileReset 0x17) = false ∧ up.resetOk 2 0x17 0 = true ∧ up.unitEnded 0x17 = false) ∧
    (up.yields (.computeDieReset 0x27) = false ∧ up.resetOk 3 0x27 0 = true) ∧
    (up.yields (.opticalEngineReset 0x37) = false ∧ up.resetOk 4 0x37 0 = true) ∧
    (up.yields (.coreReset 0x27 63) = false ∧ up.resetOk 5 0x27 63 = true) ∧
    (State.reset.boot.awake = true ∧ State.reset.yields (.packageWarmReset ⟨false, 0, []⟩) = false ∧
      State.reset.endedNow oPackage = false ∧ State.reset.resetOk 1 0 0 = false ∧ State.reset.yields (.tileReset 0x11) = false ∧
      State.reset.resetOk 2 0x11 0 = false ∧ State.reset.yields (.computeDieReset 0x21) = false ∧ State.reset.resetOk 3 0x21 0 = false ∧
      State.reset.yields (.opticalEngineReset 0x31) = false ∧ State.reset.resetOk 4 0x31 0 = false ∧
      State.reset.yields (.coreReset 0x21 0) = false ∧ State.reset.resetOk 5 0x21 0 = false) ∧
    (let s := { up with tick := 10000 }
     s.yields (.noLeaseTimeout ⟨false, 0, []⟩) = false ∧ s.running = true ∧ s.stage = 8 ∧ s.rg 0 KPR_LEASE.held = 0 ∧
     s.tick ≥ s.rg 0 KPR_LEASE_EXP.expiry + 10000) ∧
    (up.yields (.packageWarmReset ⟨true, 0, []⟩) = false ∧ up.endedNow oPackage = false ∧ up.resetOk 1 0 0 = true) := by decide +kernel

theorem test_wit_UnitsAreLostAndReturn :
    (up.yields (.dieClockLoss 0x27) = false ∧ up.unitRuns 0x27 = true ∧ up.yields (.dieClockLoss 0x30) = false ∧ up.unitRuns 0x30 = true) ∧
    (let s := { up.setFence 1 EVT_FENCE.die 2 with downAt := [(0x21, 1)] }
     s.yields (.dieClockLoss 0x21) = false ∧ s.unitRuns 0x21 = false ∧ s.unitEnded 0x21 = true) ∧
    (let s := up.setFence 1 EVT_FENCE.die 2; s.fenced 0x21 = true ∧ s.testing.contains 0x21 = false) ∧
    (let s := { up.setFence 1 EVT_FENCE.engine 2 with testing := [0x31] }; s.testing.contains 0x31 = true ∧ s.fenced 0x31 = true) ∧
    (up.yields (.healthPoll []) = false ∧ up.running = true ∧ up.tick % 1000 = 0) ∧
    (let s := { (List.range 10).foldl (fun s m => s.setModState 0x11 m 9) up with tick := 10000 }
     s.yields (.allModulesDown 1) = false ∧ s.running = true ∧ s.tileUp 1 = true ∧
     ∀ m, m < 10 → (s.otherSide (uTile 1) m).isSome = true →
       s.modState (uTile 1) m = 9 ∧ s.tick ≥ (s.mod (uTile 1) m).downAt + 10000) ∧
    (up.yields (.tickLineLoss 7) = false ∧ up.tileUp 7 = true) ∧ up.yields .referenceClockLoss = false := by decide +kernel

theorem test_wit_UnitsAreLostAndReturn_none (t : Nat) : up.endedNow (uTile t) = false := by
  have h : up.downAt = [] := by decide +kernel
  simp [State.endedNow, h, mget, mfind]

theorem test_wit_KeeperVote :
    (up.yields (.voteDissent 2 7) = false ∧ up.running = true ∧ 2 ≤ 2 ∧ up.rg 0 EVT_VOTE.resyncing = 0) ∧
    (let s := up.rs 0 EVT_VOTE.resyncing 1
     s.yields (.voteDissent 0 7) = false ∧ s.yields (.resynchronisationEnd true) = false ∧ s.running = true ∧
     s.rg 0 EVT_VOTE.resyncing ≠ 0) := by decide +kernel

/-- An event record of compute die 1. -/
def record (code prec : Nat) : EvRec := ⟨0, code, 0x21, prec, false, false, 0, 0, 0x7F, 0x3F, 0, 0⟩

theorem test_wit_EventRecordsReachTheLog :
    (let s := { up with ev := { up.ev with travel := [record 0x5020 5] } }; s.ev.travel[0]? = some (record 0x5020 5)) ∧
    (let s := { up with tick := 64, ev := { up.ev with held := [record 0x5020 5] } }
     firstHeld s.ev.held = some (record 0x5020 5) ∧ s.tick ≥ 0 + 64) ∧
    (let s := { up with tick := 10000, ev := { up.ev with notes := [⟨record 0x5020 5, 0⟩] } }
     s.ev.notes = [⟨record 0x5020 5, 0⟩] ∧ s.tick ≥ 0 + 10000) ∧
    (let s := { up with tick := 100000, ev := { up.ev with wins := [⟨0x1050, 0x21, 0, 1, none⟩] } }
     s.ev.wins.find? (sameWin 0x1050 0x21) = some ⟨0x1050, 0x21, 0, 1, none⟩ ∧ s.tick ≥ 0 + 100000) ∧
    (let s := { up with tick := 64, ev := { up.ev with held := [record 0x4100 7] } }
     firstHeld s.ev.held = some (record 0x4100 7) ∧ s.tick ≥ 0 + 64 ∧ s.claim.claimed = false ∧ s.ev.lost = 0) := by decide +kernel

theorem test_wit_IssueUnitFetches :
    (let s := up.setEng 7 { (up.eng 7) with fetching := true, count := 1, base := 0x3FFFC0 }
     s.dieUp 0 = true ∧ ((List.range 8).map (fun i => ((s.core (coreKey 0 0)).rr + i) % 8)).find?
       (fun e => (s.eng (coreKey 0 0 * 8 + e)).wantsFetch) = some 7 ∧ (s.eng 7).base + 64 * (s.eng 7).fetched + 64 ≤ 0x400000 ∧
     hitsRange [] 0x3FFFC0 64 = none ∧ hitsRange [0x3FFFFF] 0x3FFFC0 64 = some 0x3FFFFF) ∧
    (let s := up.setEng 0 { (up.eng 0) with fetching := true, count := 2, base := 0x3FFFC0, fetched := 1 }
     s.dieUp 0 = true ∧ ((List.range 8).map (fun i => ((s.core (coreKey 0 0)).rr + i) % 8)).find?
       (fun e => (s.eng (coreKey 0 0 * 8 + e)).wantsFetch) = some 0 ∧ (s.eng 0).base + 64 * (s.eng 0).fetched + 64 > 0x400000) ∧
    (up.dieUp 7 = true ∧ ((List.range 8).map (fun i => ((up.core (coreKey 7 63)).rr + i) % 8)).find?
       (fun e => (up.eng (coreKey 7 63 * 8 + e)).wantsFetch) = none) := by decide +kernel

theorem test_wit_ControlOpsExecute :
    (headOp 4 0).mayRun 4 (cmd 0 0 0) 0 0 = true ∧ (headOp 7 1).mayRun 7 (cmd 0 1 0) 0 1 = true ∧ (headOp 0 2).mayRun 0 (cmd 0 2 0) 0 2 = true ∧
    (headOp 5 4).mayRun 5 (cmd 0 4 0) 0 4 = true ∧ csRange (fieldOf (cmd 0 4 0) 128 24) 8 = true ∧ csRange 0x3FFFF8 8 = true ∧
    ((headOp 0 3).mayRun 0 (cmd 0 3 0) 0 3 = true ∧ ((headOp 0 3).core 0).leave = .idle) ∧
    (let s := (headOp 3 3).setCore 0 { ((headOp 3 3).core 0) with leave := .full }
     s.mayRun 3 (cmd 0 3 0) 0 3 = true ∧ (s.core 0).leave = .full ∧ s.matrixBusy 0 = false) ∧
    (let s := (headOp 3 3).setCore 0 { ((headOp 3 3).core 0) with leave := .ramp }
     s.mayRun 3 (cmd 0 3 0) 0 3 = true ∧ (s.core 0).leave = .ramp) ∧
    (let s := ((headOp 3 3).setCore 0 { ((headOp 3 3).core 0) with leave := .full }).setEng 2
       { ((headOp 3 3).eng 2) with queue := [cmd 1 1 0], phase := .executing }
     s.mayRun 3 (cmd 0 3 0) 0 3 = true ∧ (s.core 0).leave = .full ∧ s.matrixBusy 0 = true) := by decide +kernel

theorem test_wit_CommandsAreCheckedBeforeTheyRun :
    (let s := up.setEng 0 { (up.eng 0) with queue := [cmd 2 1 0] }
     s.dieUp (keyDie 0) = true ∧ (s.eng 0).queue = [cmd 2 1 0] ∧ (s.eng 0).phase = .idle ∧ (s.eng 0).cut = false ∧
     headerOk (keyEng 0) (cmd 2 1 0) = false) ∧
    (let s := up.setEng 0 { (up.eng 0) with queue := [cmd 0 0 (2 ^ 23)] }
     s.dieUp (keyDie 0) = true ∧ (s.eng 0).phase = .idle ∧ (s.eng 0).cut = false ∧ headerOk (keyEng 0) (cmd 0 0 (2 ^ 23)) = true ∧
     cmdClass (cmd 0 0 (2 ^ 23)) = 0 ∧ cmdOp (cmd 0 0 (2 ^ 23)) = 0 ∧ cmdPreEn (cmd 0 0 (2 ^ 23)) = true) := by decide +kernel

theorem test_wit_CommandsComplete :
    (let s := up.setEng 4 { (up.eng 4) with queue := [cmd 0 0 0], phase := .done }
     s.dieUp 0 = true ∧ (s.eng 4).queue = [cmd 0 0 0] ∧ (s.eng 4).phase = .done) ∧
    (let s := up.setEng 5 { (up.eng 5) with queue := [cmd 0 0 0], phase := .fence }
     s.dieUp 0 = true ∧ (s.eng 5).phase = .fence ∧ s.net = [] ∧ s.links = []) ∧
    (let s := { up.setEng 3 { (up.eng 3) with queue := [cmd 1 1 0], phase := .port } with tick := 0xFFFFFFFF }
     s.yields (.portTimeout ⟨0, 0, 3⟩) = false ∧ s.dieUp 0 = true ∧ (s.eng 3).queue = [cmd 1 1 0] ∧ (s.eng 3).phase = .port ∧
     s.tick ≥ (s.eng 3).since + s.rg (uTile 0) SYN_CORE_TIMEOUT.core_tk) ∧
    (let s := up.setEng 4 { (up.eng 4) with queue := [cmd 0 0 (2 ^ 31)], phase := .done }
     s.dieUp 0 = true ∧ (s.eng 4).queue = [cmd 0 0 (2 ^ 31)] ∧ (s.eng 4).phase = .done ∧ (s.eng 4).status = 0 ∧
     (s.eng 4).halting = false ∧ cmdPostFence (cmd 0 0 (2 ^ 31)) = false ∧ cmdPostFence (cmd 0 1 0) = false) := by decide +kernel

theorem test_wit_LeaveLogicSteps :
    (let s := { up.setCore 0 { (up.core 0) with leave := .ramp, level := 7 } with tick := 175 }
     (s.core 0).leave = .ramp ∧ s.tick ≥ (s.core 0).stepAt + 25 * (s.core 0).level ∧ s.dieUp 0 = true ∧ (s.core 0).level < 8) ∧
    (let s := { up.setCore 0 { (up.core 0) with leave := .ramp, level := 8 } with tick := 200 }
     (s.core 0).leave = .ramp ∧ s.tick ≥ (s.core 0).stepAt + 25 * (s.core 0).level ∧ (s.core 0).inReset = false) ∧
    (let s := { up.setCore 0 { (up.core 0) with leave := .ramp, level := 8, inReset := true } with tick := 200 }
     (s.core 0).leave = .ramp ∧ s.tick ≥ (s.core 0).stepAt + 25 * (s.core 0).level ∧ (s.core 0).inReset = true) ∧
    (let s := up.setCore 0 { (up.core 0) with leave := .full }
     (s.core 0).leave = .full ∧ s.dieUp 0 = true ∧ (∀ m, m < 4 → (s.eng (coreKey 0 0 * 8 + m)).queue.head? = none) ∧
     0xFFFFFFFF ≥ max 1 (s.rg (uDie 0) CORE_LEAVE.idle_release (dCore 0))) ∧
    (let s := up.setCore 0 { (up.core 0) with leave := .down }
     (s.core 0).leave = .down ∧ (s.core 0).falling = false) ∧
    (let s := { up.setCore 0 { (up.core 0) with leave := .down, falling := true, level := 8 } with tick := 25 }
     (s.core 0).leave = .down ∧ (s.core 0).falling = true ∧ s.tick ≥ (s.core 0).stepAt + 25 * (9 - (s.core 0).level) ∧ 1 < (s.core 0).level) ∧
    (let s := { up.setCore 0 { (up.core 0) with leave := .down, falling := true, level := 1 } with tick := 200 }
     (s.core 0).falling = true ∧ s.tick ≥ (s.core 0).stepAt + 25 * (9 - (s.core 0).level) ∧ (s.core 0).level ≤ 1) ∧
    (up.yields (.leaveGrant 7) = false ∧ up.dieUp 7 = true ∧ up.pwr.down = .up) := by decide +kernel

theorem test_wit_MatmulDrains :
    matUp.mayRun 0 matCmd 1 1 = true ∧ matCheck 0 matUp matCmd = none ∧ (matUp.core 0).leave = .full ∧
    hitsAny [] (matOp matCmd).reads = none ∧ (matOp matCmd).out ≠ portLa 0 ∧ (matOp matCmd).mark = false := by decide +kernel

theorem test_wit_ExactSumIsOrderFree : [Machine.Num.fin false 1 0, .nan].Perm [.nan, .fin false 1 0] := by decide

theorem test_wit_ContributionsInTheFullWindow :
    (¬ ((2 : ℚ) ^ ((0 : Int) + 95) ≤ ((1 : Nat) : ℚ) * (2 : ℚ) ^ (-97 : Int))) ∧
    ((2 : ℚ) ^ ((0 : Int) + 95) ≤ ((1 : Nat) : ℚ) * (2 : ℚ) ^ (95 : Int)) := by
  refine ⟨by norm_num, by norm_num⟩

theorem test_wit_VectorCommandsRun :
    (let s := up.setEng 4 { (up.eng 4) with queue := [vecCmd 0x01 0] }
     s.mayRun 4 (vecCmd 0x01 0) 2 0x01 = true ∧ vecCheck s (vecCmd 0x01 0) = none ∧ hitsAny [] (vecOp (vecCmd 0x01 0)).reads = none ∧
     portOf (vecOp (vecCmd 0x01 0)).src1 = none ∧ s.mem.wf = true ∧ (vecOp (vecCmd 0x01 0)).fmt = 8 ∧
     (vecOp (vecCmd 0x01 0)).cvt.dst = 8 ∧ (vecOp (vecCmd 0x01 0)).cvt.sr = false) ∧
    (let s := up.setEng 4 { (up.eng 4) with queue := [vecCmd 0x40 0xC00000] }
     s.mayRun 4 (vecCmd 0x40 0xC00000) 2 0x40 = true ∧ vecCheck s (vecCmd 0x40 0xC00000) = none ∧
     portOf (vecOp (vecCmd 0x40 0xC00000)).src1 = some 0) ∧
    (let s := (up.setEng 4 { (up.eng 4) with queue := [vecCmd 0x40 0xC00000], phase := .port }).setEng 0 { (up.eng 0) with fifo := [[5]] }
     s.dieUp 0 = true ∧ (s.eng 4).phase = .port ∧ (s.eng 4).queue = [vecCmd 0x40 0xC00000] ∧ cmdClass (vecCmd 0x40 0xC00000) = 2 ∧
     cmdOp (vecCmd 0x40 0xC00000) = 0x40 ∧ (vecOp (vecCmd 0x40 0xC00000)).n ≤ ((s.exchange 4 0 1 2).eng 4).portBuf.length) := by
  decide +kernel

theorem test_wit_FunctionsKeepTheirBound : 0 < (1 : Nat) ∧ 1 ≤ (4 : Nat) ∧ (4 : Nat) ≤ 4 := by decide

theorem test_wit_SyncUnitIssues :
    (let w := cmd 4 1 (0x1FBF8000 * 2 ^ 128)
     let s := (up.setEng 7 { up.eng 7 with queue := [w] }).setCore 0 { up.core 0 with ctx := some 3 }
     s.mayRun 7 w 4 1 = true ∧ syncCheck false w = none ∧ s.coreCtx 0 = some 3 ∧
     s.resolve 0 3 (syncObj w) = (0x1FBF8000, .bad)) ∧
    (let w (op : Nat) := cmd 4 op (0xFFF8000 * 2 ^ 128)
     let s (op : Nat) := (up.setEng 7 { up.eng 7 with queue := [w op] }).setCore 0 { up.core 0 with ctx := some 3 }
     (s 1).mayRun 7 (w 1) 4 1 = true ∧ syncCheck false (w 1) = none ∧ (s 2).mayRun 7 (w 2) 4 2 = true ∧ syncCheck false (w 2) = none ∧
     (s 3).mayRun 7 (w 3) 4 3 = true ∧ syncCheck false (w 3) = none ∧ (s 1).coreCtx 0 = some 3 ∧
     (s 1).resolve 0 3 (syncObj (w 1)) = (0xFFF8000, .here 0 0) ∧ spanBarrier 0xFFF8000 = false) ∧
    (let w := cmd 4 4 (0xFFFC000 * 2 ^ 128)
     let s := ((up.setEng 7 { up.eng 7 with queue := [w] }).setCore 0 { up.core 0 with ctx := some 3 }).writeMem (csAt 7 0)
       (le 64 (2 ^ 128 + 2 ^ 192 + 2 ^ 200))
     s.mayRun 7 w 4 4 = true ∧ arriveCheck 7 s w = none ∧ hitsRange [] (syncDesc w) 64 = none ∧ s.coreCtx 0 = some 3 ∧
     s.resolve 0 3 (syncObj w) = (0xFFFC000, .here 0 4096) ∧ spanBarrier 0xFFFC000 = true) := by decide +kernel

theorem test_wit_ObjectsSettle :
    (let op : SpanOp := { kind := .signal, obj := 0xFFF8005 + 7 * 2048, value := 1, waiter := 7, unit := 0x20, ctx := 2, reg := 0, expire := 0 }
     let s := up.setHub 7 { up.hub 7 with objs := [(5, { value := 65535, held := some 2 })], inbox := [op] }
     s.yields (.settle 7) = false ∧ s.tileUp 7 = true ∧ (s.hub 7).inbox = [op] ∧ op.kind = .signal ∧ op.plan = none ∧ spanKey op.obj = 5 ∧
     (s.obj 7 5).held = some op.ctx ∧ (s.hub 7).waiters = [] ∧ (∀ e ∈ (s.hub 7).objs, e.1 < 4096) ∧ (s.hub 7).snap = false) ∧
    (let s := up.setCore 63 { up.core 63 with sigs := [(7, 47, 65535)] }
     s.yields (.coreObjectSettle ⟨0, 63⟩) = false ∧ s.dieUp 0 = true ∧ (s.core (coreKey 0 63)).sigs = [(7, 47, 65535)] ∧
     ∀ k, k < 8 → (s.eng (coreKey 0 63 * 8 + k)).phase ≠ .preWait) ∧
    (let s := up.setEng 7 { up.eng 7 with queue := [cmd 4 1 (2 ^ 23)], phase := .preWait }
     s.yields (.coreObjectSettle ⟨0, 0⟩) = false ∧ s.dieUp 0 = true ∧ (s.core 0).sigs = [] ∧ (s.eng 7).queue = [cmd 4 1 (2 ^ 23)] ∧
     (s.eng 7).phase = .preWait ∧ cmdPreTake (cmd 4 1 (2 ^ 23)) = false ∧
     cmdPreThr (cmd 4 1 (2 ^ 23)) ≤ s.rg (uDie 0) SYN_COBJ.value (dObj 0 0) ∧
     ∀ k, k < 8 → k ≠ 7 → (s.eng (0 + k)).phase ≠ .preWait) := by decide +kernel

theorem test_wit_TakersAreServedInOrder :
    let w : SpanOp := { kind := .take, obj := 0, value := 3, waiter := 0, unit := 0, ctx := 0, reg := 0, expire := 0 }
    takeRun 4 [w, w] = ([w], 1) ∧ ([w] : List SpanOp).head? = some w ∧ 4 - (([w] : List SpanOp).map (·.value)).sum < w.value := by
  decide +kernel

theorem test_wit_WaitersTimeOutAndRetry :
    (let op : SpanOp := { kind := .wait, obj := 0xFFF8000, value := 1, waiter := 7, unit := 0x20, ctx := 2, reg := 0, expire := 10 }
     let s := { up.setHub 0 { up.hub 0 with waiters := [op] } with tick := 10 }
     s.yields (.waiterTimeout 0 7 0xFFF8000) = false ∧
     (((s.settled 0 7).hub 0).waiters ++ ((s.settled 0 7).hub 0).retry).find? (fun w => w.waiter == 7 && w.obj == 0xFFF8000) = some op ∧
     (s.settled 0 7).tileUp 0 = true ∧ (s.settled 0 7).tick ≥ op.expire) ∧
    (let s := { up.setEng 7 { up.eng 7 with queue := [cmd 4 1 (2 ^ 23 + 2 ^ 48)], phase := .preWait } with tick := 0xFFFFFFFF }
     let v := s.settled 0 7
     s.yields (.waiterTimeout 0 7 0) = false ∧ ((v.hub 0).waiters ++ (v.hub 0).retry).find? (fun w => w.waiter == 7 && w.obj == 0) = none ∧
     waiterIsEngine 7 = true ∧ keyDie 7 = 0 ∧ v.dieUp 0 = true ∧ (v.eng 7).queue = [cmd 4 1 (2 ^ 23 + 2 ^ 48)] ∧ (v.eng 7).phase = .preWait ∧
     cmdPreObj (cmd 4 1 (2 ^ 23 + 2 ^ 48)) = 0 ∧ v.tick ≥ (v.eng 7).since + v.rg (uTile 0) SYN_CORE_TIMEOUT.core_tk) ∧
    ((up.settled 0 7).eng 7).phase ≠ .preWait ∧ up.tileUp 7 = true := by decide +kernel

/-- A core store with one descriptor of `len` bytes from core store at 0x100 to address `dst` of context 3's one region, whose page is in
the TLB of engine 6. -/
def moves (len dst : Nat) : State :=
  let s := ((up.setCtx 3 { up.ctx 3 with plan := { (up.ctx 3).plan with regions := [⟨0, 65536, true, true, false, false⟩] } }).setCore 0
    { up.core 0 with ctx := some 3 }).writeMem (csAt 6 0) (le 64 (4 + len * 2 ^ 32 + 0x100 * 2 ^ 64 + dst * 2 ^ 128))
  s.setEng 6 { s.eng 6 with queue := [cmd 3 1 (2 ^ 152)], tlb := [⟨3, 0, 65536, 0, true, true⟩] }

theorem test_wit_MoveRuns :
    (let w := cmd 3 1 (2 ^ 152)
     let s := up.setEng 6 { up.eng 6 with queue := [w] }
     s.mayRun 6 w 3 1 = true ∧ moveCheck s w = none) ∧
    (let s := (up.setEng 6 { up.eng 6 with walk := some ⟨0, 1⟩ }).setCore 0 { up.core 0 with ctx := some 3 }
     (s.eng 6).walk = some ⟨0, 1⟩ ∧ s.coreCtx 0 = some 3 ∧ s.invalidating 3 = false ∧ s.dieUp 0 = true ∧
     State.invalidating { s with tlbCur := some ⟨none, 3, false⟩ } 3 = true ∧
     (s.each (s.walkReads (s.ctxRoot 3).2 0) (fun s a => s.cacheRead a 8)).walkCtx [] 3 0 = .fault 3) ∧
    (let s := (((up.rs seqHome MMU_CTX_ROOT.valid 1 24).setEng 6 { up.eng 6 with walk := some ⟨0x40010000, 1⟩ }).setCore 0
       { up.core 0 with ctx := some 3 }).writeMem 8 (le 8 0x40000001)
     let u := s.each (s.walkReads (s.ctxRoot 3).2 0x40010000) (fun s a => s.cacheRead a 8)
     let s2 := s.writeMem 8 (le 8 0x10000000037)
     let u2 := s2.each (s2.walkReads (s2.ctxRoot 3).2 0x40010000) (fun s a => s.cacheRead a 8)
     u.walkCtx [8] 3 0x40010000 = .ecc 8 ∧
     u2.walkCtx [] 3 0x40010000 = .page ⟨0x40000000, 2 ^ 30, 0x10000000000, true, true⟩) ∧
    (let s := (up.setEng 6 { up.eng 6 with parked := true }).setCore 0 { up.core 0 with ctx := some 3 }
     s.dieUp 0 = true ∧ (s.eng 6).parked = true ∧ s.coreCtx 0 = some 3 ∧ s.abandonSoon 6 = false ∧
     State.abandonSoon { s with pending := [.abandon ⟨0, 0, 6⟩] } 6 = true) ∧ (up.eng 6).parked = false ∧ up.endedNow (oEng 6) = false := by
  decide +kernel

theorem test_wit_MoveRuns_pages :
    (pageFor ⟨0x40000000, 2 ^ 30, 0x10000000000, true, true⟩ 0x40010000 true).toOption.isSome = true ∧
    (pageFor ⟨0x40000000, 2 ^ 30, 0x10000000000, true, false⟩ 0x40010000 true).toOption.isSome = false := by decide +kernel

theorem test_wit_MoveRuns_row :
    let w := cmd 3 1 (2 ^ 152)
    let s := moves 8 0xFFF8
    let d := descOf (s.word (csAt 6 (moveDesc w)) 64)
    s.mayRun 6 w 3 1 = true ∧ moveCheck s w = none ∧ moveCount w = 1 ∧ s.coreCtx 0 = some 3 ∧ (s.eng 6).descIdx = 0 ∧
     (s.eng 6).off = 0 ∧ (s.eng 6).descOk = false ∧ d.check s 3 = none ∧ d.sk = 0 ∧ d.dk = 1 ∧ d.flowEn = false ∧ d.rows = 1 ∧
     tlbFind (s.eng 6).tlb 3 d.dst = some ⟨3, 0, 65536, 0, true, true⟩ ∧ d.dst + d.len ≤ 0 + 65536 ∧ s.paOk 0xFFF8 1 = true ∧
     (s.route 3 none (keyDie 6) (paTile 0xFFF8)).isSome = true := by decide +kernel

theorem test_wit_MoveRuns_run :
    let r : Run := { path := [bondOut 0], a := 0x200, tile := 0, data := [1, 2], ctx := 3 }
    let s : State := { up with net := [r] }
    s.net = [r] ∧ r.path = [bondOut 0] ∧ 0x10000 ≤ bondOut 0 ∧ r.msg = none ∧ r.flow = none ∧ r.from_ = none ∧ r.host = none ∧ r.mess = false ∧
    0 < r.data.length ∧ r.data.length ≤ s.bondBytes ((bondOut 0 - 0x10000) / 2) := by decide +kernel

theorem test_wit_CacheInvalidationAndHbmRows :
    up.tileUp 7 = true ∧ bitsOf (0x80 : Word).toNat 7 1 = 1 ∧ up.tlbCur = none ∧
    (let s : State := { up with tlbCur := some ⟨none, 63, false⟩ }
     s.tlbCur = some ⟨none, 63, false⟩ ∧ s.quiet (fun c => false || c == 63) = true) ∧
    (let s : State := { up with tlbCur := some ⟨none, 63, true⟩, net := [{ path := [bondOut 0], a := 0, tile := 0, data := [1], ctx := 3, eng := some 6 }] }
     s.quiet (fun c => true || c == 63) = false) ∧
    (let s : State := { up with cacheReq := [(7, 3)] }
     s.cacheReq = [(7, 3)] ∧ 3 ≠ s.rg (uTile 7) MMU_CACHE_CFG.size ∧ s.allFree = true ∧ (s.cs SEQ_CTX_STATE.state 5 1).allFree = false) ∧
    up.tileUp (15 / 2) = true ∧ up.tick % 1000 = 0 ∧ up.tick % 195 = 0 ∧
    (let s : State := { up.setHbm 15 { want := 1 } with tick := 195 }; s.tick % 195 = 0 ∧ (s.hbmOf 15).want ≠ (s.hbmOf 15).row) ∧
    (up.hbmOf 15).want = (up.hbmOf 15).row ∧ (up.hbmOf 15).scrubs ≤ up.tick / dayTk := by decide +kernel

theorem test_wit_EcpRequestsAreCheckedInOrder :
    (∃ b, ecpOf (.stop (hdr []) 1 0) = some (hdr [], 0x22, b)) ∧ up.accessYields 1 = false ∧ up.unitUp (uPort 1) = true ∧
    State.reset.unitUp (uPort 0) = false ∧ lengthOk (hdr []) = true ∧ lengthOk { hdr [] with size := 63 } = false ∧
    { hdr [] with version := 2 }.version ≠ 1 ∧ (up.countFec 1 {}).claim.claimed = false ∧ (owned.countFec 1 {}).claim.claimed = true ∧
    (owned.countFec 1 {}).claimSoon = false ∧ owned.claim.seqFresh 1 = true ∧ { owned.claim with seqMask := 1 }.seqFresh 0 = false ∧
    (owned.ecpTaken (hdr [])).executing 7 = false ∧
    (let s := { owned with claim := { owned.claim with cache := [⟨0x22, ⟨0, 0, 0, 6, 1, 1, 7, 0, [], none, {}⟩⟩] } }
     (s.ecpTaken (hdr [])).claim.cache.find? (fun e => e.out.reqId == 7 && e.rtype == 0x22) =
       some ⟨0x22, ⟨0, 0, 0, 6, 1, 1, 7, 0, [], none, {}⟩⟩) ∧
    (let s := { owned with admits := [⟨hdr [], 0xFF, 0, 0, 0, 0⟩] }; (s.ecpTaken (hdr [])).executing 7 = true) :=
  ⟨⟨_, rfl⟩, by decide +kernel⟩

theorem test_wit_ecpRuns (c f : Nat) : ∃ tag, owned.ecpRuns (.stop (hdr tag) c f) = true :=
  wit_ecpRuns (fun tag => .stop (hdr tag) c f) 0x22 (fun _ => le 1 c ++ le 1 f) (fun _ => rfl) (fun _ => rfl)

theorem test_wit_ContextRequestsRun :
    (leads.ecpTaken (hdr [])).acting.isSome = true ∧ leads.cstate 63 ≠ cRunning ∧ leads.cstate 63 = cFree ∧
    (leads.cs SEQ_CTX_STATE.state 63 2).cstate 63 = cRunning ∧ (leads.cs SEQ_CTX_STATE.state 63 2).cstate 63 ≠ cFree ∧
    ((leads.cs SEQ_CTX_STATE.state 63 3).cstate 63 = cStopping ∧ ((leads.cs SEQ_CTX_STATE.state 63 3).ctx 63).forced = false) ∧
    (owned.ecpTaken (hdr [])).acting = none ∧ owned.claim.queued.length < 64 ∧
    64 ≤ { owned with claim := { owned.claim with queued := List.replicate 64 .bypass } }.claim.queued.length ∧
    (leads.ecpTaken (hdr [])).allFree = true ∧ (leads.cs SEQ_CTX_STATE.state 63 2).allFree = false := by decide +kernel

theorem test_wit_ContextRowsRun :
    (leads.yields (.admissionEvaluation {} 0) = false ∧ leads.acting.isSome = true ∧ leads.evaluationTime = true ∧ owned.acting = none ∧
     State.evaluationTime { leads.cs SEQ_CTX_STATE.state 63 2 with tick := 7 } = false) ∧
    (let s := leads.cs SEQ_CTX_STATE.state 63 1
     s.tick % 16 = 0 ∧ (s.ctx 63).resumed = false ∧ s.tick = s.cg SEQ_CTX_START.start 63 + (s.ctx 63).skip ∧ s.cstate 63 = cAdmitted ∧
     s.membersReady (s.ctx 63).plan = true) ∧
    (let s := leads.cs SEQ_CTX_STATE.state 63 2
     s.cstate 63 = cRunning ∧ (s.ctx 63).started = false) ∧
    (let s := (leads.cs SEQ_CTX_STATE.state 63 2).setCtx 63 { leads.ctx 63 with started := true }
     s.yields (.cycleDone 63) = false ∧ s.acting.isSome = true ∧ (s.ctx 63).started = true ∧ s.cycleOver 63 = true ∧ s.cstate 63 = cRunning) ∧
    (let s := (owned.cs SEQ_CTX_STATE.state 63 3).setCtx 63 { leads.ctx 63 with started := true, target := 0 }
     s.yields (.cycleDone 63) = false ∧ s.acting = none ∧ (s.ctx 63).started = true ∧ s.cycleOver 63 = true ∧ s.cstate 63 = cStopping ∧
     (s.ctx 63).forced = false ∧ (s.ctx 63).target = 0) ∧
    (let s := leads.cs SEQ_CTX_STATE.state 63 3
     s.acting.isSome = true ∧ s.cstate 63 = cStopping ∧ s.allStopped 63 = true ∧ saveHit (s.ctx 63) [] = none) ∧
    (let s := (leads.cs SEQ_CTX_STATE.state 63 3).setCtx 63 { leads.ctx 63 with forced := true, plan := { (leads.ctx 63).plan with cores := [(0, 1)] } }
     let s := (List.range 8).foldl (fun s k => s.setEng k { s.eng k with phase := .stopped }) s
     s.allStopped 63 = true ∧ saveHit (s.ctx 63) [8] = some (0, 8)) := by decide +kernel

theorem test_wit_NextStartIsTheSmallestTick :
    (let s := (leads.cs SEQ_CTX_STATE.state 63 2).setCtx 63 { leads.ctx 63 with started := true }
     s.yields (.cycleDone 63) = false ∧ s.acting = some 0 ∧ (s.seq 0).notBefore = 0 ∧ (s.ctx 63).started = true ∧ s.cycleOver 63 = true ∧
     s.cstate 63 = cRunning ∧ (s.ctx 63).plan.cycles = 0 ∧
     s.cg SEQ_CTX_START.start 63 + (s.ctx 63).plan.period + s.tick + 32 < 2 ^ 64 ∧
     s.cg SEQ_CTX_SLIP.slip_tk 63 < 2 ^ SEQ_CTX_SLIP.slip_tk.w) := by decide +kernel

theorem test_wit_HolderAndStandbyRows :
    (leads.acting = some 0 ∧ leads.tick % 100 = 0) ∧
    (let s := { leads with tick := 400 }; s.acting = some 0 ∧ s.tick ≥ (s.seq 0).lastAck + 400 ∧ (s.seq 0).ackRaised = false) ∧
    (let s := { leads with tick := 3200 }; s.tileUp 0 = true ∧ s.rg (uTile 0) SEQ_ROLE.lease_held = 1 ∧ s.tick ≥ (s.seq 0).ownExp) ∧
    (let b : BeaconMsg := { (⟨0, 1, 0, .net, 0, 0⟩ : BeaconMsg) with crc := beaconCrc ⟨0, 1, 0, .net, 0, 0⟩ }
     let s := leads.rs (uTile 7) SEQ_ROLE.role 2
     s.yields (.beacon (some 7) b) = false ∧ s.tileUp 7 = true ∧ { b with crc := b.crc + 1 }.crc ≠ beaconCrc b ∧ b.crc = beaconCrc b ∧
     s.rg (uTile 7) SEQ_LEASE.epoch ≤ b.epoch ∧ s.rg (uTile 7) SEQ_ROLE.role = 2 ∧
     b.epoch < (s.rs (uTile 7) SEQ_LEASE.epoch 2).rg (uTile 7) SEQ_LEASE.epoch) ∧
    (let s := { (((leads.rs (uTile 7) SEQ_ROLE.role 2).rs (uTile 7) SEQ_BEACON.miss_net 3).rs (uTile 7) SEQ_BEACON.miss_ring 3).rs
       (uTile 7) SEQ_BEACON.ready 1 with tick := 90 }
     s.yields (.beaconCheck 7 0) = false ∧ s.tileUp 7 = true ∧ s.rg (uTile 7) SEQ_ROLE.role = 2 ∧ s.tick = 0 + 90 ∧
     (s.seq 7).got.contains (0, .net) = false ∧ (s.seq 7).got.contains (0, .ring) = false ∧ (s.seq 7).faultNet = false ∧
     (s.seq 7).faultRing = false ∧ s.rg (uTile 7) SEQ_BEACON.miss_net = 3 ∧ s.rg (uTile 7) SEQ_BEACON.miss_ring = 3 ∧
     s.rg (uTile 7) SEQ_BEACON.ready = 1 ∧ (s.seq 7).lostRaised = false ∧ (s.seq 7).silentNet = false ∧ (s.seq 7).silentRing = false ∧
     (let u := s.setSeq 7 { s.seq 7 with got := [(0, .ring)] }
      (u.seq 7).got.contains (0, .net) = false ∧ (u.seq 7).got.contains (0, .ring) = true) ∧
     (let u := s.setSeq 7 { s.seq 7 with got := [(0, .net)] }
      (u.seq 7).got.contains (0, .net) = true ∧ (u.seq 7).got.contains (0, .ring) = false)) := by decide +kernel

theorem test_wit_KeeperDecidesTheLease :
    (let b : BeaconMsg := { (⟨0, 1, 0, .ring, 0, 0⟩ : BeaconMsg) with crc := beaconCrc ⟨0, 1, 0, .ring, 0, 0⟩ }
     let s := leads
     s.yields (.beacon none b) = false ∧ s.safeStopped = false ∧ b.crc = beaconCrc b ∧ b.epoch = s.rg 0 KPR_LEASE.epoch ∧
     b.holder = s.rg 0 KPR_LEASE.holder ∧ s.rg 0 KPR_LEASE.held = 1 ∧ s.tick < s.rg 0 KPR_LEASE_EXP.expiry ∧ s.lease.take = none ∧
     ({ s.lease with take := some (7, 0) } : LeaseSt).take = some (7, 0)) ∧
    (let s := { leads with tick := 3200 }
     s.yields .leaseExpiry = false ∧ s.rg 0 KPR_LEASE.held = 1 ∧ s.tick ≥ s.rg 0 KPR_LEASE_EXP.expiry ∧ s.safeStopped = false) ∧
    (leads.yields (.take 0) = false ∧ leads.safeStopped = false ∧ leads.lease.take = none ∧ leads.tileUp 0 = true ∧ 0 = leads.light.primary) ∧
    (let s := { leads with tick := 3400, lease := { leads.lease with take := some (7, 3400) } }
     s.yields .grant = false ∧ s.lease.take = some (7, 3400) ∧ s.safeStopped = false ∧ s.rg 0 KPR_LEASE_EXP.expiry + 200 ≤ s.tick ∧
     s.tileUp 7 = true ∧ s.tick + 3200 < 2 ^ 64) ∧
    (let s := { leads with tick := 400, lease := { leads.lease with lastRing := some 0 } }
     s.yields (.arbitrate 0 .net) = false ∧ s.safeStopped = false ∧ s.lease.take = none ∧ s.tileUp 0 = true ∧ 0 = s.light.primary ∧
     s.tick ≤ 0 + 400 ∧ s.lease.lastRing = some 0 ∧ s.lease.lastNet = none) := by decide +kernel

theorem test_wit_TakeoverRows :
    (leads.yields (.epochAnnouncement 7 0) = false ∧ leads.tileUp 7 = true ∧
      0 < (leads.rs (uTile 7) SEQ_LEASE.epoch 1).rg (uTile 7) SEQ_LEASE.epoch ∧ leads.rg (uTile 7) SEQ_LEASE.epoch ≤ 1) ∧
    (let s := (leads.cs SEQ_CTX_STATE.state 63 2).setCtx 63 { leads.ctx 63 with plan := { (leads.ctx 63).plan with cores := [(7, 1)] } }
     s.acting = some 0 ∧ s.holdsCores 63 = true ∧ s.cg SEQ_CTX_START.start 63 < 2 ^ 64 - 1 ∧ (s.ctx 63).plan.usesDie 7 = true) ∧
    (let s := { leads with light := { leads.light with standby := 7 } }
     s.yields (.copyRecord 7 { seq := 1, kind := .snapshot, epoch := 0 }) = false ∧ s.yields (.copyRecord 7 { seq := 1, kind := .cycle, epoch := 0 }) = false ∧
     s.tileUp 7 = true ∧ 7 = s.light.standby ∧ s.acting ≠ some 7 ∧ s.rg (uTile 7) SEQ_LEASE.epoch ≤ 0 ∧
     0 < (s.rs (uTile 7) SEQ_LEASE.epoch 1).rg (uTile 7) SEQ_LEASE.epoch ∧
     (s.rs (uTile 7) SEQ_BEACON.ready 1).rg (uTile 7) SEQ_BEACON.ready = 1 ∧ s.rg (uTile 7) SEQ_BEACON.ready ≠ 1 ∧
     1 = (s.rg (uTile 7) SEQ_BEACON.copy_seq + 1) % 2 ^ 16) ∧
    (let r : CopyOut := ⟨{ seq := 1, kind := .snapshot, epoch := 0 }, 0, .net⟩
     let s := { leads.setSeq 0 { leads.seq 0 with unacked := [r] } with tick := 1000 }
     s.acting = some 0 ∧ (s.seq 0).standbyLost = false ∧ r ∈ (s.seq 0).unacked ∧ s.tick ≥ r.at_ + 1000 ∧
     (s.seq 0).unacked.any (fun r => r.msg.seq == 1 && r.msg.kind == .snapshot) = true ∧
     (s.seq 0).unacked.any (fun r => r.msg.seq == 2 && r.msg.kind == .snapshot) = false ∧
     ((s.setSeq 0 { s.seq 0 with standbyLost := true }).seq 0).standbyLost = true) := by
  decide +kernel

theorem test_wit_ServingRequestsRun_runs (ctx tile va id index : Nat) (r : SrvFrag) :
    (∃ tag, owned.ecpRuns (.srvOpen (hdr tag) ctx tile va) = true) ∧ (∃ tag, owned.ecpRuns (.srvClose (hdr tag) tile) = true) ∧
    (∃ tag, owned.ecpRuns (.srvReq (hdr tag) r) = true) ∧ (∃ tag, owned.ecpRuns (.srvAck (hdr tag) tile id index) = true) ∧
    (∃ tag, owned.ecpRuns (.srvResend (hdr tag) tile id index) = true) ∧ (∃ tag, owned.ecpRuns (.srvCancel (hdr tag) tile id) = true) :=
  ⟨wit_ecpRuns (fun t => .srvOpen (hdr t) ctx tile va) 0x40 (fun h => le 1 ctx ++ le 1 tile ++ rsvBytes h 0 6 ++ le 8 va)
     (fun _ => rfl) (fun _ => rfl),
   wit_ecpRuns (fun t => .srvClose (hdr t) tile) 0x42 (fun _ => le 1 tile) (fun _ => rfl) (fun _ => rfl),
   wit_ecpRuns (fun t => .srvReq (hdr t) r) 0x43 (fun h => fragBytes h r) (fun _ => rfl) (fun _ => rfl),
   wit_ecpRuns (fun t => .srvAck (hdr t) tile id index) 0x46 (fun h => le 1 tile ++ rsvBytes h 0 3 ++ le 4 id ++ le 4 index)
     (fun _ => rfl) (fun _ => rfl),
   wit_ecpRuns (fun t => .srvResend (hdr t) tile id index) 0x47 (fun h => le 1 tile ++ rsvBytes h 0 3 ++ le 4 id ++ le 4 index)
     (fun _ => rfl) (fun _ => rfl),
   wit_ecpRuns (fun t => .srvCancel (hdr t) tile id) 0x48 (fun h => le 1 tile ++ rsvBytes h 0 3 ++ le 4 id) (fun _ => rfl)
     (fun _ => rfl)⟩

/-- Context 3 runs, and its memory holds the serving header of one slot at 0x1000. -/
def opens : State :=
  let s := ((owned.cs SEQ_CTX_STATE.state 3 2).rs seqHome MMU_CTX_ROOT.valid 1 24).writeMem 0 (le 8 0x37)
  let s := s.setCtx 3 { s.ctx 3 with plan := { (s.ctx 3).plan with regions := [⟨0, 65536, true, true, false, false⟩] } }
  s.writeMem 0x1000 (le 4 0x5652534B ++ le 2 1 ++ [1, 0] ++ le 4 1 ++ le 4 9 ++ le 48 0 ++ le 4 8 ++ List.replicate 252 0)

theorem test_wit_ServingRequestsRun :
    (owned.openCode 64 0 0).1 ≠ 0 ∧ ((opens.ecpTaken (hdr [])).openCode 3 0 0x1000).1 = 0 ∧ (serves.srvCtx 0).isSome = true ∧ owned.srvCtx 0 = none ∧
    (serves.serv 0).takeFrag (hdr []) (frag 1 1 0) 0 = .inl (requestOf (frag 1 1 0) 0) ∧
    (serves.serv 0).takeFrag (hdr []) (frag 0 2 0) 0 = .inl (requestOf (frag 0 2 0) 0) ∧
    (serves.serv 0).takeFrag (hdr []) (frag 1 1 1) 0 = .inr 5 ∧ (serves.serv 0).knows 5 = false ∧
    (let v : Serv := { serves.serv 0 with active := [(0, asks [] 1 1)] }; v.knows 5 = true) := by decide +kernel

theorem test_wit_ServingWindowRuns :
    (let s := serves.setServ 0 { serves.serv 0 with released := some 9 }
     s.srvCtx 0 = some 3 ∧ (s.serv 0).released = some 9 ∧ s.tileUp 0 = true ∧ s.cstate 3 = cRunning) ∧
    (owned.srvCtx 0 = none ∧ (serves.serv 0).released = none ∧ (serves.cs SEQ_CTX_STATE.state 3 4).cstate 3 ≠ cRunning) ∧
    (let v : Serv := { serves.serv 0 with active := [(0, asks [7] 1 1)] }
     mfind v.active 0 = some (asks [7] 1 1) ∧ v.closing = false ∧ (asks [7] 1 1).cancel = false ∧ (asks [7] 1 1).run = true ∧
     { asks [7] 1 1 with run := false }.run = false ∧ { asks [7] 1 1 with cancel := true }.cancel = true) ∧
    sampleToken (asks [] 2 2) [(0, 7)] 0 = some 7 ∧ sampleToken (asks [] 2 2) [(0x7FC00000, 7)] 0 = none ∧
    (asks [7] 2 2).stops.contains 7 = true ∧ (asks [] 1 2).maxNew ≤ 0 + 1 ∧ 0 + 1 < (asks [] 2 2).maxNew ∧
    0 + 1 - 0 < (asks [] 2 2).chunk ∧ (asks [] 2 1).chunk ≤ 0 + 1 - 0 ∧
    (let v : Serv := { serves.serv 0 with asm := [asks [] 1 1], active := [(4, { asks [] 1 1 with unsent := some 0 })] }
     v.asm.find? (fun x => x.reqId == 5) = some (asks [] 1 1) ∧
     v.active.find? (fun e => e.2.reqId == 5) = some (4, { asks [] 1 1 with unsent := some 0 })) := by decide +kernel

/-- Side `m` of unit `u` in a state. -/
def side (u m st : Nat) : State := up.ms u m D2D_STATUS.state st

/-- A side of the narrow module 9 of tile 0 in a state, with its record. -/
def narrow (st : Nat) (x : D2dSt) : State := (side 16 9 st).setMod 16 9 x

/-- A stage's observations. -/
def stageObs (ok garbled : Bool) : StageObs := ⟨ok, [], [], garbled, 3⟩

/-- What the other side advertises, with its receive lanes bad. -/
def adv (rxBad : Nat) : D2dAdv := ⟨2, rxBad, 0, 0, 0⟩

theorem test_wit_ModulesTrain :
    ((side 16 8 7).unitUp 16 = true ∧ ((side 16 8 7).otherSide 16 8).isSome = true ∧ (side 16 8 7).modState 16 8 ≠ 0 ∧
      trainingState ((side 16 8 7).modState 16 8) = false ∧ (side 16 8 7).modState 16 8 ≠ 9) ∧
    (State.reset.unitUp 16 = false ∧ (side 16 8 0).modState 16 8 = 0 ∧ trainingState ((side 16 8 3).modState 16 8) = true) ∧
    ((side 16 8 7).yields (.forwardedClockLoss 16 8 [0]) = false ∧
      ((List.range (clockGroups 16 8)).filter (fun c => [0].contains c)).length ≤ clockGroups 16 8 / 2 ∧
      clockGroups 16 8 / 2 < ((List.range (clockGroups 16 8)).filter (fun c => (List.range 17).contains c)).length ∧
      (side 16 8 9).modState 16 8 = 9) ∧
    (let s := narrow 9 { noClock := true }
     s.modState 16 9 = 9 ∧ (s.mod 16 9).noClock = true ∧ (s.otherSide 16 9).isSome = true ∧ ((side 16 9 9).mod 16 9).noClock = false) ∧
    ((side 16 8 6).modState 16 8 = 6 ∧ (side 16 8 1).modState 16 8 = 1 ∧ (side 16 8 5).modState 16 8 = 5 ∧ (side 16 8 4).modState 16 8 = 4 ∧
      (side 16 8 2).modState 16 8 = 2 ∧ ((side 16 8 2).mod 16 8).periods < 16 ∧ 16 ≤ ((narrow 2 { periods := 16 }).mod 16 9).periods) ∧
    (narrowMod 16 9 = true ∧ narrowMod 16 8 = false ∧ sideMap 16 8 [0] = some [4, 1, 2, 3] ∧ sideMap 16 8 [0, 1, 2, 3, 4] = none) ∧
    ((stageObs true false).ok = true ∧ (stageObs false false).ok = false ∧ ((narrow 3 { again := true }).mod 16 9).again = true ∧
      ((side 16 9 3).mod 16 9).again = false) := by decide +kernel

theorem test_wit_ModulesTrain_agree :
    (let s := narrow 3 { heard := some (adv 0) }
     s.modState 16 9 = 3 ∧ (s.mod 16 9).heard = some (adv 0) ∧ (s.mod 16 9).differed = false ∧ (s.mod 16 9).trial = 0) ∧
    (let s := narrow 3 { heard := some (adv 31), differed := true, trial := 1 }
     (s.mod 16 9).differed = true ∧ (s.mod 16 9).trial ≠ 0) ∧
    ((side 16 9 3).mod 16 9).heard = none ∧ (stageObs true true).garbled = true := by decide +kernel

theorem test_wit_ModulesTrain_maps : ((narrow 3 {}).agreedMaps 16 9 (adv 0)).1.table ≠ [] ∧
    ((narrow 3 {}).agreedMaps 16 9 (adv 0)).2.table ≠ [] := by decide +kernel

theorem test_wit_ModulesTrain_few : ((narrow 3 {}).agreedMaps 16 9 (adv 31)).2.table = [] := by decide +kernel

/-- A narrow side in UP at a marker, with repairs enabled. -/
def repairing (x : D2dSt) : State := { (narrow 7 { x with rx := laneMapOf 16 9 0 1, tx := laneMapOf 16 9 0 1 }).ms 16 9 D2D_CTL.repair_en 1 with tick := 63 }

theorem test_wit_ModulesRepair :
    (let s := repairing { want := [5] }
     let w := s.takePeriod 16 9 []
     s.tick % 64 = 63 ∧ 2 ≤ s.modState 16 9 ∧ s.modState 16 9 ≠ 9 ∧ s.mg 16 9 D2D_CTL.repair_en = 1 ∧ 7 ≤ s.modState 16 9 ∧
     (w.mod 16 9).rxFix = none ∧ (w.mod 16 9).rxDeg = none ∧ (w.mod 16 9).nextAt ≤ s.tick ∧
     lowestLane ((w.mod 16 9).want.filter (fun l => (w.mod 16 9).rx.table.contains l)) = some 5 ∧
     ((w.mod 16 9).rx.spares 16 9).head? = some 64 ∧ narrowMod 16 9 = true) ∧
    (let s := (repairing {}).setMod 16 9 { rx := laneMapOf 16 9 15 1, want := [5] }
     let w := s.takePeriod 16 9 []
     ((w.mod 16 9).rx.spares 16 9).head? = none ∧
     lowestLane ((w.mod 16 9).want.filter (fun l => (w.mod 16 9).rx.table.contains l)) = some 5) ∧
    (let w := (repairing {}).takePeriod 16 9 []
     lowestLane ((w.mod 16 9).want.filter (fun l => (w.mod 16 9).rx.table.contains l)) = none) ∧
    ((side 16 9 1).modState 16 9 < 2 ∧ up.tick % 64 ≠ 63) ∧ (side 16 9 8).modState 16 9 = 8 ∧
    (let f : LaneFix := { x := 1, y := 65, epoch := 2, m := 0 }
     let s := repairing { txFix := some f }
     (s.mod 16 9).txFix = some f ∧ f.epoch = 2 ∧ ((side 16 9 7).mod 16 9).txFix = none) := by decide +kernel

theorem test_wit_ModulesRepair_boundary :
    (let f : LaneFix := { x := 1, y := 65, epoch := 2, m := 63, sent := false }
     let s := repairing { rxFix := some f }
     s.modState 16 9 = 7 ∧ (s.mod 16 9).rxFix = some f ∧ (s.mod 16 9).txFix = none ∧ (s.mod 16 9).rxDeg = none ∧ (s.mod 16 9).txDeg = none ∧
     s.tick = f.m ∧ f.sent = false ∧ (s.mod 16 9).errs.contains f.y = false ∧
     { s with tick := 63 + 128 }.tick = f.m + 128 ∧ ((repairing { errs := [65] }).mod 16 9).errs.contains f.y = true ∧
     { s with tick := 63 + 192 }.tick = f.m + 192 ∧ { f with told := true }.told = true) ∧
    (let f : LaneFix := { x := 1, y := 65, epoch := 2, m := 63, told := true }
     let s : State := { repairing { txFix := some f } with tick := 63 + 192 }
     s.modState 16 9 = 7 ∧ (s.mod 16 9).txFix = some f ∧ (s.mod 16 9).rxFix = none ∧ (s.mod 16 9).rxDeg = none ∧ (s.mod 16 9).txDeg = none ∧
     s.tick = f.m + 192 ∧ f.told = true) ∧
    (let s : State := { (side 16 9 7).rs 16 THM_STATUS.band_tile 2 with tick := 63 }
     s.bandOf 16 (s.mg 16 9 D2D_STATUS.band) = 2 ∧ s.mg 16 9 D2D_STATUS.band ≠ 2 ∧ 2 < 2 ^ D2D_STATUS.band.w ∧ s.tick % 64 = 63) ∧
    (let s : State := side 16 9 7; s.bandOf 16 (s.mg 16 9 D2D_STATUS.band) = s.mg 16 9 D2D_STATUS.band ∧ (s.mod 16 9).phases = []) := by
  decide +kernel

/-- Both cases of a band's last step occur: every lane within 4 of its goal, and one beyond. -/
theorem test_wit_ModulesRepair_phases :
    (let s := side 16 9 7
     let s := s.setMod 16 9 { s.mod 16 9 with phases := (List.range (physLanes 16 9)).map (fun l => (l, s.fusedPhase 16 9 1 l + 4)) }
     ∀ l, l < physLanes 16 9 → s.phaseOf 16 9 l = s.fusedPhase 16 9 1 l + 4) ∧
    (let s := side 16 9 7
     let s := s.setMod 16 9 { s.mod 16 9 with phases := [(67, s.fusedPhase 16 9 1 67 + 5)] }
     s.phaseOf 16 9 67 = s.fusedPhase 16 9 1 67 + 5) := by
  decide +kernel


theorem test_wit_OpticalSafetyStates :
    (linked 0 0 0).toeUp (linkTile 0) = true ∧ (linked 0 0 0).og 0 TOE_STATUS.safety = 0 ∧ (linked 0 0 0).darkLink 0 = true ∧
    (let s := linked 0 0 0; let t := { s with light := { s.light with peers := [⟨0, 1, 1⟩] } };
     t.darkLink 0 = false ∧ (t.opt 0).dark = false) ∧ (linked 0 0 2).og 0 TOE_STATUS.safety ≠ 0 ∧
    (let s := { linked 0 0 1 with tick := 100000 }; s.og 0 TOE_STATUS.safety = 1 ∧ s.tick ≥ (s.opt 0).at_ + 100000) ∧
    (let s := { linked 0 0 2 with tick := 500000 }; s.og 0 TOE_STATUS.safety = 2 ∧ (s.opt 0).armed = false ∧
     s.tick ≥ (s.opt 0).at_ + 500000 ∧ (true, 9) ∈ s.wavesOf 0 ∧ (s.wave 0 true 9).lock = 0) ∧
    (let s := (linked 0 0 2).setOpt 0 { (linked 0 0 2).opt 0 with armed := true }
     (s.opt 0).armed = true ∧ s.yields (.litCheck 0) = false ∧ s.toeUp (linkTile 0) = true ∧ s.og 0 TOE_STATUS.safety = 2) ∧
    (let s := { linked 0 0 3 with tick := 10000000 }; s.og 0 TOE_STATUS.safety = 3 ∧ s.tick ≥ (s.opt 0).at_ + 10000000) ∧
    ((linked 0 0 2).og 0 TOE_STATUS.stage ≠ 5 ∧ (linked 0 5 2).og 0 TOE_STATUS.stage = 5 ∧ (linked 0 5 2).toeUp (linkTile 0) = true) ∧
    State.reset.toeUp (linkTile 0) = false := by decide +kernel

/-- A marker of wavelength 0 of link 0: lane F, with a CRC that is right or not. -/
def marker (mode epoch : Nat) (good : Bool) : OptMarker :=
  ⟨0, 0, markerWord 15 0 epoch mode false false 0 1 + (if good then 0 else if markerWord 15 0 epoch mode false false 0 1 < 2 ^ 79 then 2 ^ 79 else 2 ^ 80), [], 20, 9, []⟩

theorem test_wit_OpticalBringUp_markers :
    (marker 0 0 false).crcOk = false ∧ (marker 0 0 true).crcOk = true ∧ (marker 0 0 true).mode = 0 ∧ (marker 1 0 true).crcOk = true ∧
    (marker 1 0 true).mode = ((linked 0 2 2).opt 0).rxMode + 1 ∧ (marker 2 9 true).epoch ≠ 0 ∧ (marker 2 9 true).crcOk = true ∧
    (marker 0 0 true).mode ≠ ((linked 0 2 2).opt 0).rxMode + 1 ∧ (marker 0 0 true).lam < 10 ∧
    (linked 0 6 2).og 0 TOE_STATUS.stage = 6 ∧ (linked 0 2 2).og 0 TOE_STATUS.stage = 2 ∧ (linked 0 3 2).og 0 TOE_STATUS.stage = 3 ∧
    (linked 0 4 2).og 0 TOE_STATUS.stage = 4 ∧ (linked 0 4 2).markerAgrees (marker 2 9 true) = false ∧
    (linked 0 5 2).og 0 TOE_STATUS.stage = 5 ∧ (linked 0 5 2).toeUp (linkTile 0) = true ∧ (linked 0 1 2).og 0 TOE_STATUS.stage < 2 := by
  decide +kernel

theorem test_wit_OpticalBringUp :
    (let s := { linked 0 2 2 with tick := 524288 }
     (s.opt 0).passed = (s.opt 0).rxMode ∧ (s.opt 0).rxMode < 2 ∧ (s.opt 0).testAt + (1024 + 0) * markerTk 0 ≤ s.tick ∧
     ((s.lams 0 false).filter (fun n => s.lanePassed 0 n)).length < 7) ∧
    (let s := (List.range 10).foldl (fun s n => s.setWave 0 false n { s.wave 0 false n with lock := 3, tN := 1024, tMargin := 63 })
       { linked 0 2 2 with tick := 524288 }
     7 ≤ ((s.lams 0 false).filter (fun n => s.lanePassed 0 n)).length) ∧
    (let s := { (linked 0 2 2).setOpt 0 { (linked 0 2 2).opt 0 with rxMode := 2, passed := 2 } with tick := 139264 }
     2 ≤ (s.opt 0).rxMode ∧ (s.opt 0).testAt + (1024 + 64) * markerTk 2 ≤ s.tick) ∧
    (let s := (linked 0 2 2).setOpt 0 { (linked 0 2 2).opt 0 with rxMode := 1 }; (s.opt 0).passed < (s.opt 0).rxMode) ∧
    (let s := { (linked 0 3 2).setOpt 0 { (linked 0 3 2).opt 0 with goAt := some 0, passed := 1 } with tick := 2048 }
     s.toeUp (linkTile 0) = true ∧ s.og 0 TOE_STATUS.mode < 2 ∧ s.og 0 TOE_STATUS.mode < (s.opt 0).passed ∧
     s.tick ≥ 0 + 4 * markerTk (s.og 0 TOE_STATUS.mode) ∧ s.nextBoundary 0 = s.tick ∧ (s.opt 0).goAt = some 0) ∧
    (let s := (linked 0 4 2).setOpt 0 { (linked 0 4 2).opt 0 with agree := 16 }; 16 ≤ (s.opt 0).agree ∧ (s.opt 0).served = false) ∧
    (let s := { linked 0 6 2 with tick := 100000000 }; s.og 0 TOE_STATUS.stage = 6 ∧ s.tick ≥ (s.opt 0).waitAt + 100000000) ∧
    (let s := { linked 0 1 2 with tick := 50000000 }; s.tick ≥ (s.opt 0).lockAt + 50000000 ∧ 0 ∈ s.lams 0 false ∧
     (s.wave 0 false 0).lock = 0) := by decide +kernel

/-- Link 0 in SERVICE with a wave's record changed. -/
def waving (tx : Bool) (n : Nat) (w : Wave) : State := { (linked 2 5 2).setWave 0 tx n w with tick := 10000000 }

theorem test_wit_RingsLockAndCalibrate_windows :
    (0 ∈ (linked 2 5 2).lams 0 false ∧ 9 ∈ (linked 2 5 2).lams 0 true) ∧
    ((waving false 0 { lock := 1 }).wave 0 false 0).lock = 1 ∧ ((waving false 0 { lock := 4, found := true, calm := 15 }).wave 0 false 0).found = true ∧
    ((waving false 0 { lock := 2 }).wave 0 false 0).lock = 2 ∧ ((waving false 0 { lock := 5 }).wave 0 false 0).lock = 5 ∧
    ((waving false 0 { lock := 1 }).wave 0 false 0).winAt ≤ (waving false 0 { lock := 1 }).tick ∧
    (let s := waving false 0 { lock := 3, limit := 3 }
     let u := s.moveRing 0 false 0 ((s.wave 0 false 0).heater + 8) { s.wave 0 false 0 with limit := 4 }
     (s.wave 0 false 0).limit + 1 = 4 ∧ (u.wave 0 false 0).lock = 3) ∧
    ((linked 2 5 2).ringFuse 0 false 0 = (1090, 13630) ∧ (linked 2 5 2).calPoint 0 false 0 = 0) ∧
    ((waving false 0 { lock := 2 }).tick ≥ ((waving false 0 { lock := 2 }).wave 0 false 0).since + 25600) ∧
    (identityOf [100] 300 = some 0 ∧ identityOf [0, 100] 300 = some 1 ∧ identityOf [] 300 = none) := by decide +kernel

theorem test_wit_RingsLockAndCalibrate :
    (let s := waving true 9 { calT := some 100 }
     s.toeUp (linkTile 0) = true ∧ s.tick % 100000 = 0 ∧ 9 ∈ s.lams 0 true ∧ (s.wave 0 true 9).calT = some 100 ∧
     (s.wave 0 true 9).dueAt = none ∧ (s.wave 0 true 9).runAt = none ∧ (s.wave 0 true 9).retryAt = none ∧
     (500 : Int) - 100 > 4 * s.og 0 TOE_WCTL.cal_thr) ∧
    (let s := waving true 9 { runAt := some 0, rejects := 2 }
     (s.wave 0 true 9).runAt = some 0 ∧ s.tick ≥ 0 + 8800000 + (s.wave 0 true 9).lost ∧ 2 ≤ (s.wave 0 true 9).rejects ∧
     (s.flitTaken (flit 3)).wave 0 true 9 = s.wave 0 true 9) ∧
    (let s := waving true 9 { runAt := some 0 }; (s.wave 0 true 9).rejects < 2) ∧
    runAgrees ⟨[], []⟩ = true ∧ runAgrees ⟨[500], []⟩ = false ∧
    (((waving true 9 { retryAt := some 5 }).wave 0 true 9).retryAt = some 5 ∧ 5 ≤ (waving true 9 {}).tick) ∧
    ((linked 2 5 2).flitRuns (.calReport (flit 3) 1 2 1 [3]) = true ∧
     (((linked 2 5 2).flitTaken (flit 3)).wave 0 true 1).runAt = none) ∧
    (let s : State := { linked 2 5 2 with tick := 360000000000 }
     s.yields (.hourlyMean 0 9) = false ∧ 9 ∈ s.lams 0 true ∧ s.tick % 360000000000 = 0) ∧
    (let s := waving false 0 { wN := 1024, wFixed := 70000, wOver := 1 }
     s.yields (.fecWindow 0 0) = false ∧ 0 ∈ s.lams 0 false ∧ 1024 ≤ (s.wave 0 false 0).wN ∧
     s.og 0 TOE_WCTL.fec_thr < (s.wave 0 false 0).wFixed) := by decide +kernel

/-- A change under way in both directions of link 0 in SERVICE, with all maps in force. -/
def changing (action stage : Nat) (told : Bool) : State :=
  let s := (((linked 2 5 2).os 0 TOE_RX_MAP.role (buildMap (List.range 10))).os 0 TOE_TX_MAP.role (buildMap (List.range 10)))
  { s.setOpt 0 { s.opt 0 with
      mcount := 200
      txAct := some ⟨action, 1, 1, 9, 2, 3, 1, stage, told⟩
      rxAct := some ⟨action, 1, 1, 9, 2, 40, 1, stage, told⟩ } with tick := 51200 }

theorem test_wit_SparingExchange :
    (let s := changing 1 3 false
     let u := s.flitTaken (flit 3)
     s.flitRuns (.spareAsk (flit 3) 1 3) = true ∧ s.flitRuns (.spareCmd (flit 3) 1 3 8 2 700) = true ∧
     s.flitRuns (.spareAbort (flit 3) 3) = true ∧ s.flitRuns (.spareDone (flit 3) 2 0) = true ∧
     u.og 0 TOE_STATUS.stage = 5 ∧ roleAt (u.og 0 TOE_RX_MAP.role) 3 = 3 ∧
     8 ≤ roleAt (u.og 0 TOE_RX_MAP.role) 9 ∧ u.txCount 0 = 100 ∧
     2 ^ 15 ≤ (u.txCount 0 + 2 ^ 16 - 700 % 2 ^ 16) % 2 ^ 16 ∧ (u.txCount 0 + 2 ^ 16 - 99 % 2 ^ 16) % 2 ^ 16 < 2 ^ 15 ∧
     laneWave (u.og 0 TOE_TX_MAP.role) 3 = some 3 ∧ ((u.opt 0).txAct.map (·.m)) = some 3 ∧ ((u.opt 0).txAct.map (·.stage)) = some 3) ∧
    (let s := changing 1 3 false
     s.toeUp (linkTile 0) = true ∧ (s.txCount 0 + 2 ^ 16 - 3 % 2 ^ 16) % 2 ^ 16 = 97 ∧ s.nextBoundary 0 = s.tick ∧ boundaryOf 3 ≤ 97 ∧
     ((s.opt 0).mcount + 2 ^ 16 - 40 % 2 ^ 16) % 2 ^ 16 = 160 ∧ (s.opt 0).pEpoch ≠ 2) ∧
    (((changing 1 0 true).opt 0).txAct.map (·.told) = some true) ∧
    (let s := (linked 2 5 2).setOpt 0 { (linked 2 5 2).opt 0 with pEpoch := 2 }
     (s.opt 0).pEpoch = 2 ∧ s.sparePassed 0 8 = false ∧ s.lg 0 LNK_STATUS.state = 2 ∧ ((s.flitTaken (flit 3)).opt 0).txAct = none) ∧
    (let s := waving false 8 { lock := 3, tN := 64 }; s.sparePassed 0 8 = true) := by decide +kernel

theorem test_wit_SparingExchange_emergency :
    (let s := (changing 1 3 false).setOpt 0 { (changing 1 3 false).opt 0 with rxAct := none }
     let s := s.setWave 0 false 3 { s.wave 0 false 3 with badRun := 4 }
     let u := (s.raise 0x6017 (uToe (linkTile 0)) 0 0 3).oinc 0 TOE_SPARE.emergencies 1
     s.yields (.emergencyReplacement 0 3) = false ∧ s.og 0 TOE_STATUS.stage = 5 ∧ roleAt (s.og 0 TOE_RX_MAP.role) 3 < 8 ∧
     s.emergent 0 3 = true ∧ (s.opt 0).rxAct = none ∧ (u.freeSpares 0 false).head? = some 8) ∧
    (let s := (changing 1 3 false).setWave 0 false 1 { (changing 1 3 false).wave 0 false 1 with badRun := 4 }
     s.emergent 0 1 = true ∧ ((s.opt 0).rxAct.map (fun a => (a.action, a.old))) = some (1, 1) ∧
     s.yields (.emergencyReplacement 0 1) = false) ∧
    (let s := (changing 4 3 false).setWave 0 false 1 { (changing 4 3 false).wave 0 false 1 with badRun := 4 }
     ((s.opt 0).rxAct.map (·.action)) = some 4 ∧ s.yields (.emergencyReplacement 0 1) = false) := by decide +kernel

theorem test_wit_FlitsAreCheckedInOrder :
    flitOf (.char (flit 3) 1) = some (flit 3, 0x30, 0, (0, 0)) ∧ (linked 0 0 0).lg 0 LNK_STATUS.state = 0 ∧
    4 ≤ (linked 4 0 0).lg 0 LNK_STATUS.state ∧ State.reset.tileUp (linkTile 0) = false ∧ (linked 1 5 2).tileUp (linkTile 0) = true ∧
    (linked 1 5 2).lg 0 LNK_STATUS.state = 1 ∧ (linked 3 5 2).lg 0 LNK_STATUS.state = 3 ∧ (linked 4 5 2).lg 0 LNK_STATUS.state = 4 ∧
    (linked 1 5 2).flitCheck (flit 3) 0x30 0 (0, 0) = none ∧ (linked 2 5 2).flitCheck (flit 2) 0x30 0 (0, 0) = some 1 ∧
    (linked 2 5 2).flitCheck (flit 3) 0x30 0 (0, 0) = none ∧ (linked 2 5 2).flitCheck (flit 3) 0 0 (0, 0) = none ∧
    (linked 1 5 2).flitCheck (flit 3) 0 0 (0, 0) = none ∧
    seqDiff 0 (((linked 2 5 2).applyHeader (flit 3)).link 0).expect = 0 ∧
    seqDiff 5 (((linked 2 5 2).applyHeader { flit 3 with seq := 5 }).link 0).expect = 5 ∧
    seqDiff 65535 (((linked 2 5 2).applyHeader { flit 3 with seq := 65535 }).link 0).expect = 65535 := by decide +kernel

/-- A TRAIN flit's body. -/
def trains (pkg : Nat) : TrainMsg := ⟨[0xFF, 1], 3, 1, pkg, 0, true, false, 4, 9⟩

theorem test_wit_LinksTrainAndFall_train :
    (let s := link0 1 {}
     s.tileUp (linkTile 0) = true ∧ s.lg 0 LNK_STATUS.state = 1 ∧ s.flitCheck (flit 3) 1 0 (0, 0) = none ∧
     s.flitCheck (flit 3) 2 0 (0, 0) = none ∧ s.flitCheck (flit 3) 3 0 (0, 0) = none ∧ (s.link 0).agreed = false ∧
     s.peerOf 0 = ((trains 2).pod, (trains 2).pkg) ∧ s.peerOf 0 ≠ ((trains 3).pod, (trains 3).pkg) ∧ minorWith (trains 2) = some 1 ∧
     minorWith { trains 2 with minors := [] } = none ∧ (trains 2).seen = true) ∧
    (let s := link0 1 { agreed := true, pings := 15, pingAt := 99000 }
     (s.link 0).pings = 15 ∧ (s.link 0).agreed = true ∧ (s.link 0).pingAt = 99000) ∧
    ((link0 1 { agreed := true, pings := 3 }).link 0).pings < 15 := by decide +kernel

theorem test_wit_LinksTrainAndFall :
    (let s := link0 3 {}
     let u := (s.flitTaken (flit 3)).ls 0 LNK_PEER_CHAR.value 5
     s.flitRuns (.char (flit 3) 5) = true ∧ s.soon (charWaits 0) = false ∧ 5 ≠ u.lg 0 LNK_OWN_CHAR.value ∧ u.lg 0 LNK_STATUS.state = 3 ∧
     0 = ((s.flitTaken (flit 3)).ls 0 LNK_PEER_CHAR.value 0).lg 0 LNK_OWN_CHAR.value ∧ s.tick ≥ (s.link 0).charAt ∧
     State.soon { s with pending := [.lnkCtlDown 0] } (charWaits 0) = true) ∧
    (((link0 2 {}).flitTaken (flit 3)).ls 0 LNK_PEER_CHAR.value 5).lg 0 LNK_STATUS.state = 2 ∧
    (link0 2 {}).yields (.lnkCtlDown 0) = false ∧
    (let s := link0 2 { timer := some 5, tries := 15, ackFrom := some 3 }
     s.flitRuns (.linkDown (flit 3) 1) = true ∧ (s.link 0).timer = some 5 ∧ 5 ≤ s.tick ∧ (s.link 0).tries = 15 ∧ (s.link 0).ackFrom = some 3 ∧
     3 + 26 ≤ s.tick ∧ s.yields (.replayTimeout 0) = false) ∧
    ((link0 2 { timer := some 5, tries := 14 }).link 0).tries ≠ 15 ∧ (link0 0 {}).endedNow (oLink 0) = false ∧
    (link0 4 {}).lg 0 LNK_STATUS.state = 4 ∧ (link0 4 {}).lg 0 LNK_CTL.hold = 0 ∧
    ((link0 4 {}).ls 0 LNK_CTL.hold 1).lg 0 LNK_CTL.hold = 1 := by decide +kernel

/-- A data message for a package, of eight bytes. -/
def dataTo (pod pkg : Nat) : DataMsg := ⟨7, 0, pod, pkg, 0, 0x40010000, List.replicate 8 5⟩

/-- Link 0 with transfers and span operations under way, link 1 to package 3 of pod 1, and context 3 running plan 9 with a peer region. -/
def lands : State :=
  let s : State := link0 2 {
    xfers := [{ tag := 7, flow := 0, plan := 9, total := 16, pod := 0, pkg := 0, good := true },
      { tag := 8, flow := 0, plan := 9, total := 16, pod := 0, pkg := 0, good := false },
      { tag := 9, flow := 0, plan := 9, total := 16, pod := 1, pkg := 3, good := true, fwd := some 1 },
      { tag := 10, flow := 0, plan := 9, total := 16, pod := 1, pkg := 3, good := false, fwd := some 1 }]
    out := [⟨9, engKey 0 0 5, 0, 0, 0, 3, 0, 0, true⟩]
    fwds := [⟨5, 6, 1⟩] }
  let s : State := { (s.ls 1 LNK_STATUS.state 2).ls 0 LNK_PEER.features 1 with light := { s.light with peers := [⟨0, 1, 2⟩, ⟨1, 1, 3⟩] } }
  (((s.cs SEQ_CTX_STATE.state 3 2).rs seqHome MMU_CTX_ROOT.valid 1 24).writeMem 8 (le 8 0x37)).setCtx 3 { s.ctx 3 with
    plan := { (s.ctx 3).plan with planId := 9, regions := [⟨0x40000000, 2 ^ 30, true, true, true, true⟩] } }

theorem test_wit_LinkMessagesRun_lands :
    (let s := lands.flitTaken (flit 2)
     s.ctxOfPlan 9 = some 3 ∧ s.ctxOfPlan 8 = none ∧ inPeerRegion (s.ctx 3).plan.regions 0x40010000 16 = true ∧
     inPeerRegion (s.ctx 3).plan.regions 0 16 = false ∧ s.pagesVa (s.ctxRoot 3).1 (s.ctxRoot 3).2 2 0x40010000 8 = some [(0x10000, 8)] ∧
     s.pagesVa (s.ctxRoot 3).1 (s.ctxRoot 3).2 2 0 8 = none ∧ (s.landPath 0 3 none 0).isSome = true ∧ paTile 0x10000 = 0) ∧
    (State.reset.landPath 0 3 none 1 = none) := by decide +kernel

theorem test_wit_LinkMessagesRun_transfers :
    lands.flitRuns (.write (flit 2) (dataTo 0 0)) = true ∧ lands.flitRuns (.writeFirst (flit 2) (dataTo 0 0) ⟨9, 16, 0, 0⟩) = true ∧
    lands.flitRuns (.delivered (flit 3) 0 0 9) = true ∧ lands.flitRuns (.refuse (flit 3) 0 0 9 1) = true ∧
    (let s := lands.flitTaken (flit 2)
     s.ownPkg 0 0 = true ∧ s.ownPkg 1 3 = false ∧ s.ownPkg 1 9 = false ∧ s.forwardLink 0 1 3 = some 1 ∧ s.forwardLink 0 1 9 = none ∧
     ((s.link 0).xfers.find? (fun x => x.tag == 6)) = none ∧
     ((s.link 0).xfers.find? (fun x => x.tag == 7)).map (fun x => (x.fwd, x.good)) = some (none, true) ∧
     ((s.link 0).xfers.find? (fun x => x.tag == 9)).map (fun x => (x.fwd, x.good)) = some (some 1, true) ∧
     ((s.link 0).xfers.find? (fun x => x.tag == 10)).map (fun x => (x.fwd, x.good)) = some (some 1, false)) ∧
    (let s := lands.flitTaken (flit 3)
     (s.outOf 0 0 0 9).isSome = true ∧ s.outOf 0 1 3 9 = none ∧ s.cameFrom 0 1 3 9 = none) ∧
    (let f : FlitHdr := { flit 3 with link := 1 }
     let s : State := State.os lands 1 TOE_STATUS.stage 5
     s.flitRuns (.delivered f 1 3 9) = true ∧ s.flitRuns (.refuse f 1 3 9 1) = true ∧ (s.flitTaken f).outOf 1 1 3 9 = none ∧
     (s.flitTaken f).cameFrom 1 1 3 9 = some 0) := by decide +kernel

/-- `lands` with a SIGNAL at the head of the sync unit of die 0, core 0, out to another package. -/
def spans : State :=
  (lands.setCore 0 { lands.core 0 with ctx := some 3 }).setEng 7 { lands.eng 7 with queue := [cmd 4 1 (3 * 2 ^ (15 + 128))], phase := .span }

theorem test_wit_LinkMessagesRun_spans :
    lands.flitRuns (.syncOp (flit 3) ⟨1, 0, 1, 0, 0, 9, 0⟩) = true ∧ lands.flitRuns (.syncResult (flit 3) 5 6 rReleased 0) = true ∧
    lands.flitRuns (.barrierRel (flit 3) 0 0 1) = true ∧ kindOf 1 = some .signal ∧ kindOf 9 = none ∧
    (let s := lands.flitTaken (flit 3)
     s.spanDest true 0 = .here 0 0 ∧ spanBarrier 0 = decide (SpanKind.signal = .arrive) ∧ timeoutOk 0 = true ∧ timeoutOk 0xC0 = false ∧
     s.spanDest true (3 * 2 ^ 15 + 2 ^ 22) = .peer 1 3 ∧ s.forwardLink 0 1 3 = some 1 ∧ s.spanDest true (2 * 2 ^ 15 + 2 ^ 22) = .peer 1 2 ∧
     s.forwardLink 0 1 2 = none ∧ s.spanDest true (2 ^ 28) = .bad ∧ s.spanMine (2 ^ 28) = true ∧
     s.spanDest true (9 * 2 ^ 15 + 2 ^ 22) = .bad ∧ s.spanMine (9 * 2 ^ 15 + 2 ^ 22) = false) ∧
    (let s := lands.flitTaken (flit 3)
     ((s.link 0).fwds.find? (fun x => x.waiter == 5 && x.span == 6)).isSome = true ∧
     (s.link 0).fwds.find? (fun x => x.waiter == 7 && x.span == 6) = none ∧ waiterIsEngine 7 = true ∧ s.headSpan 7 6 = false) ∧
    (let s := spans.flitTaken (flit 3)
     spans.flitRuns (.syncResult (flit 3) 7 (3 * 2 ^ 15) 0 0) = true ∧ s.headSpan 7 (3 * 2 ^ 15) = true) ∧
    (waiterIsService (waiterService 1) = true ∧ waiterService 1 % 4 ≠ 3 ∧ waiterIsService (waiterHub 1) = true ∧ waiterHub 1 % 4 = 3 ∧
     waiterIsService (2 ^ 23) = false ∧ waiterIsEngine (2 ^ 23) = false) ∧
    (let s := lands.setServ 1 { isOpen := true, waiting := true }
     ((s.flitTaken (flit 3)).serv (waiterTile (waiterService 1))).waiting = true) ∧
    ((lands.flitTaken (flit 3)).serv (waiterTile (waiterService 1))).waiting = false := by decide +kernel

theorem test_wit_LinkMessagesRun :
    lands.flitRuns (.planCtl (flit 3) 9 0) = true ∧ lands.flitRuns (.event (flit 3) { tick := 0, code := 0, unit := 0, prec := 0 }) = true ∧
    (let u : State := { lands.flitTaken (flit 3) with planReady := lands.planReady }
     u.ctxOfPlan 9 = some 3 ∧ u.ctxOfPlan 8 = none) := by decide +kernel

theorem test_wit_ClaimRows :
    up.unitUp (uPort (hdr []).port) = true ∧ lengthOk (hdr []) = true ∧ lengthOk { hdr [] with length := 65, size := 3 } = false ∧ (hdr []).magic = 0x5045 ∧
    { hdr [] with flags := 1 }.flags ≠ 0 ∧ claimGood (hdr []) = true ∧ (hdr []).bodyRsv = 0 ∧ up.maySign = true ∧ up.supplySoon = false ∧
    State.supplySoon { up with pending := [.inputFallsBelow36V 35000] } = true ∧
    State.helloWaits { up with pending := [.claimHello (hdr []) 0 true] } = true ∧ owned.helloWaits = false ∧
    State.maySign { up with claim := { up.claim with lastSign := some 0 } } = false ∧ owned.claim.cache = [] ∧
    { up with claim := { up.claim with offer := some ⟨1, 2, [], [], 0⟩ } }.claim.offer = some ⟨1, 2, [], [], 0⟩ ∧
    owned.allFree = true ∧ owned.qps = [] ∧ owned.admitPending = false ∧ (owned.cs SEQ_CTX_STATE.state 63 2).allFree = false ∧
    2 ^ 14 ≤ (owned.rs 0 CFG_IDKEY.next_leaf 20000).rg 0 CFG_IDKEY.next_leaf % 2 ^ 15 := by decide +kernel

theorem test_wit_ClaimRows_leaves : (up.rg 0 CFG_IDKEY.next_leaf + 1) % 2 ^ 15 ≠ 0 ∧
    ((up.rs 0 CFG_IDKEY.next_leaf 32767).rg 0 CFG_IDKEY.next_leaf + 1) % 2 ^ 15 = 0 ∧
    (up.rs 0 CFG_IDKEY.next_leaf (2 ^ 25 - 1)).rg 0 CFG_IDKEY.next_leaf + 1 = 2 ^ 25 ∧
    (up.rs 0 CFG_IDKEY.next_leaf (2 ^ 25 - 2 ^ 20)).rg 0 CFG_IDKEY.next_leaf + 1 = 2 ^ 25 - 2 ^ 20 + 1 := by decide +kernel

theorem test_wit_ClaimRows_claim :
    let s : State := { owned with claim := { owned.claim with offer := some ⟨1, 2, [], [], 0⟩, cache := [⟨3, { port := 1, ip := 0, udp := 0, type := 4, flags := 0, seq := 0, reqId := 7, code := 0, body := [] }⟩] } }
    (s.claim.cache.find? (fun e => s.claim.claimed && e.out.reqId == (hdr []).reqId && e.rtype == 3)).isSome = true ∧
    s.claimOk ⟨1, 2, [], [], 0⟩ 3 [] [] = false := by decide +kernel

theorem test_wit_ClaimRows_runs (nonce : Nat) (mram : Bool) : (∃ tag, owned.ecpRuns (.release (hdr tag)) = true) ∧
    (∃ tag, owned.ecpRuns (.query (hdr tag) 1 nonce mram) = true) ∧ (∃ tag, owned.ecpRuns (.query (hdr tag) 2 nonce mram) = true) :=
  ⟨wit_ecpRuns (fun t => .release (hdr t)) 0x05 (fun _ => []) (fun _ => rfl) (fun _ => rfl),
   wit_ecpRuns (fun t => .query (hdr t) 1 nonce mram) 0x10 (fun h => (le 1 1 ++ rsvBytes h 0 7 ++ le 32 nonce).take (h.length - 64))
     (fun _ => rfl) (fun _ => rfl),
   wit_ecpRuns (fun t => .query (hdr t) 2 nonce mram) 0x10 (fun h => (le 1 2 ++ rsvBytes h 0 7 ++ le 32 nonce).take (h.length - 64))
     (fun _ => rfl) (fun _ => rfl)⟩

theorem test_wit_ManagementRequestsRun_runs (a b c d e f g : Nat) (v : Word) (x : EccHits) :
    (∃ t, owned.ecpRuns (.regRead (hdr t) a b x) = true) ∧ (∃ t, owned.ecpRuns (.regWrite (hdr t) a v) = true) ∧
    (∃ t, owned.ecpRuns (.eventFilter (hdr t) a) = true) ∧ (∃ t, owned.ecpRuns (.tlbInv (hdr t) a b) = true) ∧
    (∃ t, owned.ecpRuns (.dmaResume (hdr t) a b c d) = true) ∧ (∃ t, owned.ecpRuns (.watch (hdr t) a b c d) = true) ∧
    (∃ t, owned.ecpRuns (.ecpSignal (hdr t) a b c) = true) ∧ (∃ t, owned.ecpRuns (.mrReg (hdr t) a b c d e f) = true) ∧
    (∃ t, owned.ecpRuns (.mrDereg (hdr t) a) = true) ∧ (∃ t, owned.ecpRuns (.qpOpen (hdr t) a b c d e f g) = true) ∧
    (∃ t, owned.ecpRuns (.qpClose (hdr t) a) = true) :=
  ⟨wit_ecpRuns (fun t => .regRead (hdr t) a b x) 0x12 (fun _ => le 8 a ++ le 1 b) (fun _ => rfl) (fun _ => rfl),
   wit_ecpRuns (fun t => .regWrite (hdr t) a v) 0x13 (fun _ => le 8 a ++ le 8 v.toNat) (fun _ => rfl) (fun _ => rfl),
   wit_ecpRuns (fun t => .eventFilter (hdr t) a) 0x18 (fun _ => le 2 a) (fun _ => rfl) (fun _ => rfl),
   wit_ecpRuns (fun t => .tlbInv (hdr t) a b) 0x26 (fun _ => le 1 a ++ le 1 b) (fun _ => rfl) (fun _ => rfl),
   wit_ecpRuns (fun t => .dmaResume (hdr t) a b c d) 0x27 (fun _ => le 1 a ++ le 1 b ++ le 1 c ++ le 1 d) (fun _ => rfl) (fun _ => rfl),
   wit_ecpRuns (fun t => .watch (hdr t) a b c d) 0x30 (fun _ => le 1 a ++ le 1 b ++ le 2 c ++ le 4 d) (fun _ => rfl) (fun _ => rfl),
   wit_ecpRuns (fun t => .ecpSignal (hdr t) a b c) 0x33 (fun h => le 1 a ++ rsvBytes h 0 3 ++ le 4 b ++ le 2 c) (fun _ => rfl)
     (fun _ => rfl),
   wit_ecpRuns (fun t => .mrReg (hdr t) a b c d e f) 0x50
     (fun h => le 1 a ++ le 1 b ++ le 1 c ++ le 1 d ++ rsvBytes h 0 4 ++ le 8 e ++ le 8 f) (fun _ => rfl) (fun _ => rfl),
   wit_ecpRuns (fun t => .mrDereg (hdr t) a) 0x52 (fun _ => le 4 a) (fun _ => rfl) (fun _ => rfl),
   wit_ecpRuns (fun t => .qpOpen (hdr t) a b c d e f g) 0x53
     (fun h => le 1 a ++ le 1 b ++ rsvBytes h 0 2 ++ le 4 c ++ le 16 d ++ le 4 e ++ le 4 f ++ le 4 g) (fun _ => rfl) (fun _ => rfl),
   wit_ecpRuns (fun t => .qpClose (hdr t) a) 0x55 (fun _ => le 4 a) (fun _ => rfl) (fun _ => rfl)⟩

theorem test_wit_ManagementRequestsRun :
    owned.accessYields (hdr []).seq = false ∧ owned.tlbCur = none ∧ 0 < owned.nTiles ∧ owned.dieUp 0 = true ∧ State.reset.dieUp 0 = false ∧
    { owned with tlbCur := some ⟨none, 3, false⟩ }.tlbHeld.length < 16 ∧
    16 ≤ { owned with tlbHeld := List.replicate 16 (⟨none, 3, false⟩ : TlbReq) }.tlbHeld.length ∧
    owned.cstate 3 = cFree ∧ serves.cstate 3 ≠ cFree ∧ (serves.resolve (serves.portTile 1) 3 0).2 = .here 0 0 ∧
    (serves.resolve (serves.portTile 1) 3 (2 ^ 28)).2 = .bad ∧ spanBarrier 0 = false ∧
    (let s : State := { serves with light := { serves.light with peers := [⟨0, 0, 2⟩] } }
     (s.resolve (s.portTile 1) 3 (2 * 2 ^ 15)).2 = .peer 0 2) ∧
    owned.mrCode 1 0 0 3 0 (2 ^ 16) 0 = 0 ∧ owned.mrCode 2 0 0 3 0 0 0 = 2 ∧ freeIndex owned.mrs = some 0 ∧
    owned.mrOf 0 = none ∧ owned.qpCode 0xFF 0 5 6 0 0 0 = 0 ∧ freeIndex owned.qps = some 0 ∧ mfind owned.qps 0 = none := by
  decide +kernel

theorem test_wit_ManagementRequestsRun_full :
    freeIndex ((List.range 512).map (fun i => (i, ()))) = none := by
  have held : ∀ (l : List Nat) (i : Nat), i ∈ l → (mfind (l.map (fun i => (i, ()))) i).isNone = false := by
    intro l
    induction l with
    | nil => intro i h; cases h
    | cons a l ih =>
      intro i h
      by_cases e : a = i
      · simp [mfind, e]
      · simpa [mfind, e] using ih i (by simpa [Ne.symm e] using h)
  refine List.find?_eq_none.mpr (fun i h => ?_)
  rw [held _ i h]
  exact Bool.false_ne_true

/-- A packet of queue pair 0 with a PSN, of one packet's data. -/
def packet (len psn : Nat) (icrcOk imm : Bool) : RocePkt := ⟨0, psn, icrcOk, false, 0, 0, len, true, true, imm, List.replicate len 7, {}⟩

/-- The part READY and claimed, with a registration of its first 64 KiB as rkey 0 and 1, and a queue pair on port 1. -/
def talks (q : Qp) : State :=
  { owned with
    mrs := [(0, ⟨1, 0, 0, 3, 0, 2 ^ 16, 0⟩), (1, ⟨1, 0, 0, 3, 0, 2 ^ 16, 0⟩)]
    qps := [(0, q)]
    tick := 10000 }

def pair9 : Qp := { ctx := 0xFF, port := 1, peerQpn := 5, peerIp := 6, psn := 9, rkey := 1, signal := 0 }

theorem test_wit_RdmaRows_checks :
    (let s := talks pair9
     let v := s.countFec 1 (packet 8 9 true false).rx
     s.yields (.rdmaWrite 1 (packet 8 9 true false)) = false ∧ s.yields (.send 1 (packet 8 9 true false)) = false ∧
     s.yields (.rdmaRead 1 (packet 8 9 true false) {}) = false ∧ s.unitUp (uPort 1) = true ∧ (mfind s.qps 0).isSome = true ∧
     v.rxHeld 1 (v.classOf 1 {}) + 8 ≤ rxBuffer (v.classOf 1 {})) ∧
    (let s : State := { talks pair9 with
       net := [{ path := [fromHost ((talks pair9).portTile 1)], a := 0, tile := 0, data := List.replicate 10 0, ctx := 64, host := some (0, 8, 0) }] }
     s.rxHeld 1 0 = 10 ∧ s.rxHeld 1 1 = 0) ∧
    (packet 8 9 true false).psn = 9 ∧ psnOld 9 8 = true ∧ psnOld 9 10 = false ∧ (packet 8 9 false false).icrcOk = false ∧
    (packet 8 9 true true).imm = true ∧ mfind owned.qps 0 = none ∧ { pair9 with err := true }.err = true ∧
    { pair9 with ops := [{ psn := 8, left := 4 }] }.ops.any (fun o => o.psn == 8) = true := by decide +kernel

theorem test_wit_RdmaRows :
    (let w := (talks pair9).countFec 1 {}
     writePlace pair9 (packet 8 9 true false) = some (0, 0, 8) ∧ writePlace { pair9 with cur := some (0, 4096, 8) } (packet 8 9 true false) = none ∧
     writePlace { pair9 with cur := some (0, 4096, 8192) } { packet 4096 9 true false with first := false, last := false } = some (0, 4096, 8192) ∧
     w.hostRuns 0 0 8 true = some [(0, 8)] ∧ (w.hostBytes 1 (0, 9, w.classOf 1 {}) (w.mrCtx 0) [(0, 8)] (List.replicate 8 7)).isSome = true ∧
     w.hostRuns 0 (2 ^ 16) 8 true = none ∧ w.hostRuns 0 0 8 false = some [(0, 8)] ∧
     (w.mrOf 1).bind w.mrRange = some (0, 2 ^ 16) ∧ (w.mrOf 2).bind w.mrRange = none ∧ w.hostRuns 1 (0 + 4096 * 0) 8 true = some [(0, 8)] ∧
     pair9.ops = [] ∧ pair9.cur = none ∧ pair9.rkey ≠ 0 ∧ pair9.outstanding 10000 < 16 ∧
     16 ≤ { pair9 with reads := List.replicate 16 20000 }.outstanding 10000) ∧
    (let s := talks { pair9 with ops := [{ psn := 9, left := 8, ack := true }] }
     (mfind s.qps 0).map (·.ops) = some [{ psn := 9, left := 8, ack := true }]) ∧
    ((talks pair9).unitUp (uPort 1) = true ∧ pair9.cnpAt = none ∧ pair9.rateAt + 5500 ≤ (talks pair9).tick ∧
     up.tick < pair9.rateAt + 5500) := by decide +kernel

theorem test_wit_EthernetRows :
    up.unitUp (uPort 1) = true ∧ up.rg (uPort 1) HPT_STATUS.link_up = 0 ∧
    (up.rs (uPort 1) HPT_STATUS.link_up 1).rg (uPort 1) HPT_STATUS.link_up = 1 ∧ (up.rs (uPort 1) HPT_STATUS.link_up 1).unitUp (uPort 1) = true ∧
    (up.rs (uPort 1) HPT_CFG.pfc_ecp 6).rg (uPort 1) HPT_CFG.pfc_ecp = 6 ∧ (up.rs (uPort 1) HPT_CFG.pfc_roce 3).rg (uPort 1) HPT_CFG.pfc_roce = 3 ∧
    (let v := up.countFec 1 {}; v.rxHeld 1 (v.classOf 1 {}) + 0 ≤ rxBuffer (v.classOf 1 {})) ∧
    (let r : RxFrame := { bytes := 2 ^ 21 }; rxBuffer ((up.countFec 1 r).classOf 1 r) < (up.countFec 1 r).rxHeld 1 ((up.countFec 1 r).classOf 1 r) + r.bytes) ∧
    (up.portCfg 1).ip4 = 0 ∧ (up.portCfg 1).ip6 = 0 ∧ State.reset.unitUp (uPort 1) = false := by decide +kernel

theorem test_wit_SupplyAndPowerRows :
    up.running = true ∧ up.boot.awake = true ∧ up.boot.high = true ∧ supplyBad 0x2001 36999 = true ∧ supplyBad 0x2001 37000 = false ∧
    up.yields (.supplyFault 0x2004 0) = false ∧ up.pwr.down = .up ∧ { up.pwr with down := .thermal }.down ≠ .up ∧
    up.tileSt 7 = 1 ∧ up.yields (.tileRailFault 7) = false ∧ State.reset.tileSt 7 ≠ 1 ∧ up.endedNow (uTile 7) = false ∧
    up.rg 0 CFG_BOOT.stage = 8 ∧ { up with tick := 1000 }.tick % 1000 = 0 ∧ { up.pwr with ovr := 2000 }.ovr = 2000 ∧
    (let s : State := { up with pwr := { up.pwr with cuts := [⟨0, 0x2020, 0, .release⟩] } }
     s.pwr.cuts = [⟨0, 0x2020, 0, .release⟩] ∧ s.dieUp 0 = true ∧ State.reset.dieUp 0 = false) ∧
    bitsOf (1 : Word).toNat 0 1 ≠ up.rg 0 PWR_MODE.mode ∧ up.allFree = true ∧ (up.cs SEQ_CTX_STATE.state 0 2).allFree = false ∧
    { up with pwr := { up.pwr with modeReq := some (1, 3, 0) } }.pwr.modeReq = some (1, 3, 0) := by decide +kernel

theorem test_wit_SupplyAndPowerRows_cap :
    (let s : State := { (up.rs 0 PWR_CAP.window 5).rs 0 PWR_CAP.cap_w 3000 with
       tick := 100000
       pwr := { up.pwr with samples := List.replicate 100 3000 } }
     let v : State := { s with pwr := { s.pwr with window := 5 } }
     s.yields .controlTick = false ∧ s.running = true ∧ s.tick % 100000 = 0 ∧ s.rg 0 PWR_CAP.window = 5 ∧
     (v.meanOf v.windowSamples).2 ≠ 0 ∧ s.rg 0 PWR_CAP.cap_w * (v.meanOf v.windowSamples).2 ≤ (v.meanOf v.windowSamples).1) ∧
    (let s : State := { (up.rs 0 PWR_CAP.window 5).rs 0 PWR_CAP.cap_w 3000 with
       tick := 100000
       pwr := { up.pwr with samples := List.replicate 100 2999, window := 5 } }
     (s.meanOf s.windowSamples).1 < s.rg 0 PWR_CAP.cap_w * (s.meanOf s.windowSamples).2) ∧
    (let v : State := { up with pwr := { up.pwr with samples := [], window := 5 } }; (v.meanOf v.windowSamples).2 = 0) := by decide +kernel

theorem test_wit_SupplyAndPowerRows_steps :
    (let s := { up.setDie 0 { up.die 0 with stepping := true, rise := true, switchAt := none } with tick := 30 }
     s.dieUp 0 = true ∧ (s.die 0).stepping = true ∧ (s.die 0).rise = true ∧ (s.die 0).switchAt = none) ∧
    (let s := { up.setDie 0 { up.die 0 with stepping := true, switchAt := some 10, holdTo := some 30 } with tick := 30 }
     (s.die 0).switchAt = some 10 ∧ 10 + 20 ≤ s.tick ∧ (s.die 0).holdTo = some 30 ∧ 30 ≤ s.tick) ∧
    (let s := { up.setDie 0 { up.die 0 with stepping := true, switchAt := some 10 } with tick := 29 }
     (s.die 0).reversed = false ∧ 10 ≤ s.tick ∧ s.tick < 10 + 20) ∧
    (up.core (coreKey 0 63)).stretched = false ∧
    ((up.setCore (coreKey 0 63) { up.core (coreKey 0 63) with stretched := true }).core (coreKey 0 63)).stretched = true := by
  decide +kernel

/-- The part with the record of tile 0's sensors changed. -/
def sensing (x : Sensors) : State := up.setSens 0 x

theorem test_wit_ThermalRows :
    up.running = true ∧ up.tileUp 0 = true ∧ (List.replicate 74 (100 : Int)).length = 74 ∧ up.tick % 1000 = 0 ∧
    (let s := sensing { (up.sens 0) with apart := [(73, 1000)], trip := [(73, 3)], hot := [(71, 1000)] }
     1000 ≤ mget (s.sens 0).apart 73 0 ∧ sensorBad (s.sens 0).faulty 73 = false ∧ 3 ≤ mget (s.sens 0).trip 73 0 ∧
     ((List.range 8).map (· + 64)).find? (fun i => mget (s.sens 0).hot i 0 ≥ 1000) = some 71 ∧
     s.rg (uTile 0) THM_STATUS.darkened = 0) ∧
    (let s := sensing { (up.sens 0) with hist := List.replicate 100 [] }; 100 ≤ (s.sens 0).hist.length ∧ rate40 (s.sens 0).hist 0 < 320) ∧
    (let s : State := { up with tick := 100000000 }
     s.yields (.reconciliation 5) = false ∧ s.tick % 100000000 = 0 ∧ s.tick ≠ 0) := by decide +kernel

theorem test_wit_ThermalRows_fast : 320 ≤ rate40 (List.replicate 40 [400] ++ List.replicate 60 [0]) 0 := by decide +kernel

/-- The part with its metering island in a state. -/
def meters (m : MetSt) : State := { up with met := m }

theorem test_wit_MeterIslandRows :
    up.met.running = false ∧ (meters { running := true }).met.running = true ∧ (meters { owed := true }).met.owed = true ∧
    (let m : MetSt := { running := true, seconds := 900, unpulsed := 360000, records := [(5, [1])] }
     360000 ≤ m.unpulsed ∧ m.closedAt + 900 ≤ m.seconds ∧ mfind m.records 5 = some [1] ∧ mfind m.records 6 = none ∧
     m.sealed = false ∧ (meters m).yields .intervalEnd = false ∧ m.leaves < 1048576) ∧
    (let m : MetSt := { testLeft := 3, testAt := 0 }; m.testLeft ≠ 0 ∧ m.testAt ≤ (meters m).tick) ∧
    up.boot.awake = true ∧ (meters { running := true, sealed := true }).met.sealed = true ∧ commandCrc 0x02 5 ≠ commandCrc 0x02 6 ∧
    commandCrc 0x1F 0x5EA15EA1 < 2 ^ 16 := by decide +kernel

theorem test_wit_MirrorIsReadOnlyAndGoesStale :
    addrUnit (0xF0 * 2 ^ 40 + 0xFFFFF) = 0xF0 ∧ 0xF0 * 2 ^ 40 + 0xFFFFF < 2 ^ 48 ∧ up.boot.awake = true ∧
    { up.boot with awake := false }.awake = false ∧
    owned.accessYields (hdr []).seq = false ∧
    (let s := { up.rs uMet MET_STATUS.present 1 with tick := 200000000 }
     s.rg uMet MET_STATUS.present = 1 ∧ s.mirror.at_ + 200000000 ≤ s.tick) := by decide +kernel

theorem test_wit_MirrorIsReadOnlyAndGoesStale_ecp (v : Word) :
    ∃ t, owned.ecpRuns (.regWrite (hdr t) (0xF0 * 2 ^ 40) v) = true :=
  wit_ecpRuns (fun t => .regWrite (hdr t) (0xF0 * 2 ^ 40) v) 0x13 (fun _ => le 8 (0xF0 * 2 ^ 40) ++ le 8 v.toNat) (fun _ => rfl)
    (fun _ => rfl)

theorem test_wit_RegisterAccess :
    addrUnit (0x10 * 2 ^ 40 + 4) = 0x10 ∧ (0x10 * 2 ^ 40 + 4) % 8 ≠ 0 ∧ State.reset.unitUp 0x17 = false ∧ up.unitUp 0x17 = true ∧
    up.regAt 0x10 0x38 = none ∧ up.windowWord 0x10 0x38 = none ∧ up.windowMem 0x10 0x38 = none ∧
    (up.regAt 0x17 0x80000).isSome = true ∧ 0x17 * 2 ^ 40 + 0x80000 < 2 ^ 48 ∧
    (up.regAt 0 0xB0000).isSome = true ∧ up.unitUp 0 = true ∧ up.regAt 0 0x200000 = none ∧ up.windowWord 0 0x200000 = some 0 ∧
    up.regAt 0x10 0x4000000000 = none ∧ up.windowWord 0x10 0x4000000000 = none ∧ up.windowMem 0x10 0x4000000000 = some 0 ∧
    0x10 * 2 ^ 40 + 0x4000000000 < 2 ^ 48 ∧ up.unitUp 0x10 = true := by decide +kernel

theorem test_wit_ManagementPins :
    up.boot.awake = true ∧ up.mgmt.dyn = none ∧ 0x50 = 0x50 + up.mgmt.strap ∧ up.yields .trstN = false ∧
    ({ up.mgmt with dyn := some 9 } : MgmtSt).dyn ≠ none ∧ (up.mgmtRead (0x10 * 2 ^ 40 + 0x38) {}).1 = none ∧
    (up.mgmtRead (0x17 * 2 ^ 40 + 0x80000) {}).1 = some 0 := by decide +kernel

end Sys2Proof.Tests
end

/-!
SUPPORT. Exact accumulation (R53 to R57, R65). A contribution is the merge of the accumulator with what the contribution does to an
empty one, and merging is commutative and associative, so that neither order nor split matters. A finite contribution is the floor of
its value counted in units of the window.
-/

namespace Sys2Proof.Machine

/-! ### Merging -/

theorem ExAcc.merge_comm (a b : ExAcc) : a.merge b = b.merge a := by
  simp [ExAcc.merge, Int.add_comm, Bool.or_comm]

theorem ExAcc.merge_assoc (a b c : ExAcc) : (a.merge b).merge c = a.merge (b.merge c) := by
  simp [ExAcc.merge, Int.add_assoc, Bool.or_assoc]

theorem ExAcc.merge_right_comm (a b c : ExAcc) : (a.merge b).merge c = (a.merge c).merge b := by
  rw [ExAcc.merge_assoc, ExAcc.merge_comm b, ← ExAcc.merge_assoc]

@[simp] theorem ExAcc.merge_empty (a : ExAcc) : a.merge {} = a := by
  simp [ExAcc.merge]

/-! ### A contribution in units of the window -/

/-- A finite magnitude `m * 2^e` truncated toward zero to whole units of weight `2^unit` (R53). -/
def truncUnits (unit : Int) (m : Nat) (e : Int) : Nat :=
  if e ≥ unit then m * 2 ^ (e - unit).toNat else m / 2 ^ (unit - e).toNat

/-- Whether that truncation discards a nonzero part (R53). -/
def truncLoses (unit : Int) (m : Nat) (e : Int) : Bool :=
  !(e ≥ unit) && m % 2 ^ (unit - e).toNat != 0

/-- The overflow state that a contribution of a sign sets (R54, R55). -/
def ExAcc.overflowed (a : ExAcc) (neg : Bool) : ExAcc :=
  if neg then { a with ovn := true } else { a with ovp := true }

/-- An accumulator with whole units added, and whether a part was lost. -/
def ExAcc.added (a : ExAcc) (neg : Bool) (k : Nat) (lost : Bool) : ExAcc :=
  { a with sum := a.sum + (if neg then -(k : Int) else (k : Int)), wuf := a.wuf || lost }

section
variable (unit : Int) (red : Bool) (a : ExAcc) (neg : Bool) (m : Nat) (e : Int)

theorem contribute_nan : contribute unit red a .nan = { a with nan := true } := rfl

theorem contribute_inf : contribute unit red a (.inf neg) = a.overflowed neg := rfl

theorem contribute_fin : contribute unit red a (.fin neg m e) =
    if truncUnits unit m e ≥ winLimit red then a.overflowed neg
    else a.added neg (truncUnits unit m e) (truncLoses unit m e) := rfl

theorem ExAcc.overflowed_eq_merge : a.overflowed neg = a.merge (ExAcc.overflowed {} neg) := by
  cases neg <;> simp [ExAcc.overflowed, ExAcc.merge]

theorem ExAcc.added_eq_merge (k : Nat) (lost : Bool) : a.added neg k lost = a.merge (ExAcc.added {} neg k lost) := by
  simp [ExAcc.added, ExAcc.merge]

end

/-! ### Order and split -/

/-- Adding a contribution is merging what it makes of an empty accumulator. -/
theorem contribute_eq_merge (unit : Int) (red : Bool) (a : ExAcc) (v : Num) :
    contribute unit red a v = a.merge (contribute unit red {} v) := by
  cases v with
  | nan => simp [contribute_nan, ExAcc.merge]
  | inf neg => exact a.overflowed_eq_merge neg
  | fin neg m e =>
    rw [contribute_fin, contribute_fin]
    split
    · exact a.overflowed_eq_merge neg
    · exact a.added_eq_merge neg _ _

theorem contribute_rightCommutative (unit : Int) (red : Bool) : RightCommutative (contribute unit red) where
  right_comm a v w := by
    calc contribute unit red (contribute unit red a v) w
      _ = (a.merge (contribute unit red {} v)).merge (contribute unit red {} w) := by
          rw [contribute_eq_merge _ _ (contribute _ _ a v), contribute_eq_merge _ _ a]
      _ = (a.merge (contribute unit red {} w)).merge (contribute unit red {} v) := ExAcc.merge_right_comm ..
      _ = contribute unit red (contribute unit red a w) v := by
          rw [contribute_eq_merge _ _ (contribute _ _ a w), contribute_eq_merge _ _ a]

/-- Adding a list of contributions is merging what the list makes of an empty accumulator. -/
theorem foldl_contribute_eq_merge (unit : Int) (red : Bool) (l : List Num) (a : ExAcc) :
    l.foldl (contribute unit red) a = a.merge (l.foldl (contribute unit red) {}) := by
  induction l generalizing a with
  | nil => simp
  | cons v l ih =>
    calc l.foldl (contribute unit red) (contribute unit red a v)
      _ = (a.merge (contribute unit red {} v)).merge (l.foldl (contribute unit red) {}) := by
          rw [ih, contribute_eq_merge _ _ a]
      _ = a.merge (l.foldl (contribute unit red) (contribute unit red {} v)) := by
          rw [ExAcc.merge_assoc, ← ih]

/-! ### Truncation is the floor in units -/

section
variable (unit : Int) (m : Nat) (e : Int)

/-- A magnitude counted in units, where its exponent lies below the unit. -/
theorem units_of_lt {unit e : Int} (h : e < unit) :
    (m : ℚ) * 2 ^ (e - unit) = (m : ℚ) / (2 ^ (unit - e).toNat : Nat) := by
  have he : e - unit = -((unit - e).toNat : Int) := by omega
  rw [he, zpow_neg, zpow_natCast, ← div_eq_mul_inv]
  push_cast; rfl

/-- A magnitude counted in units, where its exponent does not lie below the unit: a whole number. -/
theorem units_of_ge {unit e : Int} (h : e ≥ unit) :
    (m : ℚ) * 2 ^ (e - unit) = (m * 2 ^ (e - unit).toNat : Nat) := by
  have he : e - unit = ((e - unit).toNat : Int) := by omega
  conv_lhs => rw [he, zpow_natCast]
  push_cast; rfl

theorem truncUnits_eq_floor : truncUnits unit m e = ⌊(m : ℚ) * 2 ^ (e - unit)⌋₊ := by
  unfold truncUnits
  split
  case isTrue h => rw [units_of_ge m h, Nat.floor_natCast]
  case isFalse h => rw [units_of_lt m (not_le.mp h), Nat.floor_div_eq_div]

theorem truncLoses_iff : truncLoses unit m e = true ↔ (truncUnits unit m e : ℚ) ≠ (m : ℚ) * 2 ^ (e - unit) := by
  by_cases h : e ≥ unit
  · simp [truncLoses, truncUnits, h, units_of_ge m h]
  · have hd : ((2 ^ (unit - e).toNat : Nat) : ℚ) ≠ 0 := by positivity
    rw [units_of_lt m (not_le.mp h), Ne, eq_div_iff hd]
    norm_cast
    simp [truncLoses, truncUnits, h, ← Nat.dvd_iff_mod_eq_zero, Nat.dvd_iff_div_mul_eq]

/-- A magnitude is its count of units times the unit; through it each comparison below becomes one of counts. -/
theorem units_mul_unit : (m : ℚ) * 2 ^ e = (m : ℚ) * 2 ^ (e - unit) * 2 ^ unit := by
  rw [mul_assoc, ← zpow_add₀ (two_ne_zero' ℚ), sub_add_cancel]

theorem truncUnits_mul_le : (truncUnits unit m e : ℚ) * 2 ^ unit ≤ (m : ℚ) * 2 ^ e := by
  rw [units_mul_unit unit m e, truncUnits_eq_floor]
  gcongr
  exact Nat.floor_le (by positivity)

theorem lt_truncUnits_succ_mul : (m : ℚ) * 2 ^ e < ((truncUnits unit m e : ℚ) + 1) * 2 ^ unit := by
  rw [units_mul_unit unit m e, truncUnits_eq_floor]
  gcongr
  exact Nat.lt_floor_add_one _

theorem truncLoses_iff_mul_ne : truncLoses unit m e = true ↔ (truncUnits unit m e : ℚ) * 2 ^ unit ≠ (m : ℚ) * 2 ^ e := by
  rw [truncLoses_iff, units_mul_unit unit m e]
  exact (mul_left_inj' (zpow_ne_zero unit (two_ne_zero' ℚ))).not.symm

/-- Truncation does not carry a magnitude across a limit of whole units. -/
theorem le_truncUnits_iff (k : Nat) : k ≤ truncUnits unit m e ↔ (k : ℚ) * 2 ^ unit ≤ (m : ℚ) * 2 ^ e := by
  rw [units_mul_unit unit m e, truncUnits_eq_floor, Nat.le_floor_iff (by positivity)]
  exact (mul_le_mul_iff_left₀ (zpow_pos two_pos unit)).symm

end

/-- The limit of the full window is `2^(E_ref + 95)` (R52, R54). -/
theorem winLimit_mul_winUnit_full (eref : Int) : ((winLimit false : Nat) : ℚ) * 2 ^ winUnit eref false = 2 ^ (eref + 95) := by
  have he : eref + 95 = ((191 : Nat) : Int) + (eref - 96) := by omega
  rw [he, zpow_add₀ two_ne_zero, zpow_natCast]
  norm_num [winLimit, winUnit]

/-! ### The statements -/

/-- Settles O23: a contribution is a merge, and merging is commutative and associative. -/
theorem exactSumIsOrderFree : Obligations.ExactSumIsOrderFree := by
  unfold Obligations.ExactSumIsOrderFree
  refine ⟨fun unit red a l l' hp => ?_, fun unit red l l' => ?_⟩
  · exact hp.foldl_eq (rcomm := contribute_rightCommutative unit red) a
  · rw [List.foldl_append, foldl_contribute_eq_merge]

/-- Settles O24: the units added are the floor of the magnitude counted in units, which reaches the limit of `2^191` units just where
the magnitude reaches `2^(E_ref + 95)`. -/
theorem contributionsInTheFullWindow : Obligations.ContributionsInTheFullWindow := by
  unfold Obligations.ContributionsInTheFullWindow
  intro eref a neg m e big
  have hbig : truncUnits (winUnit eref false) m e ≥ winLimit false ↔ big := by
    rw [ge_iff_le, le_truncUnits_iff, winLimit_mul_winUnit_full]
  refine ⟨fun h => ⟨truncUnits (winUnit eref false) m e, truncLoses (winUnit eref false) m e, truncUnits_mul_le ..,
    lt_truncUnits_succ_mul .., truncLoses_iff_mul_ne .., ?_⟩, fun h => ?_⟩
  · rw [contribute_fin, if_neg (mt hbig.mp h)]; rfl
  · rw [contribute_fin, if_pos (hbig.mpr h)]; rfl

end Sys2Proof.Machine

/-!
SUPPORT. The places of register fields, and what decides who acts as primary (R152): which places a field read sees, which tile acts,
and what the shared operations of the sequencer leave unchanged.
-/

namespace Sys2Proof.Machine

/-! ### Places -/

/-- Within a unit's 2^40 bytes two fields share a place only where unit, offset and lowest bit agree. -/
theorem regKey_eq_iff {u v d e : Nat} {f g : Fld} (hf : f.off + d < 2 ^ 40) (hg : g.off + e < 2 ^ 40) (hfl : f.lo < 64)
    (hgl : g.lo < 64) : regKey u f d = regKey v g e ↔ u = v ∧ f.off + d = g.off + e ∧ f.lo = g.lo := by
  unfold regKey; omega

theorem State.rg_hw (s : State) (u v d d' x n : Nat) (f g : Fld) :
    (s.hw u f x n d).rg v g d' = if regKey v g d' = regKey u f d then x % 2 ^ f.w else s.rg v g d' := by
  unfold State.hw State.rg
  by_cases h : regKey v g d' = regKey u f d
  · simp only [h, mget_mput_same, if_true]
  · simp only [mget_mput_other _ _ _ _ _ h, if_neg h]

theorem State.rg_rinc_other (s : State) (u v d d' n : Nat) (f g : Fld) (h : regKey v g d' ≠ regKey u f d) :
    (s.rinc u f n d).rg v g d' = s.rg v g d' := by
  simp [State.rinc, State.rg_hw, h]

theorem State.rg_rmax_other (s : State) (u v d d' n : Nat) (f g : Fld) (h : regKey v g d' ≠ regKey u f d) :
    (s.rmax u f n d).rg v g d' = s.rg v g d' := by
  simp [State.rmax, State.rg_hw, h]

theorem satAdd_mod (f : Fld) (a b : Nat) : satAdd f a b % 2 ^ f.w = satAdd f a b := by
  have := Nat.two_pow_pos f.w
  exact Nat.mod_eq_of_lt (by unfold satAdd; omega)

@[simp] theorem State.rg_rinc_same (s : State) (u n d : Nat) (f : Fld) : (s.rinc u f n d).rg u f d = satAdd f (s.rg u f d) n := by
  simp [State.rinc, State.rg_hw, satAdd_mod]

theorem State.rg_of_regs {s t : State} (h : t.regs = s.regs) (u : Nat) (f : Fld) (d : Nat) : t.rg u f d = s.rg u f d := by
  simp [State.rg, h]

theorem State.rg_of_place (s : State) {u v d e : Nat} {f g : Fld} (h : regKey u f d = regKey v g e) (hr : f.rst = g.rst) :
    s.rg u f d = s.rg v g e := by
  simp only [State.rg, h, hr]

/-- What each step of a run over a list keeps, the whole run keeps. -/
theorem State.each_keeps {α β : Type} (p : State → β) {f : State → α → State} {l : List α} (hf : ∀ s, ∀ x ∈ l, p (f s x) = p s)
    (s : State) : p (s.each l f) = p s :=
  List.foldlRecOn (motive := fun t => p t = p s) l f rfl (fun t h x hx => (hf t x hx).trans h)

/-! ### Who acts -/

theorem State.acting_eq_some_iff (s : State) (t : Nat) : s.acting = some t ↔
    (s.tileUp t = true ∧ s.rg (uTile t) SEQ_ROLE.lease_held = 1 ∧ s.tick < (s.seq t).ownExp) ∧
    ∀ j < t, ¬ (s.tileUp j = true ∧ s.rg (uTile j) SEQ_ROLE.lease_held = 1 ∧ s.tick < (s.seq j).ownExp) := by
  have h : s.tileUp t = true → t < s.nTiles := by simp +contextual [State.tileUp]
  simp only [State.acting, List.find?_range_eq_some, List.mem_range, Bool.and_eq_true, beq_iff_eq, decide_eq_true_eq, and_assoc,
    Bool.not_eq_true', Bool.and_eq_false_iff, beq_eq_false_iff_ne, decide_eq_false_iff_not]
  grind

theorem State.acting_congr {s t : State} (hfuses : t.fuses = s.fuses) (htick : t.tick = s.tick) (hseqs : t.seqs = s.seqs)
    (hst : ∀ j < s.nTiles, t.tileSt j = s.tileSt j)
    (hheld : ∀ j < s.nTiles, t.rg (uTile j) SEQ_ROLE.lease_held = s.rg (uTile j) SEQ_ROLE.lease_held) : t.acting = s.acting := by
  have hn : t.nTiles = s.nTiles := by simp only [State.nTiles, hfuses]
  unfold State.acting
  rw [hn]
  refine List.find?_congr (fun j hj => ?_)
  have hj := List.mem_range.mp hj
  have hup : t.tileUp j = s.tileUp j := by simp only [State.tileUp, hn, hst j hj]
  have hseq : t.seq j = s.seq j := by simp only [State.seq, hseqs]
  rw [hup, hheld j hj, htick, hseq]

theorem State.floorTick_of_acting {s : State} {t : Nat} (h : s.acting = some t) : s.floorTick = (s.seq t).notBefore := by
  simp only [State.floorTick, h]

/-! ### What the sequencer's shared operations leave -/

/-- A copy record writes the copy number of its sender and no other register (R159). -/
theorem State.rg_sendCopy (s : State) (k : CopyKind) (cs : List Nat) (u : Nat) (f : Fld) (d : Nat)
    (h : ∀ t, regKey u f d ≠ regKey (uTile t) SEQ_BEACON.copy_seq 0) : (s.sendCopy k cs).rg u f d = s.rg u f d := by
  unfold State.sendCopy
  split
  · exact State.rg_rs_other _ _ _ _ _ _ _ _ (h _)
  · rfl

/-- No SEQ_CTX register shares a place with a copy number. -/
theorem ctxPlace_ne_copySeq (f : Fld) (c t : Nat) (hf : f.off / 2 ^ 12 = 0x21) (hl : f.lo < 64) (hc : c < 64) :
    regKey seqHome f (dCtx c) ≠ regKey (uTile t) SEQ_BEACON.copy_seq 0 := by
  rw [Ne, regKey_eq_iff (by unfold dCtx; omega) (by decide) hl (by decide)]
  simp only [SEQ_BEACON.copy_seq]
  omega

theorem State.cg_sendCopy (s : State) (k : CopyKind) (cs : List Nat) (f : Fld) (c : Nat) (hf : f.off / 2 ^ 12 = 0x21) (hl : f.lo < 64)
    (hc : c < 64) : (s.sendCopy k cs).cg f c = s.cg f c :=
  s.rg_sendCopy k cs _ f _ (fun t => ctxPlace_ne_copySeq f c t hf hl hc)

theorem State.cstate_setCstate (s : State) (c v : Nat) (hc : c < 64) : (s.setCstate c v).cstate c = v % 2 ^ 3 := by
  unfold State.setCstate State.cstate
  rw [State.cg_sendCopy _ _ _ _ _ (by decide) (by decide) hc]
  exact State.rg_rs_same ..

theorem State.regs_issueStart (s : State) (c t : Nat) : (s.issueStart c t).regs = (s.cs SEQ_CTX_START.start c t).regs :=
  State.each_keeps State.regs (f := fun s i => s.setSeq i { s.seq i with accepted := mput (s.seq i).accepted c t }) (fun _ _ _ => rfl) _

end Sys2Proof.Machine

/-!
SUPPORT. The next start of a context (R128, R138): what a cycle that was done leaves, and the tick and slip that follow.
-/

namespace Sys2Proof.Machine

/-! ### The smallest start -/

/-- With no tick before which it may not start, the next start is the smallest that R128 allows. -/
theorem nextStart_isLeast (e d : Nat) :
    e ≤ nextStart e d 0 ∧ d + 16 ≤ nextStart e d 0 ∧ (nextStart e d 0 - e) % 16 = 0 ∧
    ∀ x, e ≤ x → d + 16 ≤ x → (x - e) % 16 = 0 → nextStart e d 0 ≤ x := by
  have h : nextStart e d 0 = e + (d + 16 - e + 15) / 16 * 16 := by simp [nextStart, align16, cdiv]
  rw [h]
  refine ⟨?_, ?_, ?_, fun x => ?_⟩ <;> omega

theorem nextStart_lt (e d : Nat) : nextStart e d 0 < e + d + 32 := by
  simp only [nextStart, align16, cdiv, Nat.zero_sub, Nat.max_def]
  split <;> omega

/-! ### Overruns -/

theorem State.rg_noteOverrun (s : State) (c u : Nat) (f : Fld) (d : Nat)
    (h1 : regKey u f d ≠ regKey seqHome SEQ_CTX_OVERRUN.flows (dCtx c))
    (h2 : regKey u f d ≠ regKey seqHome SEQ_CTX_OVERRUN.max_tk (dCtx c)) : (s.noteOverrun c).rg u f d = s.rg u f d := by
  unfold State.noteOverrun
  split
  · rfl
  · rw [State.rg_of_regs (State.regs_raise ..), State.rg_rmax_other _ _ _ _ _ _ _ _ h2, State.rg_rinc_other _ _ _ _ _ _ _ _ h1]

/-- The overruns of a cycle are added to the count of SEQ_CTX_OVERRUN (R138). -/
theorem State.cg_flows_noteOverrun (s : State) (c : Nat) (h : s.overruns c ≠ []) :
    (s.noteOverrun c).cg SEQ_CTX_OVERRUN.flows c = satAdd SEQ_CTX_OVERRUN.flows (s.cg SEQ_CTX_OVERRUN.flows c) (s.overruns c).length := by
  unfold State.noteOverrun State.cg
  split
  case h_1 h0 => exact absurd h0 h
  case h_2 =>
    rw [State.rg_of_regs (State.regs_raise ..), State.rg_rmax_other _ _ _ _ _ _ _ _ (by rw [Ne, regKey_same]; decide)]
    exact State.rg_rinc_same ..

@[simp] theorem State.fuses_noteOverrun (s : State) (c : Nat) : (s.noteOverrun c).fuses = s.fuses := by
  unfold State.noteOverrun; split <;> simp
@[simp] theorem State.tick_noteOverrun (s : State) (c : Nat) : (s.noteOverrun c).tick = s.tick := by
  unfold State.noteOverrun; split <;> simp
@[simp] theorem State.seqs_noteOverrun (s : State) (c : Nat) : (s.noteOverrun c).seqs = s.seqs := by
  unfold State.noteOverrun; split <;> simp

/-! ### A cycle that was done -/

/-- A context's cycle done and counted, before the next start is fixed. -/
def State.cycleCounted (s : State) (c : Nat) : State :=
  let v := (s.noteOverrun c).markEnd (oCycle c)
  (v.cs SEQ_CTX_STATE.cycles c (v.cg SEQ_CTX_STATE.cycles c + 1)).setCtx c { s.ctx c with started := false, doneAt := none }

@[simp] theorem State.fuses_cycleCounted (s : State) (c : Nat) : (s.cycleCounted c).fuses = s.fuses := s.fuses_noteOverrun c
@[simp] theorem State.tick_cycleCounted (s : State) (c : Nat) : (s.cycleCounted c).tick = s.tick := s.tick_noteOverrun c
@[simp] theorem State.seqs_cycleCounted (s : State) (c : Nat) : (s.cycleCounted c).seqs = s.seqs := s.seqs_noteOverrun c
@[simp] theorem State.nTiles_cycleCounted (s : State) (c : Nat) : (s.cycleCounted c).nTiles = s.nTiles :=
  congrArg Fuses.tiles (s.fuses_cycleCounted c)
@[simp] theorem State.seq_cycleCounted (s : State) (c t : Nat) : (s.cycleCounted c).seq t = s.seq t := by
  simp only [State.seq, s.seqs_cycleCounted c]
@[simp] theorem State.plan_cycleCounted (s : State) (c : Nat) : ((s.cycleCounted c).ctx c).plan = (s.ctx c).plan := by
  simp [State.cycleCounted]

theorem State.rg_cycleCounted (s : State) (c u : Nat) (f : Fld) (d : Nat)
    (h : regKey u f d ≠ regKey seqHome SEQ_CTX_STATE.cycles (dCtx c)) : (s.cycleCounted c).rg u f d = (s.noteOverrun c).rg u f d :=
  State.rg_rs_other _ _ _ _ _ _ _ _ h

/-- The other SEQ_CTX registers of the context stay. -/
theorem State.cg_cycleCounted (s : State) (c : Nat) (f : Fld) (h : f.off * 64 + f.lo ≠ 0x21000 * 64 + 16)
    (h1 : f.off * 64 + f.lo ≠ 0x21018 * 64) (h2 : f.off * 64 + f.lo ≠ 0x21018 * 64 + 32) : (s.cycleCounted c).cg f c = s.cg f c := by
  unfold State.cg
  rw [State.rg_cycleCounted _ _ _ _ _ (by rw [Ne, regKey_same]; exact h),
    State.rg_noteOverrun _ _ _ _ _ (by rw [Ne, regKey_same]; exact h1) (by rw [Ne, regKey_same]; exact h2)]

theorem State.cg_cycles_noteOverrun (s : State) (c : Nat) : (s.noteOverrun c).cg SEQ_CTX_STATE.cycles c = s.cg SEQ_CTX_STATE.cycles c :=
  State.rg_noteOverrun _ _ _ _ _ (by rw [Ne, regKey_same]; decide) (by rw [Ne, regKey_same]; decide)

theorem State.endCycle_of_running (s : State) (c d : Nat) (hst : s.cstate c = cRunning)
    (hn : (s.ctx c).plan.cycles = 0 ∨ s.cg SEQ_CTX_STATE.cycles c + 1 < (s.ctx c).plan.cycles) :
    s.endCycle c d = (s.cycleCounted c).scheduleNext c d := by
  have hcyc : ¬ ((s.ctx c).plan.cycles ≠ 0 ∧ (s.noteOverrun c).cg SEQ_CTX_STATE.cycles c + 1 ≥ (s.ctx c).plan.cycles) := by
    rw [State.cg_cycles_noteOverrun]; omega
  have hrun : (s.cycleCounted c).cstate c ≠ cStopping := by
    have : (s.cycleCounted c).cstate c = s.cstate c := s.cg_cycleCounted c _ (by decide) (by decide) (by decide)
    rw [this, hst]; decide
  exact (if_neg hcyc).trans (if_neg hrun)

/-- CYCLE_DONE of a RUNNING context that goes on, under a sequencer that holds the lease (R127, R128). -/
theorem exec_cycleDone_of_running (s : State) (c : Nat) (hy : s.yields (.cycleDone c) = false) (hact : s.acting.isSome = true)
    (hstart : (s.ctx c).started = true) (hover : s.cycleOver c = true) (hst : s.cstate c = cRunning)
    (hn : (s.ctx c).plan.cycles = 0 ∨ s.cg SEQ_CTX_STATE.cycles c + 1 < (s.ctx c).plan.cycles) :
    exec (.cycleDone c) s = .next ((s.cycleCounted c).scheduleNext c ((s.ctx c).doneAt.getD s.tick)) := by
  rw [← s.endCycle_of_running c _ hst hn]
  show execCycleDone c s = _
  simp [execCycleDone, State.inTurn, hy, hstart, hover, hst, hact, ok]

/-! ### The start that follows -/

theorem State.cg_start_scheduleNext (s : State) (c d : Nat) : (s.scheduleNext c d).cg SEQ_CTX_START.start c =
    nextStart (s.cg SEQ_CTX_START.start c + (s.ctx c).plan.period) d s.floorTick % 2 ^ 64 := by
  unfold State.scheduleNext State.cg
  rw [State.rg_of_regs (State.regs_issueStart ..)]
  exact State.rg_rs_same ..

/-- The slip grows by the distance of the start from the planned end, where there is one. -/
theorem State.cg_slip_scheduleNext (s : State) (c d e t : Nat) (hc : c < 64)
    (he : e = s.cg SEQ_CTX_START.start c + (s.ctx c).plan.period) (ht : t = nextStart e d s.floorTick) :
    (s.scheduleNext c d).cg SEQ_CTX_SLIP.slip_tk c =
      if t > e then satAdd SEQ_CTX_SLIP.slip_tk (s.cg SEQ_CTX_SLIP.slip_tk c) (t - e) else s.cg SEQ_CTX_SLIP.slip_tk c := by
  subst ht he
  unfold State.scheduleNext State.cg
  rw [State.rg_of_regs (State.regs_issueStart ..)]
  refine (State.rg_rs_other _ _ _ _ _ _ _ _ (by rw [Ne, regKey_same]; decide)).trans ?_
  refine (State.cg_sendCopy _ _ _ _ _ (by decide) (by decide) hc).trans ?_
  refine (State.rg_rs_other _ _ _ _ _ _ _ _ (by rw [Ne, regKey_same]; decide)).trans ?_
  split
  · rw [State.rg_of_regs (State.regs_raise ..), State.rg_rinc_other _ _ _ _ _ _ _ _ (by rw [Ne, regKey_same]; decide)]
    exact State.rg_rinc_same ..
  · rfl

/-! ### On every variant of the part -/

/-- With no more tiles than the largest variant has (R14), counting a cycle does not change who acts. -/
theorem State.acting_cycleCounted (s : State) (c : Nat) (hc : c < 64) (hn : s.nTiles ≤ 8) : (s.cycleCounted c).acting = s.acting := by
  have keep (u d : Nat) (f : Fld) (hu : u ≠ seqHome) (hd : f.off + d < 2 ^ 40) (hl : f.lo < 64) :
      (s.cycleCounted c).rg u f d = s.rg u f d := by
    have ne (g : Fld) (hg : g.off + dCtx c < 2 ^ 40) (hgl : g.lo < 64) : regKey u f d ≠ regKey seqHome g (dCtx c) := by
      rw [Ne, regKey_eq_iff hd hg hl hgl]; exact fun h => hu h.1
    rw [State.rg_cycleCounted _ _ _ _ _ (ne _ (by simp only [SEQ_CTX_STATE.cycles, dCtx]; omega) (by decide)),
      State.rg_noteOverrun _ _ _ _ _ (ne _ (by simp only [SEQ_CTX_OVERRUN.flows, dCtx]; omega) (by decide))
        (ne _ (by simp only [SEQ_CTX_OVERRUN.max_tk, dCtx]; omega) (by decide))]
  refine State.acting_congr (s.fuses_cycleCounted c) (s.tick_cycleCounted c) (s.seqs_cycleCounted c) (fun j hj => ?_) (fun j hj => ?_)
  · exact keep _ _ _ (by decide) (by simp only [EVT_FENCE.tile]; omega) (by decide)
  · exact keep _ _ _ (by unfold uTile seqHome; omega) (by decide) (by decide)

/-- With no more tiles than the largest variant has (R14), the next start is the smallest tick that R128 allows, and the slip grows by its
distance from the planned end. -/
theorem cycleDone_fixes_smallest_start (ctx tile d : Nat) (s : State) (hn : s.nTiles ≤ 8) (hc : ctx < 64)
    (hy : s.yields (.cycleDone ctx) = false) (hact : s.acting = some tile) (hnb : (s.seq tile).notBefore = 0)
    (hstart : (s.ctx ctx).started = true) (hover : s.cycleOver ctx = true) (hst : s.cstate ctx = cRunning)
    (hd : d = (s.ctx ctx).doneAt.getD s.tick)
    (hcyc : (s.ctx ctx).plan.cycles = 0 ∨ s.cg SEQ_CTX_STATE.cycles ctx + 1 < (s.ctx ctx).plan.cycles)
    (hb : s.cg SEQ_CTX_START.start ctx + (s.ctx ctx).plan.period + d + 32 < 2 ^ 64) : ∃ t start,
      exec (.cycleDone ctx) s = .next t ∧ t.cg SEQ_CTX_START.start ctx = start ∧
      s.cg SEQ_CTX_START.start ctx + (s.ctx ctx).plan.period ≤ start ∧ d + 16 ≤ start ∧
      (start - (s.cg SEQ_CTX_START.start ctx + (s.ctx ctx).plan.period)) % 16 = 0 ∧
      (∀ x, s.cg SEQ_CTX_START.start ctx + (s.ctx ctx).plan.period ≤ x → d + 16 ≤ x →
        (x - (s.cg SEQ_CTX_START.start ctx + (s.ctx ctx).plan.period)) % 16 = 0 → start ≤ x) ∧
      (s.cg SEQ_CTX_SLIP.slip_tk ctx < 2 ^ SEQ_CTX_SLIP.slip_tk.w → t.cg SEQ_CTX_SLIP.slip_tk ctx =
        min (s.cg SEQ_CTX_SLIP.slip_tk ctx + (start - (s.cg SEQ_CTX_START.start ctx + (s.ctx ctx).plan.period)))
          (2 ^ SEQ_CTX_SLIP.slip_tk.w - 1)) := by
  have hfloor : (s.cycleCounted ctx).floorTick = 0 := by
    rw [State.floorTick_of_acting ((s.acting_cycleCounted ctx hc hn).trans hact), State.seq_cycleCounted, hnb]
  have hs0 : (s.cycleCounted ctx).cg SEQ_CTX_START.start ctx = s.cg SEQ_CTX_START.start ctx :=
    s.cg_cycleCounted ctx _ (by decide) (by decide) (by decide)
  have hslip : (s.cycleCounted ctx).cg SEQ_CTX_SLIP.slip_tk ctx = s.cg SEQ_CTX_SLIP.slip_tk ctx :=
    s.cg_cycleCounted ctx _ (by decide) (by decide) (by decide)
  have hexec := exec_cycleDone_of_running s ctx hy (by rw [hact]; rfl) hstart hover hst hcyc
  rw [← hd] at hexec
  have ht := (s.cycleCounted ctx).cg_start_scheduleNext ctx d
  have hg := (s.cycleCounted ctx).cg_slip_scheduleNext ctx d _ _ hc rfl rfl
  rw [hs0, s.plan_cycleCounted ctx, hfloor] at ht hg
  rw [hslip] at hg
  generalize s.cg SEQ_CTX_START.start ctx + (s.ctx ctx).plan.period = e at *
  obtain ⟨h1, h2, h3, h4⟩ := nextStart_isLeast e d
  have hlt := nextStart_lt e d
  refine ⟨_, nextStart e d 0, hexec, by rw [ht, Nat.mod_eq_of_lt (by omega)], h1, h2, h3, h4, fun hw => ?_⟩
  rw [hg]
  split
  · rfl
  · rw [Nat.sub_eq_zero_of_le (by omega)]; omega

/-! ### On a part with more tiles than places -/

/-- The number whose presence field would share its place with the overrun count of context 0. -/
def flowsTile : Nat := 28 * 2 ^ 40 - 65029

theorem flowsTile_place : regKey 0 EVT_FENCE.tile (8 * flowsTile) = regKey seqHome SEQ_CTX_OVERRUN.flows (dCtx 0) := by decide

/-- A state with that many tiles. The last two are present and hold a lease, the first of them with the count of one overrun as its
presence; the second may issue no start before tick 1,000. Context 0 runs, its one flow done at tick 1, after its limit of tick 0. -/
def overrunAliased : State :=
  let s : State := {
    tick := 1
    fuses := { tiles := flowsTile + 2 }
    seqs := [(flowsTile, { ownExp := 100 }), (flowsTile + 1, { ownExp := 100, notBefore := 1000 })]
    ctxs := [(0, { started := true, flows := [⟨0, 0, some 1⟩], plan := { period := 16, flows := [⟨0, false, 0, 0, 0⟩] } })] }
  ((((s.rs 0 EVT_FENCE.tile 1 (8 * flowsTile)).rs 0 EVT_FENCE.tile 1 (8 * (flowsTile + 1))).rs (uTile flowsTile) SEQ_ROLE.lease_held 1).rs
    (uTile (flowsTile + 1)) SEQ_ROLE.lease_held 1).cs SEQ_CTX_STATE.state 0 cRunning

theorem overrunAliased_nTiles : overrunAliased.nTiles = flowsTile + 2 := rfl

/-- Only those two hold anything of a lease. -/
theorem overrunAliased_seq {j : Nat} (h : j < flowsTile) : overrunAliased.seq j = {} := by
  have h1 : flowsTile ≠ j := by omega
  have h2 : flowsTile + 1 ≠ j := by omega
  show mget [(flowsTile, _), (flowsTile + 1, _)] j _ = _
  simp [mget, mfind, h1, h2]

theorem overrunAliased_acting : overrunAliased.acting = some flowsTile := by
  rw [State.acting_eq_some_iff]
  refine ⟨by decide +kernel, fun j hj => ?_⟩
  rw [overrunAliased_seq hj]
  simp

theorem overrunAliased_rg_cycleCounted (u d : Nat) (f : Fld) (h : regKey u f d ≠ regKey seqHome SEQ_CTX_STATE.cycles (dCtx 0))
    (h1 : regKey u f d ≠ regKey seqHome SEQ_CTX_OVERRUN.flows (dCtx 0))
    (h2 : regKey u f d ≠ regKey seqHome SEQ_CTX_OVERRUN.max_tk (dCtx 0)) :
    (overrunAliased.cycleCounted 0).rg u f d = overrunAliased.rg u f d := by
  rw [State.rg_cycleCounted _ _ _ _ _ h, State.rg_noteOverrun _ _ _ _ _ h1 h2]

/-- The second overrun takes the acting tile's presence away. -/
theorem overrunAliased_tileSt_cycleCounted : (overrunAliased.cycleCounted 0).tileSt flowsTile = 2 := by
  have ho : overrunAliased.overruns 0 = [1] := by decide +kernel
  have hc : overrunAliased.cg SEQ_CTX_OVERRUN.flows 0 = 1 := by decide +kernel
  have hf : (overrunAliased.noteOverrun 0).cg SEQ_CTX_OVERRUN.flows 0 = 2 := by
    rw [State.cg_flows_noteOverrun _ _ (by rw [ho]; decide), ho, hc]; decide
  rw [State.tileSt, State.rg_cycleCounted _ _ _ _ _ (by decide), State.rg_of_place _ flowsTile_place rfl]
  exact hf

theorem overrunAliased_acting_cycleCounted : (overrunAliased.cycleCounted 0).acting = some (flowsTile + 1) := by
  have hst : (overrunAliased.cycleCounted 0).tileSt (flowsTile + 1) = 1 := by
    rw [State.tileSt, overrunAliased_rg_cycleCounted _ _ _ (by decide) (by decide) (by decide)]
    decide +kernel
  have hheld : (overrunAliased.cycleCounted 0).rg (uTile (flowsTile + 1)) SEQ_ROLE.lease_held = 1 := by
    rw [overrunAliased_rg_cycleCounted _ _ _ (by decide) (by decide) (by decide)]
    decide +kernel
  rw [State.acting_eq_some_iff]
  simp only [State.tick_cycleCounted, State.seq_cycleCounted, State.tileUp, State.nTiles_cycleCounted]
  refine ⟨⟨by rw [hst, overrunAliased_nTiles]; simp, hheld, by decide +kernel⟩, fun j hj => ?_⟩
  rcases Nat.lt_succ_iff_lt_or_eq.mp hj with h | rfl
  · rw [overrunAliased_seq h]
    simp
  · rw [overrunAliased_tileSt_cycleCounted]
    simp

/-- Refutes O36. Nothing bounds the tiles of a state: of `overrunAliased` the overrun that CYCLE_DONE counts is the presence of the acting
tile, so that another tile fixes the next start, which it puts off to its own first tick (R165): 1,008, though R128 allows 32. With the
tiles of a variant the statement holds (`cycleDone_fixes_smallest_start`). -/
theorem not_nextStartIsTheSmallestTick : ¬ Obligations.NextStartIsTheSmallestTick := by
  unfold Obligations.NextStartIsTheSmallestTick
  intro h
  obtain ⟨t, start, hexec, hstart, -, -, -, hleast, -⟩ := h 0 flowsTile 1 overrunAliased (by decide) (by decide +kernel)
    overrunAliased_acting (by decide +kernel) (by decide +kernel) (by decide +kernel) (by decide +kernel) (by decide +kernel)
    (.inl (by decide +kernel)) (by decide +kernel)
  have hrun := exec_cycleDone_of_running overrunAliased 0 (by decide +kernel) (by rw [overrunAliased_acting]; rfl) (by decide +kernel)
    (by decide +kernel) (by decide +kernel) (.inl (by decide +kernel))
  rw [hrun] at hexec
  obtain rfl := Host.Outcome.next.inj hexec
  have hfloor : (overrunAliased.cycleCounted 0).floorTick = 1000 := by
    rw [State.floorTick_of_acting overrunAliased_acting_cycleCounted, State.seq_cycleCounted]
    decide +kernel
  rw [State.cg_start_scheduleNext, hfloor, State.plan_cycleCounted,
    State.cg_cycleCounted _ _ _ (by decide) (by decide) (by decide)] at hstart
  have h32 : start ≤ 32 := hleast 32 (by decide +kernel) (by decide) (by decide +kernel)
  have hlate : start = 1008 := by
    rw [← hstart]
    decide +kernel
  omega

end Sys2Proof.Machine

/-!
SUPPORT. The requests that reach the sequencer (R124, R141 to R147, R166), and the characteristic that follows the plan-set epoch (R348).
-/

namespace Sys2Proof.Machine

/-! ### A message to the sequencer -/

/-- ADMIT, STOP, ABORT and EPOCH_SET of a header: the messages that a host port hands to the sequencer (R166). -/
def forSequencer (h : EcpHdr) (i : Instr) : Prop :=
  (∃ ctx iv sv root, i = .admitPlan h ctx iv sv root) ∨ (∃ ctx f, i = .stop h ctx f) ∨ (∃ ctx, i = .abort h ctx) ∨ ∃ e, i = .epochSet h e

theorem exec_of_forSequencer {h : EcpHdr} {i : Instr} {s : State} (hi : forSequencer h i) (hr : s.ecpRuns i = true) :
    exec i s = .next ((s.ecpTaken h).toSequencer i (fun s => runQueued s i)) := by
  obtain ⟨ctx, iv, sv, root, rfl⟩ | ⟨ctx, f, rfl⟩ | ⟨ctx, rfl⟩ | ⟨e, rfl⟩ := hi <;>
    exact congrArg Host.Outcome.next (ecpIn_of_runs _ rfl hr)

/-- While a sequencer holds the lease, the message runs. -/
theorem exec_of_acting {h : EcpHdr} {i : Instr} {s : State} (hi : forSequencer h i) (hr : s.ecpRuns i = true)
    (ha : (s.ecpTaken h).acting.isSome = true) : exec i s = .next (runQueued (s.ecpTaken h) i) := by
  obtain ⟨t, ht⟩ := Option.isSome_iff_exists.mp ha
  rw [exec_of_forSequencer hi hr]
  simp only [State.toSequencer, ht]

theorem queued_ecpTaken (s : State) (h : EcpHdr) :
    (s.ecpTaken h).claim.queued = s.claim.queued ∧ (s.ecpTaken h).claim.dropped = s.claim.dropped := by
  have : (s.claim.seqTake h.seq).queued = s.claim.queued ∧ (s.claim.seqTake h.seq).dropped = s.claim.dropped := by
    unfold ClaimSt.seqTake; split <;> exact ⟨rfl, rfl⟩
  exact this

/-- While none holds it, the message joins the queue of the host port, or is dropped and counted (R166). -/
theorem sequencerRequests_wait (h : EcpHdr) (i : Instr) (s u : State) (hi : forSequencer h i) (hr : s.ecpRuns i = true)
    (hu : u = s.ecpTaken h) (ha : u.acting = none) :
    (s.claim.queued.length < 64 → exec i s = .next { u with claim := { u.claim with queued := s.claim.queued ++ [i] } }) ∧
    (64 ≤ s.claim.queued.length → exec i s = .next { u with claim := { u.claim with dropped := s.claim.dropped + 1 } }) := by
  subst hu
  obtain ⟨hq, hd⟩ := queued_ecpTaken s h
  rw [exec_of_forSequencer hi hr]
  simp only [State.toSequencer, ha, hq, hd]
  exact ⟨fun hl => by rw [if_pos hl], fun hl => by rw [if_neg (by omega)]⟩

theorem admitPlan_runs (h : EcpHdr) (ctx iv sv root : Nat) (s u : State) (hr : s.ecpRuns (.admitPlan h ctx iv sv root) = true)
    (hu : u = s.ecpTaken h) (ha : u.acting.isSome = true) :
    exec (.admitPlan h ctx iv sv root) s = .next { u with admits := s.admits ++ [⟨h, ctx, iv, sv, root, s.tick⟩] } := by
  subst hu
  exact exec_of_acting (.inl ⟨ctx, iv, sv, root, rfl⟩) hr ha

theorem stopCtx_of_running {s : State} {c : Nat} (forced tell : Bool) (hc : c < 64) (hst : s.cstate c = cRunning) :
    (stopCtx c forced tell s).2 = 0 ∧ (stopCtx c forced tell s).1.cstate c = cStopping := by
  have h1 : ¬ (s.cstate c = cStopping ∧ forced = true ∧ (!(s.ctx c).forced) = true) := by rw [hst]; exact fun h => absurd h.1 (by decide)
  unfold stopCtx
  simp only [if_neg h1, if_neg (not_not.mpr hst), true_and]
  exact State.cstate_setCstate _ _ _ hc

/-- STOP by the state of its context (R141, R143, R144). -/
theorem stop_runs (h : EcpHdr) (ctx forced : Nat) (s u : State) (hr : s.ecpRuns (.stop h ctx forced) = true) (hu : u = s.ecpTaken h)
    (ha : u.acting.isSome = true) :
    ((64 ≤ ctx ∨ 2 ≤ forced) → exec (.stop h ctx forced) s = .next (u.genReply h 0x22 2)) ∧
    (ctx < 64 → forced < 2 → u.cstate ctx = cRunning → ∃ v, exec (.stop h ctx forced) s = .next (v.genReply h 0x22 0) ∧
      v = (stopCtx ctx (forced == 1) true u).1 ∧ v.cstate ctx = cStopping) ∧
    (ctx < 64 → forced = 1 → u.cstate ctx = cStopping → (u.ctx ctx).forced = false →
      exec (.stop h ctx forced) s = .next (((u.tellMembers ctx 3).forceStop ctx).genReply h 0x22 0)) ∧
    (ctx < 64 → forced < 2 → u.cstate ctx ≠ cRunning →
      ¬ (forced = 1 ∧ u.cstate ctx = cStopping ∧ (u.ctx ctx).forced = false) →
      exec (.stop h ctx forced) s = .next (u.genReply h 0x22 1)) := by
  subst hu
  have hexec : exec (.stop h ctx forced) s = .next (stopEff h ctx forced (s.ecpTaken h)) :=
    exec_of_acting (.inr (.inl ⟨ctx, forced, rfl⟩)) hr ha
  rw [hexec]
  have hgood (hc : ctx < 64) (hf : forced < 2) : stopEff h ctx forced (s.ecpTaken h) =
      (stopCtx ctx (forced == 1) true (s.ecpTaken h)).1.genReply h 0x22 (stopCtx ctx (forced == 1) true (s.ecpTaken h)).2 :=
    if_neg (by omega)
  refine ⟨fun hbad => ?_, fun hc hf hst => ?_, fun hc hf hst hs => ?_, fun hc hf hst hs => ?_⟩
  · exact congrArg Host.Outcome.next (if_pos hbad)
  · obtain ⟨h2, h1⟩ := stopCtx_of_running (forced == 1) true hc hst
    exact ⟨_, by rw [hgood hc hf, h2], rfl, h1⟩
  · rw [hgood hc (by omega)]
    simp [stopCtx, hf, hst, hs]
  · have h1 : ¬ ((s.ecpTaken h).cstate ctx = cStopping ∧ (forced == 1) = true ∧ (!((s.ecpTaken h).ctx ctx).forced) = true) := by
      simpa [and_left_comm, and_comm] using hs
    rw [hgood hc hf]
    simp only [stopCtx, if_neg h1, if_pos hst]

/-- ABORT by the state of its context (R147). -/
theorem abort_runs (h : EcpHdr) (ctx : Nat) (s u : State) (hr : s.ecpRuns (.abort h ctx) = true) (hu : u = s.ecpTaken h)
    (ha : u.acting.isSome = true) :
    (64 ≤ ctx → exec (.abort h ctx) s = .next (u.genReply h 0x23 2)) ∧
    (ctx < 64 → u.cstate ctx = cFree → exec (.abort h ctx) s = .next (u.genReply h 0x23 1)) ∧
    (ctx < 64 → u.cstate ctx ≠ cFree → exec (.abort h ctx) s = .next ((u.abortCtx ctx 0x16).genReply h 0x23 0)) := by
  subst hu
  have hexec : exec (.abort h ctx) s = .next (abortEff h ctx (s.ecpTaken h)) := exec_of_acting (.inr (.inr (.inl ⟨ctx, rfl⟩))) hr ha
  rw [hexec]
  refine ⟨fun hc => ?_, fun hc hst => ?_, fun hc hst => ?_⟩ <;> unfold abortEff
  · rw [if_pos hc]
  · rw [if_neg (by omega), if_pos hst]
  · rw [if_neg (by omega), if_neg hst]

/-- A tag covers no tag (R366). -/
theorem ecpBytes_tag (h : EcpHdr) (tag : List Byte) (type : Nat) (body : List Byte) :
    ecpBytes { h with tag := tag } type body = ecpBytes h type body := rfl

theorem State.seqs_ecpTaken (s : State) (h : EcpHdr) : (s.ecpTaken h).seqs = s.seqs := rfl

/-! ### The epoch on every present tile (R124) -/

/-- Every present tile holds an epoch. -/
def State.setEpochs (s : State) (e : Nat) : State :=
  s.each ((List.range s.nTiles).filter s.tileUp) (fun s t => s.rs (uTile t) SEQ_EPOCH.epoch e)

theorem epochSetEff_of_allFree (h : EcpHdr) (e : Nat) (s : State) (hf : s.allFree = true) :
    epochSetEff h e s = (s.setEpochs e).newChar.genReply h 0x25 0 := if_pos hf

theorem epochSetEff_of_not_allFree (h : EcpHdr) (e : Nat) (s : State) (hf : s.allFree = false) :
    epochSetEff h e s = s.genReply h 0x25 1 := if_neg (by simp [hf])

theorem exec_epochSet_of_acting {h : EcpHdr} {e : Nat} {s : State} (hr : s.ecpRuns (.epochSet h e) = true)
    (ha : (s.ecpTaken h).acting.isSome = true) : exec (.epochSet h e) s = .next (epochSetEff h e (s.ecpTaken h)) :=
  exec_of_acting (.inr (.inr (.inr ⟨e, rfl⟩))) hr ha

section
variable (s : State) (e : Nat)

/-- What each write of an epoch keeps, all of them keep. -/
theorem State.setEpochs_keeps {β : Type} (p : State → β) (hp : ∀ s t, p (State.rs s (uTile t) SEQ_EPOCH.epoch e) = p s) :
    p (s.setEpochs e) = p s := State.each_keeps p (fun s t _ => hp s t) _

@[simp] theorem State.mem_setEpochs : (s.setEpochs e).mem = s.mem := s.setEpochs_keeps e State.mem (fun _ _ => rfl)
@[simp] theorem State.ctxs_setEpochs : (s.setEpochs e).ctxs = s.ctxs := s.setEpochs_keeps e State.ctxs (fun _ _ => rfl)
@[simp] theorem State.tick_setEpochs : (s.setEpochs e).tick = s.tick := s.setEpochs_keeps e State.tick (fun _ _ => rfl)
@[simp] theorem State.seqs_setEpochs : (s.setEpochs e).seqs = s.seqs := s.setEpochs_keeps e State.seqs (fun _ _ => rfl)
@[simp] theorem State.fuses_setEpochs : (s.setEpochs e).fuses = s.fuses := s.setEpochs_keeps e State.fuses (fun _ _ => rfl)

@[simp] theorem State.nTiles_setEpochs : (s.setEpochs e).nTiles = s.nTiles := by simp only [State.nTiles, State.fuses_setEpochs]

theorem State.rg_setEpochs_other (u : Nat) (f : Fld) (d : Nat) (h : ∀ t, regKey u f d ≠ regKey (uTile t) SEQ_EPOCH.epoch 0) :
    (s.setEpochs e).rg u f d = s.rg u f d :=
  s.setEpochs_keeps e (fun s => s.rg u f d) (fun _ _ => State.rg_rs_other _ _ _ _ _ _ _ _ (h _))

/-- The keeper's registers stay. -/
theorem State.rg_setEpochs_keeper (f : Fld) (d : Nat) (hd : f.off + d < 2 ^ 40) (hl : f.lo < 64) :
    (s.setEpochs e).rg 0 f d = s.rg 0 f d := by
  refine s.rg_setEpochs_other e _ _ _ (fun t => ?_)
  rw [Ne, regKey_eq_iff hd (by decide) hl (by decide)]
  unfold uTile
  omega

/-- The other registers of the tiles stay. -/
theorem State.rg_setEpochs_tile (t : Nat) (f : Fld) (d : Nat) (hd : f.off + d < 2 ^ 40) (hl : f.lo < 64) (h : f.off + d ≠ 0x20008) :
    (s.setEpochs e).rg (uTile t) f d = s.rg (uTile t) f d := by
  refine s.rg_setEpochs_other e _ _ _ (fun t => ?_)
  rw [Ne, regKey_eq_iff hd (by decide) hl (by decide)]
  exact fun hk => h hk.2.1

/-- A tile that a run over a list of tiles comes to, or that held the epoch before it, holds it after. -/
theorem rg_epoch_each (l : List Nat) (t : Nat) (s : State) (h : t ∈ l ∨ s.rg (uTile t) SEQ_EPOCH.epoch = e % 2 ^ 32) :
    (s.each l (fun s t => s.rs (uTile t) SEQ_EPOCH.epoch e)).rg (uTile t) SEQ_EPOCH.epoch = e % 2 ^ 32 := by
  induction l generalizing s with
  | nil => exact h.resolve_left List.not_mem_nil
  | cons a l ih =>
    refine ih _ ?_
    rw [State.rg_rs]
    obtain h | h := h
    · obtain rfl | h := List.mem_cons.mp h
      · exact .inr (if_pos rfl)
      · exact .inl h
    · rw [h]
      exact .inr (ite_self _)

theorem State.rg_setEpochs_absent (t : Nat) (ht : s.tileUp t = false) :
    (s.setEpochs e).rg (uTile t) SEQ_EPOCH.epoch = s.rg (uTile t) SEQ_EPOCH.epoch := by
  refine State.each_keeps (fun s => s.rg (uTile t) SEQ_EPOCH.epoch) (fun s' j hj => State.rg_rs_other _ _ _ _ _ _ _ _ ?_) s
  have hne : t ≠ j := fun h => by
    have := (List.mem_filter.mp hj).2
    rw [← h, ht] at this
    cases this
  rw [Ne, regKey_eq_iff (by decide) (by decide) (by decide) (by decide)]
  unfold uTile
  omega

theorem State.rg_setEpochs_same (t : Nat) (ht : s.tileUp t = true) : (s.setEpochs e).rg (uTile t) SEQ_EPOCH.epoch = e % 2 ^ 32 := by
  refine rg_epoch_each e _ t s (.inl (List.mem_filter.mpr ⟨List.mem_range.mpr ?_, ht⟩))
  simp only [State.tileUp, Bool.and_eq_true, decide_eq_true_eq] at ht
  exact ht.1

end

/-! ### The characteristic (R348) -/

/-- The own characteristic of a link, and a CHAR for its peer, where the link is ACTIVE or QUARANTINED. -/
def State.linkChar (s : State) (l : Nat) : State :=
  if s.lg l LNK_STATUS.state = 2 ∨ s.lg l LNK_STATUS.state = 3 then
    (s.ls l LNK_OWN_CHAR.value (s.charOf (s.lg l LNK_STATUS.major) (s.lg l LNK_STATUS.minor))).sendChar l
  else s

/-- The state with the characteristic of the package written, before any link follows. -/
def State.withChar (s : State) : State := s.rs 0 LNK_CHAR.value (s.charOf ownMajor ownMinor)

theorem State.newChar_eq (s : State) : s.newChar =
    s.withChar.each ((List.range s.withChar.nLinks).filter (fun l => s.withChar.tileUp (linkTile l))) State.linkChar := rfl

/-- `t` differs from `s` in its links and in the own characteristics that they hold alone. -/
structure LinksOnly (s t : State) : Prop where
  same : ∃ r f k, t = { s with regs := r, fresh := f, links := k }
  rg : ∀ u f d, (∀ l, regKey u f d ≠ regKey (uTile (linkTile l)) LNK_OWN_CHAR.value (dLink l)) → t.rg u f d = s.rg u f d

theorem LinksOnly.refl (s : State) : LinksOnly s s := ⟨⟨_, _, _, rfl⟩, fun _ _ _ _ => rfl⟩

theorem LinksOnly.trans {s t u : State} (h : LinksOnly s t) (g : LinksOnly t u) : LinksOnly s u := by
  obtain ⟨r, f, k, rfl⟩ := h.same
  obtain ⟨r', f', k', rfl⟩ := g.same
  exact ⟨⟨r', f', k', rfl⟩, fun u f d hk => (g.rg u f d hk).trans (h.rg u f d hk)⟩

theorem State.sendLink_eq (s : State) (l type : Nat) (args : List Nat) (data : List Byte) (vc ctx : Nat) :
    ∃ k, s.sendLink l type args data vc ctx = { s with links := k } := by
  unfold State.sendLink
  dsimp only
  split
  · exact ⟨_, rfl⟩
  · split <;> exact ⟨_, rfl⟩

theorem State.sendChar_eq (s : State) (l : Nat) : ∃ k, s.sendChar l = { s with links := k } := by
  obtain ⟨k, hk⟩ := State.sendLink_eq (s.setLink l { s.link l with charAt := s.tick + 100000 }) l 0x30
    [(s.setLink l { s.link l with charAt := s.tick + 100000 }).lg l LNK_OWN_CHAR.value] [] 3 64
  exact ⟨k, hk⟩

theorem State.rg_sendChar (s : State) (l u : Nat) (f : Fld) (d : Nat) : (s.sendChar l).rg u f d = s.rg u f d := by
  obtain ⟨k, hk⟩ := s.sendChar_eq l
  rw [hk]; rfl

theorem State.linkChar_linksOnly (s : State) (l : Nat) : LinksOnly s (s.linkChar l) := by
  unfold State.linkChar
  split
  · refine ⟨?_, fun u f d h => ?_⟩
    · obtain ⟨k, hk⟩ := State.sendChar_eq (s.ls l LNK_OWN_CHAR.value (s.charOf (s.lg l LNK_STATUS.major) (s.lg l LNK_STATUS.minor))) l
      exact ⟨_, _, _, hk⟩
    · rw [State.rg_sendChar]
      exact State.rg_rs_other _ _ _ _ _ _ _ _ (h l)
  · exact LinksOnly.refl s

theorem linksOnly_each (l : List Nat) (s : State) : LinksOnly s (s.each l State.linkChar) :=
  List.foldlRecOn (motive := LinksOnly s) l State.linkChar (LinksOnly.refl s) (fun t h x _ => h.trans (t.linkChar_linksOnly x))

theorem State.newChar_linksOnly (s : State) : LinksOnly s.withChar s.newChar := linksOnly_each _ _

section
variable (s : State)

@[simp] theorem State.mem_newChar : s.newChar.mem = s.mem := by obtain ⟨r, f, k, h⟩ := s.newChar_linksOnly.same; rw [h]; rfl
@[simp] theorem State.ctxs_newChar : s.newChar.ctxs = s.ctxs := by obtain ⟨r, f, k, h⟩ := s.newChar_linksOnly.same; rw [h]; rfl
@[simp] theorem State.tick_newChar : s.newChar.tick = s.tick := by obtain ⟨r, f, k, h⟩ := s.newChar_linksOnly.same; rw [h]; rfl
@[simp] theorem State.seqs_newChar : s.newChar.seqs = s.seqs := by obtain ⟨r, f, k, h⟩ := s.newChar_linksOnly.same; rw [h]; rfl
@[simp] theorem State.fuses_newChar : s.newChar.fuses = s.fuses := by obtain ⟨r, f, k, h⟩ := s.newChar_linksOnly.same; rw [h]; rfl

@[simp] theorem State.nTiles_newChar : s.newChar.nTiles = s.nTiles := by simp only [State.nTiles, State.fuses_newChar]

end

/-- The characteristic of the package leaves every register of the tiles. -/
theorem State.rg_withChar_tile (s : State) (t : Nat) (f : Fld) (d : Nat) : s.withChar.rg (uTile t) f d = s.rg (uTile t) f d :=
  State.rg_rs_other _ _ _ _ _ _ _ _ (by simp only [regKey, uTile, LNK_CHAR.value]; omega)

/-- Of the keeper's it leaves those of another offset. -/
theorem State.rg_withChar_keeper (s : State) (f : Fld) (d : Nat) (hl : f.lo < 64) (h : f.off + d ≠ 0x50000) :
    s.withChar.rg 0 f d = s.rg 0 f d :=
  State.rg_rs_other _ _ _ _ _ _ _ _ (by simp only [regKey, LNK_CHAR.value]; omega)

/-- A place of another unit or of a lower offset than an own characteristic's. -/
theorem place_ne_ownChar {u d : Nat} {f : Fld} (hd : f.off + d < 2 ^ 40) (hl : f.lo < 64) (h : u < 0x10 ∨ f.off + d < 0x80000) (l : Nat) :
    regKey u f d ≠ regKey (uTile (linkTile l)) LNK_OWN_CHAR.value (dLink l) := by
  rw [Ne, regKey_eq_iff hd (by simp only [LNK_OWN_CHAR.value, dLink]; omega) hl (by decide)]
  simp only [LNK_OWN_CHAR.value, dLink, uTile]
  omega

/-- A new characteristic leaves the registers of the tiles below those of the links. -/
theorem State.rg_newChar_tile (s : State) (t : Nat) (f : Fld) (d : Nat) (hd : f.off + d < 0x80000) (hl : f.lo < 64) :
    s.newChar.rg (uTile t) f d = s.rg (uTile t) f d :=
  (s.newChar_linksOnly.rg _ _ _ (place_ne_ownChar (by omega) hl (.inr hd))).trans (s.rg_withChar_tile t f d)

/-- It leaves the keeper's registers of another offset. -/
theorem State.rg_newChar_keeper (s : State) (f : Fld) (d : Nat) (hd : f.off + d < 2 ^ 40) (hl : f.lo < 64) (h : f.off + d ≠ 0x50000) :
    s.newChar.rg 0 f d = s.rg 0 f d :=
  (s.newChar_linksOnly.rg _ _ _ (place_ne_ownChar hd hl (.inl (by decide)))).trans (s.rg_withChar_keeper f d hl h)

theorem State.rg_lnkChar_newChar (s : State) : s.newChar.rg 0 LNK_CHAR.value = s.charOf ownMajor ownMinor % 2 ^ 64 :=
  (s.newChar_linksOnly.rg _ _ _ (place_ne_ownChar (by decide) (by decide) (.inl (by decide)))).trans (State.rg_rs_same ..)

theorem State.digest_congr {s t : State} (h : ∀ d < 0x80, t.rg 0 CFG_DIGEST.bytes d = s.rg 0 CFG_DIGEST.bytes d) {k : Nat} (hk : k < 4) :
    t.digest k = s.digest k := by
  unfold State.digest
  refine List.flatMap_congr (fun j hj => ?_)
  have hj := List.mem_range.mp hj
  rw [h _ (by omega)]

/-- The characteristic follows from the digests, from what decides who acts, and from the epochs of the tiles. -/
theorem State.charOf_congr {s t : State} (hfuses : t.fuses = s.fuses) (htick : t.tick = s.tick) (hseqs : t.seqs = s.seqs)
    (hst : ∀ j < s.nTiles, t.tileSt j = s.tileSt j)
    (hheld : ∀ j < s.nTiles, t.rg (uTile j) SEQ_ROLE.lease_held = s.rg (uTile j) SEQ_ROLE.lease_held)
    (hholder : t.rg 0 KPR_LEASE.holder = s.rg 0 KPR_LEASE.holder)
    (hdigest : ∀ d < 0x80, t.rg 0 CFG_DIGEST.bytes d = s.rg 0 CFG_DIGEST.bytes d)
    (hepoch : ∀ j, t.rg (uTile j) SEQ_EPOCH.epoch = s.rg (uTile j) SEQ_EPOCH.epoch) (major minor : Nat) :
    t.charOf major minor = s.charOf major minor := by
  have hunit : t.primaryUnit = s.primaryUnit := by
    simp only [State.primaryUnit, State.acting_congr hfuses htick hseqs hst hheld, hholder]
  have hprimary : ∃ j, s.primaryUnit = uTile j := by unfold State.primaryUnit; split <;> exact ⟨_, rfl⟩
  obtain ⟨j, hj⟩ := hprimary
  simp only [State.charOf, State.digest_congr hdigest (k := 1) (by decide), State.digest_congr hdigest (k := 2) (by decide), hunit, hj,
    hepoch j]

/-- With no more tiles than the largest variant has (R14), the characteristic of the package is not among its own inputs. -/
theorem State.charOf_newChar (s : State) (hn : s.nTiles ≤ 8) (major minor : Nat) : s.newChar.charOf major minor = s.charOf major minor :=
  State.charOf_congr s.fuses_newChar s.tick_newChar s.seqs_newChar
    (fun j hj => s.rg_newChar_keeper _ _ (by simp only [EVT_FENCE.tile]; omega) (by decide) (by simp only [EVT_FENCE.tile]; omega))
    (fun j _ => s.rg_newChar_tile _ _ _ (by decide) (by decide)) (s.rg_newChar_keeper _ _ (by decide) (by decide) (by decide))
    (fun d hd => s.rg_newChar_keeper _ _ (by simp only [CFG_DIGEST.bytes]; omega) (by decide) (by simp only [CFG_DIGEST.bytes]; omega))
    (fun j => s.rg_newChar_tile _ _ _ (by decide) (by decide)) major minor

/-- EPOCH_SET of a part with no more tiles than the largest variant has (R14, R124, R348). -/
theorem epochSet_runs (h : EcpHdr) (epoch : Nat) (s u : State) (hn : s.nTiles ≤ 8) (hr : s.ecpRuns (.epochSet h epoch) = true)
    (hu : u = s.ecpTaken h) (ha : u.acting.isSome = true) :
    (u.allFree = true → ∃ v : State, exec (.epochSet h epoch) s = .next (v.genReply h 0x25 0) ∧
      (∀ t, t < u.nTiles → u.tileUp t = true → v.rg (uTile t) SEQ_EPOCH.epoch = epoch % 2 ^ 32) ∧
      v.rg 0 LNK_CHAR.value = v.charOf ownMajor ownMinor % 2 ^ LNK_CHAR.value.w ∧ v.mem = s.mem ∧ v.ctxs = s.ctxs) ∧
    (u.allFree = false → exec (.epochSet h epoch) s = .next (u.genReply h 0x25 1)) := by
  subst hu
  rw [exec_epochSet_of_acting hr ha]
  refine ⟨fun hf => ⟨((s.ecpTaken h).setEpochs epoch).newChar, ?_, fun t _ hup => ?_, ?_, ?_, ?_⟩, fun hf => ?_⟩
  · rw [epochSetEff_of_allFree _ _ _ hf]
  · rw [State.rg_newChar_tile _ _ _ _ (by decide) (by decide)]
    exact State.rg_setEpochs_same _ _ _ hup
  · have hn' : ((s.ecpTaken h).setEpochs epoch).nTiles ≤ 8 := by rw [State.nTiles_setEpochs]; exact hn
    rw [State.rg_lnkChar_newChar, State.charOf_newChar _ hn']
    rfl
  · rw [State.mem_newChar, State.mem_setEpochs]; rfl
  · rw [State.ctxs_newChar, State.ctxs_setEpochs]; rfl
  · rw [epochSetEff_of_not_allFree _ _ _ hf]

/-! ### The first link -/

theorem State.tileSt_withChar (s : State) (t : Nat) : s.withChar.tileSt t = s.tileSt t :=
  s.rg_withChar_keeper _ _ (by decide) (by simp only [EVT_FENCE.tile]; omega)

theorem State.tileUp_withChar (s : State) (t : Nat) : s.withChar.tileUp t = s.tileUp t := by
  rw [State.tileUp, State.tileSt_withChar]; rfl

theorem State.lg_withChar (s : State) (l : Nat) (f : Fld) : s.withChar.lg l f = s.lg l f := s.rg_withChar_tile _ _ _

theorem State.charOf_withChar (s : State) (major minor : Nat) : s.withChar.charOf major minor = s.charOf major minor :=
  State.charOf_congr (State.fuses_rs ..) (State.tick_rs ..) (State.seqs_rs ..) (fun j _ => s.tileSt_withChar j)
    (fun j _ => s.rg_withChar_tile _ _ _) (s.rg_withChar_keeper _ _ (by decide) (by decide))
    (fun d _ => s.rg_withChar_keeper _ _ (by decide) (by simp only [CFG_DIGEST.bytes]; omega)) (fun j => s.rg_withChar_tile _ _ _)
    major minor

/-- A link's own characteristic is written at that link alone. -/
theorem State.ownChar_linkChar_other (s : State) {l m : Nat} (h : m ≠ l) :
    (s.linkChar l).lg m LNK_OWN_CHAR.value = s.lg m LNK_OWN_CHAR.value := by
  unfold State.linkChar State.lg
  split
  · rw [State.rg_sendChar]
    refine State.rg_rs_other _ _ _ _ _ _ _ _ ?_
    rw [Ne, regKey_eq_iff (by simp only [LNK_OWN_CHAR.value, dLink]; omega) (by simp only [LNK_OWN_CHAR.value, dLink]; omega) (by decide)
      (by decide)]
    simp only [uTile, linkTile, dLink]
    omega
  · rfl

theorem State.ownChar_linkChar_same (s : State) (l : Nat) (h : s.lg l LNK_STATUS.state = 2) : (s.linkChar l).lg l LNK_OWN_CHAR.value =
    s.charOf (s.lg l LNK_STATUS.major) (s.lg l LNK_STATUS.minor) % 2 ^ 64 := by
  rw [State.linkChar, if_pos (.inl h), State.lg, State.rg_sendChar]
  exact State.rg_rs_same ..

/-- Link 0, where it is ACTIVE, is the first to follow a new characteristic. -/
theorem State.ownChar_newChar (s : State) (hup : s.tileUp 0 = true) (h : s.lg 0 LNK_STATUS.state = 2) :
    s.newChar.lg 0 LNK_OWN_CHAR.value = s.charOf (s.lg 0 LNK_STATUS.major) (s.lg 0 LNK_STATUS.minor) % 2 ^ 64 := by
  obtain ⟨n, hn⟩ : ∃ n, s.withChar.nLinks = n + 1 := by
    have hpos : 0 < s.nTiles := by simp only [State.tileUp, Bool.and_eq_true, decide_eq_true_eq] at hup; exact hup.1
    exact Nat.exists_eq_add_one.mpr (Nat.mul_pos hpos (by decide))
  have hlinks : (List.range s.withChar.nLinks).filter (fun l => s.withChar.tileUp (linkTile l)) =
      0 :: ((List.range n).map Nat.succ).filter (fun l => s.withChar.tileUp (linkTile l)) := by
    rw [hn, List.range_succ_eq_map]
    exact List.filter_cons_of_pos ((s.tileUp_withChar 0).trans hup)
  have hfirst := s.withChar.ownChar_linkChar_same 0 ((s.lg_withChar 0 _).trans h)
  rw [s.lg_withChar, s.lg_withChar, s.charOf_withChar] at hfirst
  rw [State.newChar_eq, hlinks, ← hfirst]
  refine State.each_keeps (fun s => s.lg 0 LNK_OWN_CHAR.value) (fun t l hl => t.ownChar_linkChar_other ?_) (s.withChar.linkChar 0)
  obtain ⟨m, -, rfl⟩ := List.mem_map.mp (List.mem_filter.mp hl).1
  exact (Nat.succ_ne_zero m).symm

/-- The characteristic of a part whose digests are 0, at an epoch and the own version. -/
def charOfEpoch (e : Nat) : Nat :=
  unle ((sha256 (List.replicate 32 0 ++ List.replicate 32 0 ++ le 4 e ++ le 1 ownMajor ++ le 1 ownMinor)).take 8)

theorem charOfEpoch_two : charOfEpoch 2 % 2 ^ 64 ≠ 1 ∧ charOfEpoch 2 % 2 ^ 64 ≠ charOfEpoch 0 % 2 ^ 64 := by decide +kernel

theorem charOf_of_digest_zero {s : State} (hd : ∀ d < 0x80, s.rg 0 CFG_DIGEST.bytes d = 0) :
    s.charOf ownMajor ownMinor = charOfEpoch (s.rg s.primaryUnit SEQ_EPOCH.epoch) := by
  have hz (k : Nat) (hk : k < 4) : s.digest k = List.replicate 32 0 := by
    have : s.digest k = (List.range 4).flatMap (fun _ => le 8 0) :=
      List.flatMap_congr (fun j hj => by rw [hd _ (by have := List.mem_range.mp hj; omega)])
    rw [this]
    decide +kernel
  rw [State.charOf, hz 1 (by decide), hz 2 (by decide), charOfEpoch]

/-! ### A reply reads and writes no register -/

theorem State.putEcp_eq (s : State) (o : EcpOut) : ∃ p l, s.putEcp o = { s with ports := p, ecpOut := l } := by
  unfold State.putEcp
  dsimp only
  split <;> exact ⟨_, _, rfl⟩

theorem State.genReply_eq (s : State) (h : EcpHdr) (rtype code : Nat) :
    ∃ c p l, s.genReply h rtype code = { s with claim := c, ports := p, ecpOut := l } := by
  obtain ⟨p, l, hp⟩ := State.putEcp_eq { s with claim := { s.claim with txSeq := s.claim.txSeq + 1 } }
    (s.ecpMsg h.port h.ip h.udp 0x06 1 h.reqId code [])
  unfold State.genReply State.reply State.sendEcp
  rw [hp]
  exact ⟨_, _, _, rfl⟩

section
variable (s : State) (h : EcpHdr) (rtype code : Nat)

@[simp] theorem State.regs_genReply : (s.genReply h rtype code).regs = s.regs := by
  obtain ⟨c, p, l, e⟩ := s.genReply_eq h rtype code; rw [e]
@[simp] theorem State.tick_genReply : (s.genReply h rtype code).tick = s.tick := by
  obtain ⟨c, p, l, e⟩ := s.genReply_eq h rtype code; rw [e]
@[simp] theorem State.seqs_genReply : (s.genReply h rtype code).seqs = s.seqs := by
  obtain ⟨c, p, l, e⟩ := s.genReply_eq h rtype code; rw [e]
@[simp] theorem State.fuses_genReply : (s.genReply h rtype code).fuses = s.fuses := by
  obtain ⟨c, p, l, e⟩ := s.genReply_eq h rtype code; rw [e]

end

/-- A reply leaves every characteristic as it is. -/
theorem State.charOf_genReply (s : State) (h : EcpHdr) (rtype code major minor : Nat) :
    (s.genReply h rtype code).charOf major minor = s.charOf major minor := by
  have keep (u : Nat) (f : Fld) (d : Nat) := State.rg_of_regs (s.regs_genReply h rtype code) u f d
  exact State.charOf_congr (s.fuses_genReply ..) (s.tick_genReply ..) (s.seqs_genReply ..) (fun j _ => keep _ _ _) (fun j _ => keep _ _ _)
    (keep _ _ _) (fun d _ => keep _ _ _) (fun j => keep _ _ _) major minor

/-! ### On a part with more tiles than places -/

/-- The number whose presence field would share its place with the own characteristic of link 0. -/
def charTile : Nat := 2 ^ 41 - 16388

theorem charTile_place : regKey 0 EVT_FENCE.tile (8 * charTile) = regKey (uTile (linkTile 0)) LNK_OWN_CHAR.value (dLink 0) := by decide

/-- A state with that many tiles. Tile 0 and the last are present; the last alone holds a lease, of which the keeper's record names the
absent tile 1. Link 0 is ACTIVE, at the package's own version. -/
def charAliased : State :=
  let s : State := { fuses := { tiles := charTile + 1 }, seqs := [(charTile, { ownExp := 1 })], claim := { claimed := true } }
  ((((((s.rs 0 EVT_FENCE.tile 1).rs 0 EVT_FENCE.tile 1 (8 * charTile)).rs (uTile charTile) SEQ_ROLE.lease_held 1).rs
    0 KPR_LEASE.holder 1).ls 0 LNK_STATUS.state 2).ls 0 LNK_STATUS.major ownMajor).ls 0 LNK_STATUS.minor ownMinor

/-- The header of an EPOCH_SET without its tag. -/
def untagged : EcpHdr :=
  { port := 0, ip := 0, udp := 0, size := 64, magic := 0x5045, version := 1, length := 64, flags := 0, seq := 1, reqId := 0, code := 0,
    rsv := 0, short := false, tail := [], tag := [] }

/-- The header of an EPOCH_SET of epoch 2, with its tag under the empty key. -/
def epochHdr : EcpHdr := { untagged with tag := hmac [] (ecpBytes untagged 0x25 (le 4 2)) }

theorem charAliased_ecpRuns : charAliased.ecpRuns (.epochSet epochHdr 2) = true := by
  have htag : (charAliased.countFec epochHdr.port epochHdr.rx).authentic epochHdr 0x25 (le 4 2) = true := by
    have hkey : (charAliased.countFec epochHdr.port epochHdr.rx).claim.key = [] := rfl
    have hbytes : ecpBytes epochHdr 0x25 (le 4 2) = ecpBytes untagged 0x25 (le 4 2) := ecpBytes_tag ..
    simp only [State.authentic, Bool.and_eq_true, beq_iff_eq, hbytes, hkey]
    exact ⟨⟨rfl, rfl⟩, by simp only [epochHdr]⟩
  have hup : charAliased.unitUp (uPort epochHdr.port) = true := by decide +kernel
  simp only [State.ecpRuns, ecpOf, htag, hup]
  rfl

/-- The state as the request finds it. -/
def charAsked : State := charAliased.ecpTaken epochHdr

/-- The state with the epoch at every present tile. -/
def charEpochs : State := charAsked.setEpochs 2

/-- Only the last tile holds anything of a lease. -/
theorem charAliased_seq {j : Nat} (h : j < charTile) : mget charAliased.seqs j {} = {} := by
  have h1 : charTile ≠ j := by omega
  show mget [(charTile, _)] j _ = _
  simp [mget, mfind, h1]

theorem acting_of_charAliased {s : State} (hseqs : s.seqs = charAliased.seqs) (htick : s.tick = 0)
    (hheld : s.rg (uTile charTile) SEQ_ROLE.lease_held = 1) (hn : s.nTiles = charTile + 1) :
    (s.tileSt charTile = 1 → s.acting = some charTile) ∧ (s.tileSt charTile ≠ 1 → s.acting = none) := by
  have hlow {j : Nat} (hj : j < charTile) : ¬ s.tick < (s.seq j).ownExp := by
    rw [State.seq, hseqs, charAliased_seq hj]
    exact Nat.not_lt_zero _
  refine ⟨fun hst => ?_, fun hst => ?_⟩
  · rw [State.acting_eq_some_iff]
    refine ⟨⟨?_, hheld, ?_⟩, fun j hj h => hlow hj h.2.2⟩
    · rw [State.tileUp, hn, hst]; simp
    · rw [State.seq, hseqs, htick]; decide +kernel
  · rw [Option.eq_none_iff_forall_ne_some]
    intro t ht
    obtain ⟨⟨hup, -, hexp⟩, -⟩ := (s.acting_eq_some_iff t).mp ht
    simp only [State.tileUp, hn, Bool.and_eq_true, decide_eq_true_eq, beq_iff_eq] at hup
    obtain h | rfl := Nat.lt_succ_iff_lt_or_eq.mp hup.1
    · exact hlow h hexp
    · exact hst hup.2

theorem charAsked_seqs : charAsked.seqs = charAliased.seqs := charAliased.seqs_ecpTaken epochHdr

theorem charAsked_acting : charAsked.acting = some charTile :=
  (acting_of_charAliased charAsked_seqs rfl (by decide +kernel) rfl).1 (by decide +kernel)

theorem charEpochs_acting : charEpochs.acting = some charTile := by
  have hheld : charEpochs.rg (uTile charTile) SEQ_ROLE.lease_held = 1 := by
    rw [charEpochs, State.rg_setEpochs_tile _ _ _ _ _ (by decide) (by decide) (by decide)]
    decide +kernel
  have hst : charEpochs.tileSt charTile = 1 := by
    rw [charEpochs, State.tileSt, State.rg_setEpochs_other _ _ _ _ _
      (fun t => by simp only [regKey, EVT_FENCE.tile, SEQ_EPOCH.epoch, uTile, charTile]; omega)]
    decide +kernel
  have hn : charEpochs.nTiles = charTile + 1 := by rw [charEpochs, State.nTiles_setEpochs]; rfl
  exact (acting_of_charAliased ((State.seqs_setEpochs ..).trans charAsked_seqs) (State.tick_setEpochs ..) hheld hn).1 hst

theorem charEpochs_digest (d : Nat) (hd : d < 0x80) : charEpochs.rg 0 CFG_DIGEST.bytes d = 0 := by
  rw [charEpochs, State.rg_setEpochs_keeper _ _ _ _ (by simp only [CFG_DIGEST.bytes]; omega) (by decide)]
  revert d
  decide +kernel

theorem charEpochs_charOf : charEpochs.charOf ownMajor ownMinor = charOfEpoch 2 := by
  have hp : charEpochs.primaryUnit = uTile charTile := by rw [State.primaryUnit, charEpochs_acting]
  have hup : charAsked.tileUp charTile = true := ((charAsked.acting_eq_some_iff charTile).mp charAsked_acting).1.1
  have he : charEpochs.rg (uTile charTile) SEQ_EPOCH.epoch = 2 := charAsked.rg_setEpochs_same 2 charTile hup
  rw [charOf_of_digest_zero charEpochs_digest, hp, he]

/-- Link 0 takes the acting tile's presence away. -/
theorem charEpochs_tileSt_newChar : charEpochs.newChar.tileSt charTile = charOfEpoch 2 % 2 ^ 64 := by
  have hlink (f : Fld) (hf : f.off = 0x80000) (hl : f.lo < 64) : charEpochs.lg 0 f = charAsked.lg 0 f :=
    State.rg_setEpochs_tile _ _ _ _ _ (by simp only [hf, dLink]; omega) hl (by simp only [hf, dLink]; omega)
  have hup : charEpochs.tileUp 0 = true := by
    rw [State.tileUp, State.tileSt, charEpochs, State.nTiles_setEpochs, State.rg_setEpochs_keeper _ _ _ _ (by decide) (by decide)]
    decide +kernel
  have hM : charAsked.lg 0 LNK_STATUS.major = ownMajor := by decide +kernel
  have hm : charAsked.lg 0 LNK_STATUS.minor = ownMinor := by decide +kernel
  have hown := charEpochs.ownChar_newChar hup (by rw [hlink _ rfl (by decide)]; decide +kernel)
  rw [hlink _ rfl (by decide), hlink _ rfl (by decide), hM, hm, charEpochs_charOf] at hown
  rw [State.tileSt, State.rg_of_place _ charTile_place rfl]
  exact hown

/-- With none that acts, the keeper's record names tile 1, whose epoch is 0. -/
theorem charEpochs_charOf_newChar : charEpochs.newChar.charOf ownMajor ownMinor = charOfEpoch 0 := by
  have hheld : charEpochs.newChar.rg (uTile charTile) SEQ_ROLE.lease_held = 1 := by
    rw [State.rg_newChar_tile _ _ _ _ (by decide) (by decide), charEpochs,
      State.rg_setEpochs_tile _ _ _ _ _ (by decide) (by decide) (by decide)]
    decide +kernel
  have hn : charEpochs.newChar.nTiles = charTile + 1 := by
    rw [State.nTiles_newChar, charEpochs, State.nTiles_setEpochs]; rfl
  have hseqs : charEpochs.newChar.seqs = charAliased.seqs := by
    rw [State.seqs_newChar, charEpochs, State.seqs_setEpochs, charAsked_seqs]
  have htick : charEpochs.newChar.tick = 0 := by rw [State.tick_newChar, charEpochs, State.tick_setEpochs]; rfl
  have hnone : charEpochs.newChar.acting = none :=
    (acting_of_charAliased hseqs htick hheld hn).2 (by rw [charEpochs_tileSt_newChar]; exact charOfEpoch_two.1)
  have hp : charEpochs.newChar.primaryUnit = uTile 1 := by
    rw [State.primaryUnit, hnone, State.rg_newChar_keeper _ _ _ (by decide) (by decide) (by decide), charEpochs,
      State.rg_setEpochs_keeper _ _ _ _ (by decide) (by decide)]
    decide +kernel
  have he : charEpochs.newChar.rg (uTile 1) SEQ_EPOCH.epoch = 0 := by
    rw [State.rg_newChar_tile _ _ _ _ (by decide) (by decide), charEpochs, State.rg_setEpochs_absent _ _ _ (by decide +kernel)]
    decide +kernel
  have hd (d : Nat) (hd : d < 0x80) : charEpochs.newChar.rg 0 CFG_DIGEST.bytes d = 0 := by
    rw [State.rg_newChar_keeper _ _ _ (by simp only [CFG_DIGEST.bytes]; omega) (by decide) (by simp only [CFG_DIGEST.bytes]; omega)]
    exact charEpochs_digest d hd
  rw [charOf_of_digest_zero hd, hp, he]

/-- Refutes O34. Nothing bounds the tiles of a state: of `charAliased` the characteristic that EPOCH_SET writes at link 0 is the presence of
the acting tile, so that LNK_CHAR follows from epoch 2 at that tile, and the state that it leaves, where none acts, has that of epoch 0 at
the tile of the keeper's record. With the tiles of a variant the clause holds (`epochSet_runs`); the others hold of every state
(`admitPlan_runs`, `stop_runs`, `abort_runs`, `sequencerRequests_wait`). -/
theorem not_contextRequestsRun : ¬ Obligations.ContextRequestsRun := by
  unfold Obligations.ContextRequestsRun
  rintro ⟨-, hepoch⟩
  have hact : charAsked.acting.isSome = true := by rw [charAsked_acting]; rfl
  have hfree : charAsked.allFree = true := by decide +kernel
  obtain ⟨v, hexec, -, hchar, -, -⟩ := (hepoch epochHdr 2 charAliased charAsked charAliased_ecpRuns rfl hact).1 hfree
  rw [exec_epochSet_of_acting charAliased_ecpRuns hact] at hexec
  have hreply : charEpochs.newChar.genReply epochHdr 0x25 0 = v.genReply epochHdr 0x25 0 :=
    (epochSetEff_of_allFree epochHdr 2 charAsked hfree).symm.trans (Host.Outcome.next.inj hexec)
  have hregs : charEpochs.newChar.regs = v.regs := by simpa using congrArg State.regs hreply
  have hsame : charOfEpoch 0 = v.charOf ownMajor ownMinor := by
    rw [← charEpochs_charOf_newChar, ← State.charOf_genReply _ epochHdr 0x25 0, hreply, State.charOf_genReply]
  rw [← State.rg_of_regs hregs, State.rg_lnkChar_newChar, charEpochs_charOf, ← hsame, show LNK_CHAR.value.w = 64 from rfl] at hchar
  exact charOfEpoch_two.2 hchar

end Sys2Proof.Machine

/-!
SUPPORT. The Ethernet side of the host ports (R358 to R362): what a row does on a port that answers, one equation for each case, and
what the states that they name show.
-/

namespace Sys2Proof.Machine

section
variable {s : State} {port : Nat}

/-! ### Links (R362) -/

/-- An event of a host port travels to the keeper: neither port is the keeper or the metering island (R446). -/
theorem State.travel_raise_port (v : State) (code : Nat) (hp : port < 2) : ∃ r : EvRec,
    (v.raise code (uPort port)).ev.travel = v.ev.travel ++ [r] ∧ r.code = code ∧ r.prec = precOf code ∧ r.unit = uPort port ∧
    r.tick = v.tick := by
  have hu : ¬ (uPort port = 0 ∨ uPort port = 0xF0) := by unfold uPort; omega
  unfold State.raise
  rw [if_neg hu]
  exact ⟨_, rfl, rfl, rfl, rfl, rfl⟩

@[simp] theorem State.hpt_raise (v : State) (code unit object waiter detail p : Nat) (b : Bool) :
    (v.raise code unit object waiter detail b).hpt p = v.hpt p := by simp [State.hpt]

/-- A port shows the state of its link, of FEC lock and of auto-negotiation. -/
def State.showLink (s : State) (port up fec an : Nat) : State :=
  ((s.rs (uPort port) HPT_STATUS.link_up up).rs (uPort port) HPT_STATUS.fec_lock fec).rs (uPort port) HPT_STATUS.an_done an

/-- FEC lock and auto-negotiation stand beside the state of the link, and leave it. -/
theorem State.rg_linkUp_showLink (v : State) (port up fec an : Nat) :
    (v.showLink port up fec an).rg (uPort port) HPT_STATUS.link_up = up % 2 := by
  unfold State.showLink
  rw [State.rg_rs_field _ _ _ _ _ _ (by decide), State.rg_rs_field _ _ _ _ _ _ (by decide)]
  exact State.rg_rs_same ..

theorem exec_ethernetLinkDown_of_up (hup : s.unitUp (uPort port) = true) (h : s.rg (uPort port) HPT_STATUS.link_up = 1) :
    exec (.ethernetLinkDown port) s = .next (((s.showLink port 0 0 0).setHpt port {}).raise 0x8001 (uPort port)) :=
  if_pos ⟨hup, h⟩

theorem exec_ethernetLinkDown_of_not (h : ¬ (s.unitUp (uPort port) = true ∧ s.rg (uPort port) HPT_STATUS.link_up = 1)) :
    exec (.ethernetLinkDown port) s = .next s :=
  if_neg h

theorem exec_ethernetLinkUp_of_down (hup : s.unitUp (uPort port) = true) (h : s.rg (uPort port) HPT_STATUS.link_up = 0) :
    exec (.ethernetLinkUp port) s =
      .next ((s.showLink port 1 1 (1 - s.rg (uPort port) HPT_STATUS.phy)).raise 0x8002 (uPort port)) :=
  if_pos ⟨hup, h⟩

theorem exec_ethernetLinkUp_of_not (h : ¬ (s.unitUp (uPort port) = true ∧ s.rg (uPort port) HPT_STATUS.link_up = 0)) :
    exec (.ethernetLinkUp port) s = .next s :=
  if_neg h

/-- A link that goes down shows so, loses what its port held, and raises 0x8001. -/
theorem ethernetLinkDown_falls (hp : port < 2) (hup : s.unitUp (uPort port) = true) (h : s.rg (uPort port) HPT_STATUS.link_up = 1) :
    ∃ (t : State) (r : EvRec), exec (.ethernetLinkDown port) s = .next t ∧
      t.rg (uPort port) HPT_STATUS.link_up = 0 ∧ t.ev.travel = s.ev.travel ++ [r] ∧ r.code = 0x8001 ∧ r.prec = 11 ∧
      r.unit = uPort port ∧ r.tick = s.tick ∧ t.hpt port = {} ∧ t.ctxs = s.ctxs ∧ t.mem = s.mem ∧ t.claim = s.claim ∧ t.qps = s.qps := by
  obtain ⟨r, htravel, hcode, hprec, hunit, htick⟩ := State.travel_raise_port ((s.showLink port 0 0 0).setHpt port {}) 0x8001 hp
  refine ⟨_, r, exec_ethernetLinkDown_of_up hup h, ?_, htravel, hcode, hprec, hunit, htick, by simp, ?_⟩
  · rw [State.rg_of_regs ((State.regs_raise ..).trans (State.regs_setHpt ..)), State.rg_linkUp_showLink]
  · simp [State.showLink]

/-- A link that comes up shows so and raises 0x8002. -/
theorem ethernetLinkUp_rises (hp : port < 2) (hup : s.unitUp (uPort port) = true) (h : s.rg (uPort port) HPT_STATUS.link_up = 0) :
    ∃ (t : State) (r : EvRec), exec (.ethernetLinkUp port) s = .next t ∧
      t.rg (uPort port) HPT_STATUS.link_up = 1 ∧ t.ev.travel = s.ev.travel ++ [r] ∧ r.code = 0x8002 ∧ r.prec = 11 ∧
      r.unit = uPort port ∧ r.tick = s.tick ∧ t.ctxs = s.ctxs ∧ t.mem = s.mem ∧ t.claim = s.claim ∧ t.qps = s.qps := by
  obtain ⟨r, htravel, hcode, hprec, hunit, htick⟩ :=
    State.travel_raise_port (s.showLink port 1 1 (1 - s.rg (uPort port) HPT_STATUS.phy)) 0x8002 hp
  refine ⟨_, r, exec_ethernetLinkUp_of_down hup h, ?_, htravel, hcode, hprec, hunit, htick, ?_⟩
  · rw [State.rg_of_regs (State.regs_raise ..), State.rg_linkUp_showLink]
  · simp [State.showLink]

/-! ### Flow control (R360) -/

section
variable {prio : Nat}

/-- PFC is honoured on a port that answers, for its two priorities only. -/
theorem exec_pfcFrame_of_not (xoff : Bool) (h : s.unitUp (uPort port) = false ∨
    (prio ≠ s.rg (uPort port) HPT_CFG.pfc_ecp ∧ prio ≠ s.rg (uPort port) HPT_CFG.pfc_roce)) :
    exec (.pfcFrame port prio xoff) s = .next s :=
  if_pos (by simpa using h)

/-- The guard of PFC_FRAME lets a priority of the port pass. -/
theorem pfc_guard_of_own {e r : Nat} (hup : s.unitUp (uPort port) = true) (h : prio = e ∨ prio = r) :
    ¬ ((!s.unitUp (uPort port)) = true ∨ (!(prio == e || prio == r)) = true) := by
  obtain h | h := h <;> simp [hup, h]

theorem exec_pfcFrame_xoff (hup : s.unitUp (uPort port) = true)
    (h : prio = s.rg (uPort port) HPT_CFG.pfc_ecp ∨ prio = s.rg (uPort port) HPT_CFG.pfc_roce) :
    exec (.pfcFrame port prio true) s = .next ((s.setHpt port { s.hpt port with
      paused := prio :: (s.hpt port).paused.filter (· != prio) }).rinc (uPort port) HPT_PFC.xoff_received 1) :=
  if_neg (pfc_guard_of_own hup h)

@[simp] theorem State.hpt_rinc (v : State) (u : Nat) (f : Fld) (n d p : Nat) : (v.rinc u f n d).hpt p = v.hpt p := rfl

/-- XOFF of a priority of the port pauses it and is counted; what waits stays. -/
theorem pfcFrame_xoff_pauses (hup : s.unitUp (uPort port) = true)
    (h : prio = s.rg (uPort port) HPT_CFG.pfc_ecp ∨ prio = s.rg (uPort port) HPT_CFG.pfc_roce) :
    ∃ t : State, exec (.pfcFrame port prio true) s = .next t ∧ prio ∈ (t.hpt port).paused ∧
      (t.hpt port).heldEcp = (s.hpt port).heldEcp ∧ (t.hpt port).heldRdma = (s.hpt port).heldRdma ∧ t.mem = s.mem ∧
      t.rg (uPort port) HPT_PFC.xoff_received = min (s.rg (uPort port) HPT_PFC.xoff_received + 1) (2 ^ HPT_PFC.xoff_received.w - 1) :=
  ⟨_, exec_pfcFrame_xoff hup h, by simp, by simp, by simp, by simp, State.rg_rinc_same ..⟩

/-- XON of a priority of the port sends what waited for it, in order, and the port is no longer paused for it. -/
theorem pfcFrame_xon_resumes (hup : s.unitUp (uPort port) = true)
    (h : prio = s.rg (uPort port) HPT_CFG.pfc_ecp ∨ prio = s.rg (uPort port) HPT_CFG.pfc_roce) :
    ∃ t : State, exec (.pfcFrame port prio false) s = .next t ∧ prio ∉ (t.hpt port).paused ∧ t.regs = s.regs ∧
      (prio = s.rg (uPort port) HPT_CFG.pfc_ecp → t.ecpOut = s.ecpOut ++ (s.hpt port).heldEcp ∧ (t.hpt port).heldEcp = []) ∧
      (prio = s.rg (uPort port) HPT_CFG.pfc_roce → t.frames = s.frames ++ (s.hpt port).heldRdma ∧ (t.hpt port).heldRdma = []) := by
  refine ⟨_, if_neg (pfc_guard_of_own hup h), ?_, ?_,
    fun he => ⟨?_, ?_⟩, fun hr => ⟨?_, ?_⟩⟩
  · simp
  · simp only [State.regs_setHpt]; split <;> split <;> rfl
  · simp only [State.ecpOut_setHpt, he, BEq.rfl, if_true]; split <;> rfl
  · simp [he]
  · simp only [State.frames_setHpt, hr, BEq.rfl, if_true]; split <;> rfl
  · simp [hr]

end

/-! ### Receive buffers (R358, R360) -/

section
variable {r : RxFrame} {n : Nat} {run : State → State}

theorem State.frameIn_of_down (hdown : s.unitUp (uPort port) = false) : s.frameIn port r n run = s :=
  if_pos (by simp [hdown])

theorem State.frameIn_of_full (hup : s.unitUp (uPort port) = true)
    (h : rxBuffer ((s.countFec port r).classOf port r) < (s.countFec port r).rxHeld port ((s.countFec port r).classOf port r) + n) :
    s.frameIn port r n run = (s.countFec port r).rinc (uPort port) HPT_FRAMES.other 1 :=
  (if_neg (by simp [hup])).trans (if_pos h)

theorem State.frameIn_of_fits (hup : s.unitUp (uPort port) = true)
    (h : (s.countFec port r).rxHeld port ((s.countFec port r).classOf port r) + n ≤ rxBuffer ((s.countFec port r).classOf port r)) :
    s.frameIn port r n run = run (s.countFec port r) :=
  (if_neg (by simp [hup])).trans (if_neg (Nat.not_lt.mpr h))

theorem exec_otherDatagram_of_full {kind : Nat} (hup : s.unitUp (uPort port) = true)
    (h : rxBuffer ((s.countFec port r).classOf port r) <
      (s.countFec port r).rxHeld port ((s.countFec port r).classOf port r) + r.bytes) :
    exec (.otherDatagram port kind r) s = .next ((s.countFec port r).rinc (uPort port) HPT_FRAMES.other 1) :=
  congrArg Host.Outcome.next (State.frameIn_of_full hup h)

theorem exec_otherDatagram_of_fits {kind : Nat} (hup : s.unitUp (uPort port) = true)
    (h : (s.countFec port r).rxHeld port ((s.countFec port r).classOf port r) + r.bytes ≤
      rxBuffer ((s.countFec port r).classOf port r)) :
    exec (.otherDatagram port kind r) s = .next (if kind = 0 then (s.countFec port r).rinc (uPort port) HPT_FRAMES.ip_frag 1
      else if kind = 1 then (s.countFec port r).rinc (uPort port) HPT_FRAMES.other 1
      else s.countFec port r) :=
  congrArg Host.Outcome.next (State.frameIn_of_fits hup h)

end

/-! ### Address protocols (R359) -/

theorem State.answer_of_own (kind ip : Nat) (hup : s.unitUp (uPort port) = true) : s.answer port kind ip true = { s with
    frames := s.frames ++ [{ port := port, kind := kind, dest := ip, data := le 6 (mget s.fuses.macs port 0), wire := s.wireOf port 2 ip }] } :=
  if_pos ⟨hup, rfl⟩

theorem State.answer_of_not (kind ip : Nat) {own : Bool} (h : s.unitUp (uPort port) = false ∨ own = false) :
    s.answer port kind ip own = s :=
  if_neg (by rintro ⟨hup, hown⟩; simp [hup, hown] at h)

/-! ### The rows together -/

/-- An ARP request, a neighbour solicitation or an echo request asks for an own address. -/
theorem exec_addressRequest {i : Instr} {kind ip own : Nat} {v6 : Bool}
    (h : (i = .arpRequest port ip ∧ kind = 0 ∧ own = (s.portCfg port).ip4) ∨
      (i = .neighbourSolicitation port ip ∧ kind = 1 ∧ own = (s.portCfg port).ip6) ∨
      (i = .echoRequest port ip v6 ∧ kind = 2 ∧ own = (if v6 then (s.portCfg port).ip6 else (s.portCfg port).ip4))) :
    exec i s = .next (s.answer port kind ip (ip == own)) := by
  rcases h with ⟨rfl, rfl, rfl⟩ | ⟨rfl, rfl, rfl⟩ | ⟨rfl, rfl, rfl⟩ <;> rfl

theorem exec_pauseFrame_of_up (hup : s.unitUp (uPort port) = true) :
    exec (.pauseFrame port) s = .next (s.rinc (uPort port) HPT_FRAMES.pause 1) :=
  congrArg Host.Outcome.next (if_pos hup)

theorem exec_pauseFrame_of_down (hdown : s.unitUp (uPort port) = false) : exec (.pauseFrame port) s = .next s :=
  congrArg Host.Outcome.next (if_neg (by simp [hdown]))

/-- A port that does not answer takes nothing from its link. -/
theorem exec_of_port_down {ip prio kind : Nat} {v6 xoff : Bool} {rx : RxFrame} {i : Instr} (hdown : s.unitUp (uPort port) = false)
    (h : i = .arpRequest port ip ∨ i = .neighbourSolicitation port ip ∨ i = .echoRequest port ip v6 ∨ i = .pauseFrame port ∨
      i = .pfcFrame port prio xoff ∨ i = .otherDatagram port kind rx ∨ i = .ethernetLinkDown port ∨ i = .ethernetLinkUp port) :
    exec i s = .next s := by
  have hnot (p : Prop) : ¬ (s.unitUp (uPort port) = true ∧ p) := by simp [hdown]
  rcases h with rfl | rfl | rfl | rfl | rfl | rfl | rfl | rfl
  · exact congrArg Host.Outcome.next (State.answer_of_not _ _ (.inl hdown))
  · exact congrArg Host.Outcome.next (State.answer_of_not _ _ (.inl hdown))
  · exact congrArg Host.Outcome.next (State.answer_of_not _ _ (.inl hdown))
  · exact exec_pauseFrame_of_down hdown
  · exact exec_pfcFrame_of_not _ (.inl hdown)
  · exact congrArg Host.Outcome.next (State.frameIn_of_down hdown)
  · exact exec_ethernetLinkDown_of_not (hnot _)
  · exact exec_ethernetLinkUp_of_not (hnot _)

end

/-- Settles O54, row by row: each clause is the equation of its row for its case. -/
theorem ethernetRows : Obligations.EthernetRows := by
  unfold Obligations.EthernetRows
  refine ⟨fun port s hp hup => ⟨?down, ?downIdle, ?up, ?upIdle⟩, fun port prio s hup => ⟨fun h => ?xoff, fun h => ?xonEcp, fun h => ?xonRoce,
    fun hecp hroce x => ?otherPriority⟩, fun port s hup => ⟨exec_pauseFrame_of_up hup, ?datagram⟩,
    fun port kind ip v6 own i s h => ⟨?own, ?otherAddress⟩, fun port ip prio kind v6 xoff rx i s => exec_of_port_down⟩
  case down => exact ethernetLinkDown_falls hp hup
  case downIdle => exact fun h => exec_ethernetLinkDown_of_not (fun hc => h hc.2)
  case up => exact ethernetLinkUp_rises hp hup
  case upIdle => exact fun h => exec_ethernetLinkUp_of_not (fun hc => h hc.2)
  case xoff => exact pfcFrame_xoff_pauses hup h
  case xonEcp =>
    obtain ⟨t, hexec, hpaused, hregs, hecp, -⟩ := pfcFrame_xon_resumes hup (.inl h)
    exact ⟨t, hexec, (hecp h).1, (hecp h).2, hpaused, hregs⟩
  case xonRoce =>
    obtain ⟨t, hexec, hpaused, hregs, -, hroce⟩ := pfcFrame_xon_resumes hup (.inr h)
    exact ⟨t, hexec, (hroce h).1, (hroce h).2, hpaused, hregs⟩
  case otherPriority => exact exec_pfcFrame_of_not x (.inr ⟨hecp, hroce⟩)
  case datagram =>
    rintro kind rx _ rfl
    refine ⟨exec_otherDatagram_of_full hup, fun hfits => ?_⟩
    rw [exec_otherDatagram_of_fits hup hfits]
    refine ⟨fun h => ?_, fun h => ?_, fun h => ?_⟩
    · rw [if_pos h]
    · rw [if_neg (by omega), if_pos h]
    · rw [if_neg (by omega), if_neg (by omega)]
  case own =>
    rintro hup rfl
    rw [exec_addressRequest h, BEq.rfl, State.answer_of_own _ _ hup]
  case otherAddress =>
    intro _ hne
    rw [exec_addressRequest h, State.answer_of_not _ _ (.inr (beq_false_of_ne hne))]

end Sys2Proof.Machine

/-!
SUPPORT. The mirror of the metering island (R410, R412): what the keeper raises for it, what a write into unit 0xF0 comes to by each way
in, and what a status frame and its absence show.
-/

namespace Sys2Proof.Machine

/-! ### Events of the mirror, and fields written one after another -/

/-- The keeper holds an event of the mirror at once (R446). -/
theorem State.held_raise_met (v : State) (code : Nat) : ∃ r : EvRec,
    (v.raise code uMet).ev.held = v.ev.held ++ [r] ∧ r.code = code ∧ r.prec = precOf code ∧ r.unit = 0xF0 ∧ r.tick = v.tick :=
  ⟨_, rfl, rfl, rfl, rfl, rfl⟩

/-- An event of the mirror, raised on a condition. -/
def State.raiseIf (s : State) (p : Prop) [Decidable p] (code : Nat) : State := if p then s.raise code uMet else s

theorem State.rg_raiseIf (v : State) (p : Prop) [Decidable p] (code u : Nat) (f : Fld) : (v.raiseIf p code).rg u f = v.rg u f := by
  unfold State.raiseIf
  split
  · exact State.rg_of_regs (State.regs_raise ..) ..
  · rfl

theorem State.mirror_raiseIf (v : State) (p : Prop) [Decidable p] (code : Nat) : (v.raiseIf p code).mirror = v.mirror := by
  unfold State.raiseIf
  split
  · exact State.mirror_raise ..
  · rfl

/-- Writes of other fields of a unit, one after another, leave a field. -/
theorem State.rg_each_rs_field (s : State) (u : Nat) (g : Fld) {l : List (Fld × Nat)}
    (h : ∀ x ∈ l, ¬ (g.off * 64 + g.lo = x.1.off * 64 + x.1.lo)) : (s.each l (fun s x => s.rs u x.1 x.2)).rg u g = s.rg u g :=
  State.each_keeps (l := l) (fun s => s.rg u g) (fun s x hx => s.rg_rs_field u 0 x.2 x.1 g (h x hx)) s

theorem State.tick_each_rs (s : State) (u : Nat) (l : List (Fld × Nat)) : (s.each l (fun s x => s.rs u x.1 x.2)).tick = s.tick :=
  State.each_keeps (l := l) State.tick (fun s x _ => s.tick_rs u x.1 x.2 0) s

/-! ### Writes into unit 0xF0 (R412) -/

section
variable {s : State} {a : Nat}

@[simp] theorem State.met_mirrorRefused (s : State) : s.mirrorRefused.met = s.met := State.met_raise ..
@[simp] theorem State.mirror_mirrorRefused (s : State) : s.mirrorRefused.mirror = s.mirror := State.mirror_raise ..
@[simp] theorem State.mem_mirrorRefused (s : State) : s.mirrorRefused.mem = s.mem := State.mem_raise ..

/-- The keeper counts a refused write, up to what its field holds. -/
theorem State.rg_mirrorRefused (s : State) :
    s.mirrorRefused.rg uMet MET_REFUSED.mirror = min (s.rg uMet MET_REFUSED.mirror + 1) (2 ^ 32 - 1) :=
  (State.rg_of_regs (State.regs_raise ..) ..).trans (State.rg_rinc_same ..)

/-- A management write into unit 0xF0 is refused, at every offset and with every value. -/
theorem State.mgmtWrite_of_met (v : Nat) (hu : addrUnit a = 0xF0) (ha : a < 2 ^ 48) : s.mgmtWrite a v = (false, s.mirrorRefused) :=
  if_pos ⟨hu, ha⟩

theorem exec_mirrorWrite_of_awake (off : Nat) (v : Word) (hb : s.boot.awake = true) :
    exec (.mirrorWrite off v) s = .next (s.mirrorRefused.accessDone (0xF0 * 2 ^ 40 + off) false) :=
  congrArg Host.Outcome.next (if_pos hb)

theorem exec_mirrorWrite_of_asleep (off : Nat) (v : Word) (hb : s.boot.awake = false) : exec (.mirrorWrite off v) s = .next s :=
  congrArg Host.Outcome.next (if_neg (by simp [hb]))

theorem exec_registerWrite_of_met (v : Word) (hu : addrUnit a = 0xF0) (ha : a < 2 ^ 48) (hb : s.boot.awake = true) :
    exec (.registerWrite a 64 v) s = .next (s.mirrorRefused.accessDone a false) := by
  have hexec : exec (.registerWrite a 64 v) s = .next ((s.mgmtWrite a v.toNat).2.accessDone a (s.mgmtWrite a v.toNat).1) := if_pos hb
  rw [hexec, State.mgmtWrite_of_met _ hu ha]

/-- A write into unit 0xF0 by a management pin leaves the status of an error. -/
theorem State.pinWrite_of_met (v : Nat) (hu : addrUnit a = 0xF0) (ha : a < 2 ^ 48) :
    s.pinWrite a v = ((pinError, 0), s.mirrorRefused) := by
  simp [State.pinWrite, State.mgmtWrite_of_met v hu ha]

theorem exec_i3cWrite_of_met (v : Word) (hu : addrUnit a = 0xF0) (ha : a < 2 ^ 48) (hb : s.boot.awake = true) :
    exec (.i3cWrite a v) s = .next (s.mirrorRefused.setMgmt { s.mirrorRefused.mgmt with i3c := (pinError, 0) }) := by
  have hexec : exec (.i3cWrite a v) s =
      .next ((s.pinWrite a v.toNat).2.setMgmt { (s.pinWrite a v.toNat).2.mgmt with i3c := (s.pinWrite a v.toNat).1 }) := if_pos hb
  rw [hexec, State.pinWrite_of_met _ hu ha]

/-- The state that a JTAG access acts on: the instruction selected, the result of the last access captured. -/
def State.jtagTaken (s : State) : State := (s.setIr irMgmt).returned (.capture s.mgmt.jtag.1 s.mgmt.jtag.2)

theorem exec_mgmt_write_of_met (v : Word) (ecc : EccHits) (hu : addrUnit a = 0xF0) (ha : a < 2 ^ 48) (hb : s.boot.awake = true) :
    exec (.mgmt 1 a v ecc) s =
      .next (s.jtagTaken.mirrorRefused.setMgmt { s.jtagTaken.mirrorRefused.mgmt with jtag := (pinError, 0) }) := by
  have hexec : exec (.mgmt 1 a v ecc) s = .next ((s.jtagTaken.pinWrite a v.toNat).2.setMgmt
      { (s.jtagTaken.pinWrite a v.toNat).2.mgmt with jtag := (s.jtagTaken.pinWrite a v.toNat).1 }) := if_pos hb
  rw [hexec, State.pinWrite_of_met _ hu ha]

/-- A REG_WRITE into unit 0xF0 that runs in its turn is answered with code 5. -/
theorem exec_regWrite_of_met {h : EcpHdr} {v : Word} (hu : addrUnit a = 0xF0) (ha : a < 2 ^ 48) (hturn : s.accessYields h.seq = false)
    (hr : s.ecpRuns (.regWrite h a v) = true) :
    exec (.regWrite h a v) s = .next ((s.ecpTaken h).mirrorRefused.reply h 0x13 0x14 5 (regReplyBody a [0])) := by
  have hexec : exec (.regWrite h a v) s = .next (s.ecpIn h 0x13 false (le 8 a ++ le 8 v.toNat) (regWriteEff h a v.toNat)) :=
    congrArg Host.Outcome.next (if_neg (by simp [hturn]))
  rw [hexec, ecpIn_of_runs _ rfl hr]
  simp [regWriteEff, State.mgmtWrite_of_met _ hu ha]

end

/-! ### Frames and their absence (R410) -/

section
variable {s : State}

theorem exec_mirrorStale_of_due (hb : s.boot.awake = true) (hp : s.rg uMet MET_STATUS.present = 1)
    (ht : s.mirror.at_ + 200000000 ≤ s.tick) : exec .mirrorStale s = .next ((s.rs uMet MET_STATUS.present 0).raise 0xB003 uMet) :=
  if_pos ⟨hb, hp, ht⟩

theorem exec_mirrorStale_of_not (h : s.boot.awake = false ∨ s.rg uMet MET_STATUS.present ≠ 1 ∨ s.tick < s.mirror.at_ + 200000000) :
    exec .mirrorStale s = .next s := by
  refine if_neg ?_
  rintro ⟨hb, hp, ht⟩
  rcases h with h | h | h
  · simp [hb] at h
  · exact h hp
  · omega

/-- What a status frame says beside that the meter is present, by field of the mirror. -/
def metShown (m : MetFrame) : List (Fld × Nat) :=
  [(MET_STATUS.sealed, flagIf m.sealed 1), (MET_STATUS.fault, flagIf m.fault 1), (MET_STATUS.leaves_low, flagIf m.low 1),
    (MET_STATUS.leaves_used, Nat.min m.used 0xFFFFFF), (MET_STATUS.record_no, m.recordNo), (MET_TOTAL.total_mj, m.total),
    (MET_SECOND.second, m.second), (MET_SECOND.energy_mj, m.energy), (MET_INPUT.mv, m.mv), (MET_INPUT.ma, m.ma), (MET_INPUT.w, m.w),
    (MET_REFUSED.port, m.refused)]

/-- The state with the fields of a status frame in the mirror. -/
def State.showFrame (s : State) (m : MetFrame) : State :=
  (s.rs uMet MET_STATUS.present 1).each (metShown m) (fun s x => s.rs uMet x.1 x.2)

theorem State.rg_present_showFrame (s : State) (m : MetFrame) : (s.showFrame m).rg uMet MET_STATUS.present = 1 := by
  refine (State.rg_each_rs_field _ _ _ ?_).trans (State.rg_rs_same ..)
  simp only [metShown, List.forall_mem_cons]
  decide

theorem State.tick_showFrame (s : State) (m : MetFrame) : (s.showFrame m).tick = s.tick :=
  (s.rs uMet MET_STATUS.present 1).tick_each_rs uMet (metShown m)

/-- The state with the mirror as young as the tick. -/
def State.mirrorYoung (s : State) : State := { s with mirror := { s.mirror with at_ := s.tick } }

theorem State.rg_mirrorYoung (v : State) (u : Nat) (f : Fld) : v.mirrorYoung.rg u f = v.rg u f := rfl
theorem State.at_mirrorYoung (v : State) : v.mirrorYoung.mirror.at_ = v.tick := rfl

/-- A valid status frame shows its fields and makes the mirror young; then it raises what it calls for. -/
theorem exec_statusFrame_of_valid {m : MetFrame} (hv : m.valid = true) (hb : s.boot.awake = true) : exec (.statusFrame m) s =
    .next ((((s.showFrame m).mirrorYoung.raiseIf m.fault 0xB002).raiseIf (m.refused > s.rg uMet MET_REFUSED.port) 0xB004).raiseIf
      (m.low ∧ s.rg uMet MET_STATUS.leaves_low = 0) 0xB005) :=
  if_pos ⟨hv, hb⟩

/-- A valid status frame makes the mirror present and young. -/
theorem statusFrame_makes_present {m : MetFrame} (hv : m.valid = true) (hb : s.boot.awake = true) :
    ∃ t : State, exec (.statusFrame m) s = .next t ∧ t.rg uMet MET_STATUS.present = 1 ∧ t.mirror.at_ = s.tick := by
  refine ⟨_, exec_statusFrame_of_valid hv hb, ?_, ?_⟩
  · rw [State.rg_raiseIf, State.rg_raiseIf, State.rg_raiseIf, State.rg_mirrorYoung, State.rg_present_showFrame]
  · rw [State.mirror_raiseIf, State.mirror_raiseIf, State.mirror_raiseIf, State.at_mirrorYoung, State.tick_showFrame]

end

/-- Settles O58: every way in comes to the one refusal of unit 0xF0, which only counts and raises; then staleness, and the frame that ends
it. -/
theorem mirrorIsReadOnlyAndGoesStale : Obligations.MirrorIsReadOnlyAndGoesStale := by
  unfold Obligations.MirrorIsReadOnlyAndGoesStale
  refine ⟨fun a v s hu ha hb => ?refused, fun off v s hb => exec_mirrorWrite_of_asleep off v hb, fun h a v s hu ha hturn hr => ?ecp,
    fun s => ⟨fun hb hp ht => ?stale, exec_mirrorStale_of_not⟩, fun m s hv hb => statusFrame_makes_present hv hb⟩
  case refused =>
    obtain ⟨r, hheld, hcode, hprec, hunit, htick⟩ := State.held_raise_met (s.rinc uMet MET_REFUSED.mirror 1) 0xB001
    exact ⟨s.mirrorRefused, r, State.mgmtWrite_of_met _ hu ha, s.rg_mirrorRefused, hheld, hcode, hprec, hunit, htick,
      s.met_mirrorRefused, s.mirror_mirrorRefused, s.mem_mirrorRefused, fun off => exec_mirrorWrite_of_awake off v hb,
      exec_registerWrite_of_met v hu ha hb, ⟨_, exec_i3cWrite_of_met v hu ha hb, rfl, rfl, rfl, s.met_mirrorRefused⟩,
      fun ecc => ⟨_, exec_mgmt_write_of_met v ecc hu ha hb, rfl, rfl, rfl, s.met_mirrorRefused⟩⟩
  case ecp => exact ⟨_, rfl, State.met_mirrorRefused _, exec_regWrite_of_met hu ha hturn hr⟩
  case stale =>
    obtain ⟨r, hheld, hcode, hprec, hunit, htick⟩ := State.held_raise_met (s.rs uMet MET_STATUS.present 0) 0xB003
    refine ⟨_, r, exec_mirrorStale_of_due hb hp ht, ?_, hheld, hcode, hprec, hunit, htick, State.met_raise .., State.mirror_raise ..,
      State.mem_raise .., fun k hk => ?_⟩
    · rw [State.rg_of_regs (State.regs_raise ..), State.rg_rs_same]
      rfl
    · rw [State.regs_raise]
      exact mget_mput_other _ _ _ _ _ hk

end Sys2Proof.Machine
